-- ==== Sys2Proof/Word.lean ====
section
/-! DEFINITION. The words of the module: 64-bit words and bytes (R5, R6), the sparse tables in which the
state keeps the many like things the module has, and the plainest arithmetic on them. -/

namespace Sys2Proof

/-- A 64-bit word: a Miulo register, a control-space register, a parameter word. -/
abbrev Word := BitVec 64

/-- One byte of memory, of a packet or of a frame. -/
abbrev Byte := BitVec 8

/-- A run of bytes, the byte at the lowest address or offset first. -/
abbrev Bytes := List Byte

/-- A floating register (R84). -/
abbrev Quad := BitVec 128

/-- A sparse table: entries in strictly rising key order; a key that is not listed holds the table's
reset value. -/
abbrev Tab (α : Type) := List (Nat × α)

/-- Bit `i` of a word (R5: bit 0 is the least significant). -/
def bitOf {w : Nat} (x : BitVec w) (i : Nat) : Bool := x.getLsbD i

/-- 1 or 0. -/
def ofBool {w : Nat} (b : Bool) : BitVec w := if b then 1#w else 0#w

end Sys2Proof
end

