-- ==== Sys2Proof/Syntax.lean ====
section
/-! DEFINITION. The commands of the module, one constructor per row of spec/opcode_table.json: the Miulo
instructions (each with the core that executes it), the management opcodes (each with its command packet)
and the hardware events (each with the unit it falls on and what comes from outside the module). -/

namespace Sys2Proof

/-- A general or floating register number (R107: the d, a and b fields). -/
abbrev Reg := BitVec 5

/-- A core: the cores of compute pair `k` are `2k` (leader) and `2k + 1` (shadow), `k = 13d + pp`;
104 to 107 are the channel processors and 108 is Vixia (R48, R220). A checked pair runs as its leader. -/
abbrev CoreId := Fin 109

/-- A checked pair in the order of R220: 52 compute pairs, 4 channel processors, Vixia. -/
abbrev PairId := Fin 57

/-- A port, numbered 128d + ppp (R48). -/
abbrev PortId := Fin 256

/-- An I/O context (R336). -/
abbrev CtxId := Fin 131072

/-- A journal entry (R387). -/
abbrev EntryId := Fin 1048576

/-- An event source (R441). -/
abbrev SourceId := Fin 4096

/-- A fault reporter (R594). -/
abbrev RepId := Fin 1024

/-- The floating formats (R84). -/
inductive FFmt where
  | s | d | q
  deriving DecidableEq, Repr

/-- A command packet as a ring carries it, after the header checks that only raw bytes can fail (R58):
the ring that carries it (1,024 is Vixia's internal ring, 1,025 the bundle ports, R578), and the header's fields and parameters. -/
structure Pkt where
  ring      : Fin 1026
  tag       : BitVec 32
  path      : Bytes
  partition : Byte
  auth      : Byte
  checkOnly : Bool
  params    : Bytes
  deriving DecidableEq, Repr

/-- A Knangefa frame's header fields and payload (R542). `dest` is used by OP, RESOLVE and SYNC, `ack` and
`credit` by every other type. -/
structure Frame where
  vcx     : Bool
  vc      : BitVec 16
  timed   : Bool
  resume  : Bool
  resync  : Bool
  destLen : BitVec 4
  seq     : BitVec 32
  dest    : Bytes
  ack     : BitVec 32
  credit  : BitVec 16
  payload : Bytes
  deriving DecidableEq, Repr

/-- What a HELLO says (R554). -/
structure LinkMsg where
  version  : Byte
  bundle   : Bool
  isModule : Bool
  credits  : BitVec 16
  identity : Word
  deriving DecidableEq, Repr

/-- The errors that a controller meets in one of the four ECC blocks of a line (R293): each device with the symbols of it that
are in error. -/
structure BlockErr where
  block   : Fin 4
  devices : List (Byte × Nat)
  deriving DecidableEq, Repr

/-- What a unit meets when it reports a fault (R274, R211, R293): an error in a structure that the spec protects, with what
comes of it. `unit` is every other fault, of which the reporter says all. -/
inductive HwError where
  | unit
  /-- L1I or L1D parity of a core, at a line -/
  | l1 (core : CoreId) (fetch : Bool) (line : Nat)
  /-- data or tags of a pair's L2 -/
  | l2 (pair : PairId) (tag : Bool) (line : Nat) (correctable : Bool)
  /-- data or tags of a line's home slice -/
  | slice (tag : Bool) (line : Nat) (correctable : Bool)
  /-- the directory entry of a line -/
  | directory (line : Nat) (correctable : Bool)
  /-- an entry of a pair's gated-store buffer -/
  | gated (pair : PairId) (correctable committed : Bool)
  /-- a line of a channel, on a demand read -/
  | dram (ch : Fin 24) (line : Nat) (errs : List BlockErr)
  /-- a sensor that the hub finds failed -/
  | sensor (source : SourceId)
  deriving DecidableEq, Repr

/-- A fault as a unit reports it (R601): the reporter, and what the unit has met. -/
structure FaultReport where
  reporter : RepId
  error    : HwError
  deriving DecidableEq, Repr

/-- The parcels of an instruction (R106); those beyond its length are not looked at. -/
structure Parcels where
  p0 : BitVec 24
  p1 : BitVec 24
  p2 : BitVec 24
  deriving DecidableEq, Repr

/-- What the codewords of a port bring (R539 to R541): how many were corrected, the control blocks, and the frames that the
receiver judges and discards. -/
structure LaneInput where
  port      : PortId
  corrected : Nat
  blocks    : List (BitVec 64)
  frames    : List Bytes
  deriving DecidableEq, Repr

/-- The timeouts of the module whose expiry R21 governs. -/
inductive TimerRef where
  | tail (port : PortId)
  | stale (q : Fin 1024)
  | quiet (r : RepId)
  | rto (conv : Nat)
  | keepalive (port : PortId)
  | linkRx (port : PortId)
  | training (port : PortId)
  | align (port : PortId)
  | errPulse
  | cutoff (entry : EntryId)
  | lateLimit (entry : EntryId)
  | powerGood (cmp : Bool)
  | idle (cell : Nat)
  deriving DecidableEq, Repr

/-- The kinds of DIMM (R279): `other` is one that the module does not support. -/
inductive DimmKind where
  | rdimm | mrdimm | other
  deriving DecidableEq, Repr

/-- A DIMM as Vixia finds it (R280): its kind, whether it carries ECC, the width of its devices, its ranks and its capacity in
GiB. -/
structure Dimm where
  kind  : DimmKind
  ecc   : Bool
  width : Nat
  ranks : Nat
  gib   : Nat
  deriving DecidableEq, Repr

/-- What the board and the dies show Vixia in one step of power-up (R637): the DIMMs of each populated channel, the channels
that train, and the pairs that pass their reset check. -/
structure BootEnv where
  fitted  : List (Nat × List Dimm)
  trained : List Nat
  pairsOk : List Nat
  deriving DecidableEq, Repr

/-- One command of the module: one row of the table of operations and events. -/
inductive Instr where
  /-- TB_SLEW (R18): Vixia makes an adjusted heartbeat tick that advances the timebase by 0 or 20 instead of 10, at most once in 1,024 ticks. -/
  | tbSlew (up : Bool)
  /-- HBCLK_LOSS (R22): The clock monitor detects that HBCLK has stopped or left tolerance, switches to the backup oscillator without a timebase step, and Tansy records a level 2 fault. -/
  | hbclkLoss
  /-- TIMEOUT_EXPIRY (R21): A timeout of T ticks expires on the T-th tick after the one in which it was armed. -/
  | timeoutExpiry (t : TimerRef)
  /-- IDLE_DELAY_EXPIRY (R24): An AUTO cell with a zero wake-hold count has been idle for its idle delay and enters ASLEEP. -/
  | idleDelayExpiry (cell : Nat)
  /-- CELL_WAKE_COMPLETE (R29): A waking cell reaches RUNNING within its wake latency and serves its waiting requests in arrival order. -/
  | cellWakeComplete (cell : Nat)
  /-- PACKAGE_POWER_CHECK (R32): Every 100 µs the sensor hub computes package power and its averages, and records a threshold event and a Tansy fault when a limit is exceeded. -/
  | packagePowerCheck (mw : BitVec 32)
  /-- DMA_TOKEN_REFILL (R37): At the start of each 1 µs interval each I/O die refills its share of DMA-cap line tokens, unused tokens lapse and waiting mover requests proceed. -/
  | dmaTokenRefill (d : Fin 2)
  /-- DMA_CAP_SET (R40): Sets the DMA cap and its division between the I/O dies after Sorrel's admission test, effective at the next refill. -/
  | dmaCapSet (pk : Pkt)
  /-- IDENTIFY (R660): Returns the cell number, kind, path, members, spare pair and serial number of the addressed cell. -/
  | identify (pk : Pkt)
  /-- QUERY (R661): Returns the cell's state, member state counts, settings in force, staged settings and extra words. -/
  | query (pk : Pkt)
  /-- STOP (R51): Stops a cell, making it STOPPED at once or DRAINING until its admitted work completes. -/
  | stop (pk : Pkt)
  /-- CHANGE (R53): Stages settings on a STOPPED cell, or on every member of a group, without touching the settings in force. -/
  | change (pk : Pkt)
  /-- START (R54): Applies every staged setting in one cycle and makes the cell RUNNING, or applies none and refuses. -/
  | start (pk : Pkt)
  /-- RESET (R55): Discards staged settings, returns settings to reset values and releases held resources, leaving the cell STOPPED. -/
  | reset (pk : Pkt)
  /-- SLEEP (R66): Puts an idle cell to sleep, or with RELEASE decrements its command wake-hold count. -/
  | sleep (pk : Pkt)
  /-- WAKE (R26): Wakes a cell, and with HOLD increments its command wake-hold count. -/
  | wake (pk : Pkt)
  /-- FORWARD (R45): Executes an inner command packet relative to the receiving cell and returns the inner reply. -/
  | forward (pk : Pkt)
  /-- SLEEP_POLICY (R27): Sets a cell's sleep policy AUTO or MANUAL and its idle delay from the next tick. -/
  | sleepPolicy (pk : Pkt)
  /-- DRAIN_COMPLETE (R51): The last admitted work of a DRAINING cell completes and the cell becomes STOPPED, completing each pending STOP. -/
  | drainComplete (cell : Nat)
  /-- DOORBELL (R70): A store to a ring's doorbell is checked and accepted as the new CMD_PROD, or halts the ring with BAD_DOORBELL. -/
  | doorbell (ring : Fin 1024) (v : Word)
  /-- COMMAND_CONSUME (R664): The module takes the next command slot of a ready ring in round-robin order when reply space allows, checks and executes it. -/
  | commandConsume
  /-- REPLY_WRITE (R72): The module writes a reply into the next free reply slot, advances REPLY_PROD and pushes an item to the ring's event queue. -/
  | replyWrite (ring : Fin 1024)
  /-- RING_ENABLE (R68): Writing RING_CTL.ENABLE starts or stops consumption of a ring's commands. -/
  | ringEnable (ring : Fin 1024) (on : Bool) (log2 : BitVec 4)
  /-- RING_HALT_CLEAR (R68): Clearing HALTED resumes a ring and sets CMD_PROD to CMD_CONS. -/
  | ringHaltClear (ring : Fin 1024)
  /-- REPLY_CONS_WRITE (R71): Writing REPLY_CONS frees reply slots and may complete consumption of posted completions. -/
  | replyConsWrite (ring : Fin 1024) (v : BitVec 16)
  /-- REGISTER_WRITE (R7): A write to a register without behaviour of its own stores, ignores, clears or sets bits as its access code gives. -/
  | registerWrite (addr : Nat) (v : Word)
  /-- QUEUE_POP (R434): A load from a pop port returns the highest-priority ready item, consumed at once or held pending for a checked pair. -/
  | queuePop (q : Fin 1024) (core : CoreId)
  /-- QUEUE_PEEK (R436): A load from a peek port returns the item a pop would return without changing anything. -/
  | queuePeek (q : Fin 1024)
  /-- ADD (R110): Gd receives Ga plus Gb. -/
  | add (core : CoreId) (d a b : Reg)
  /-- SUB (R110): Gd receives Ga minus Gb. -/
  | sub (core : CoreId) (d a b : Reg)
  /-- AND (R110): Gd receives Ga AND Gb. -/
  | and (core : CoreId) (d a b : Reg)
  /-- OR (R110): Gd receives Ga OR Gb. -/
  | or (core : CoreId) (d a b : Reg)
  /-- XOR (R110): Gd receives Ga XOR Gb. -/
  | xor (core : CoreId) (d a b : Reg)
  /-- ANDN (R110): Gd receives Ga AND NOT Gb. -/
  | andn (core : CoreId) (d a b : Reg)
  /-- ADDC (R112): Gd receives Ga plus Gb plus C, and C is written. -/
  | addc (core : CoreId) (d a b : Reg)
  /-- SUBB (R112): Gd receives Ga minus Gb minus NOT C, and C is written. -/
  | subb (core : CoreId) (d a b : Reg)
  /-- SLL (R110): Shifts Ga left by Gb[5:0]. -/
  | sll (core : CoreId) (d a b : Reg)
  /-- SRL (R110): Shifts Ga right logically by Gb[5:0]. -/
  | srl (core : CoreId) (d a b : Reg)
  /-- SRA (R110): Shifts Ga right arithmetically by Gb[5:0]. -/
  | sra (core : CoreId) (d a b : Reg)
  /-- ROR (R110): Rotates Ga right by Gb[5:0]. -/
  | ror (core : CoreId) (d a b : Reg)
  /-- SLT (R110): Writes 1 when Ga is signed-less than Gb, else 0. -/
  | slt (core : CoreId) (d a b : Reg)
  /-- SLTU (R110): Writes 1 when Ga is unsigned-less than Gb, else 0. -/
  | sltu (core : CoreId) (d a b : Reg)
  /-- CMP (R112): Sets N, Z, C and V from Ga minus Gb. -/
  | cmp (core : CoreId) (a b : Reg)
  /-- TST (R112): Sets N and Z from Ga AND Gb and clears C and V. -/
  | tst (core : CoreId) (a b : Reg)
  /-- SHI (R110): Shifts or rotates Ga by an immediate amount. -/
  | shi (core : CoreId) (d a : Reg) (fn : BitVec 2) (amount : BitVec 6)
  /-- ADDI8 (R110): Gd receives Ga plus a sign-extended 8-bit immediate. -/
  | addi8 (core : CoreId) (d a : Reg) (imm : BitVec 8)
  /-- CMPI8 (R112): Sets flags from Ga minus a sign-extended 8-bit immediate. -/
  | cmpi8 (core : CoreId) (a : Reg) (imm : BitVec 8)
  /-- MUL (R145): Writes the signed 128-bit product of Ga and Gb to PH:PL, landing three instructions later. -/
  | mul (core : CoreId) (a b : Reg)
  /-- MULU (R145): Writes the unsigned 128-bit product of Ga and Gb to PH:PL, landing three instructions later. -/
  | mulu (core : CoreId) (a b : Reg)
  /-- DIV (R114): Starts a signed division in the divide unit, writing quotient to PL and remainder to PH. -/
  | div (core : CoreId) (a b : Reg)
  /-- DIVU (R114): Starts an unsigned division in the divide unit, writing quotient to PL and remainder to PH. -/
  | divu (core : CoreId) (a b : Reg)
  /-- DIVIDE_COMPLETE (R151): The divide unit finishes an operation after its latency, writes its results and accepts the next divide-class instruction. -/
  | divideComplete (core : CoreId)
  /-- MFPH (R127): Gd receives PH as landed for this position. -/
  | mfph (core : CoreId) (d : Reg)
  /-- MFPL (R127): Gd receives PL as landed for this position. -/
  | mfpl (core : CoreId) (d : Reg)
  /-- MTPH (R127): PH receives Ga. -/
  | mtph (core : CoreId) (a : Reg)
  /-- MTPL (R127): PL receives Ga. -/
  | mtpl (core : CoreId) (a : Reg)
  /-- CLZ (R110): Counts leading zeros of Ga. -/
  | clz (core : CoreId) (d a : Reg)
  /-- CTZ (R110): Counts trailing zeros of Ga. -/
  | ctz (core : CoreId) (d a : Reg)
  /-- POPC (R110): Counts set bits of Ga. -/
  | popc (core : CoreId) (d a : Reg)
  /-- BSWAP (R110): Reverses the bytes of Ga. -/
  | bswap (core : CoreId) (d a : Reg)
  /-- SEXTB (R110): Sign-extends the low byte of Ga. -/
  | sextb (core : CoreId) (d a : Reg)
  /-- SEXTH (R110): Sign-extends the low 16 bits of Ga. -/
  | sexth (core : CoreId) (d a : Reg)
  /-- SEXTW (R110): Sign-extends the low 32 bits of Ga. -/
  | sextw (core : CoreId) (d a : Reg)
  /-- ZEXTW (R110): Zero-extends the low 32 bits of Ga. -/
  | zextw (core : CoreId) (d a : Reg)
  /-- LDB (R110): Loads one byte at Ga plus Gb, zero-extended. -/
  | ldb (core : CoreId) (d a b : Reg)
  /-- LDH (R110): Loads two bytes at Ga plus Gb, zero-extended. -/
  | ldh (core : CoreId) (d a b : Reg)
  /-- LDW (R110): Loads four bytes at Ga plus Gb, zero-extended. -/
  | ldw (core : CoreId) (d a b : Reg)
  /-- LDD (R110): Loads eight bytes at Ga plus Gb. -/
  | ldd (core : CoreId) (d a b : Reg)
  /-- LDBS (R110): Loads one byte at Ga plus Gb, sign-extended. -/
  | ldbs (core : CoreId) (d a b : Reg)
  /-- LDHS (R110): Loads two bytes at Ga plus Gb, sign-extended. -/
  | ldhs (core : CoreId) (d a b : Reg)
  /-- LDWS (R110): Loads four bytes at Ga plus Gb, sign-extended. -/
  | ldws (core : CoreId) (d a b : Reg)
  /-- STB (R110): Stores the low byte of Gd at Ga plus Gb. -/
  | stb (core : CoreId) (d a b : Reg)
  /-- STH (R110): Stores the low two bytes of Gd at Ga plus Gb. -/
  | sth (core : CoreId) (d a b : Reg)
  /-- STW (R110): Stores the low four bytes of Gd at Ga plus Gb. -/
  | stw (core : CoreId) (d a b : Reg)
  /-- STD (R110): Stores Gd at Ga plus Gb. -/
  | std (core : CoreId) (d a b : Reg)
  /-- LDD8 (R110): Loads eight bytes at Ga plus eight times a sign-extended immediate. -/
  | ldd8 (core : CoreId) (d a : Reg) (imm : BitVec 8)
  /-- STD8 (R110): Stores Gd at Ga plus eight times a sign-extended immediate. -/
  | std8 (core : CoreId) (d a : Reg) (imm : BitVec 8)
  /-- SWAP (R105): Atomically stores Gb at mem8[Ga] and returns the old value. -/
  | swap (core : CoreId) (d a b : Reg)
  /-- CAS (R110): Atomically stores Gb when the old value equals Gd, returns the old value and sets Z. -/
  | cas (core : CoreId) (d a b : Reg)
  /-- FADD_ATOMIC (R105): Atomically adds Gb to mem8[Ga] and returns the old value. -/
  | faddAtomic (core : CoreId) (d a b : Reg)
  /-- FAND (R105): Atomically ANDs Gb into mem8[Ga] and returns the old value. -/
  | fand (core : CoreId) (d a b : Reg)
  /-- FOR (R105): Atomically ORs Gb into mem8[Ga] and returns the old value. -/
  | for_ (core : CoreId) (d a b : Reg)
  /-- FXOR (R105): Atomically XORs Gb into mem8[Ga] and returns the old value. -/
  | fxor (core : CoreId) (d a b : Reg)
  /-- SETCC (R111): Writes 1 to Gd when the condition holds, else 0. -/
  | setcc (core : CoreId) (d : Reg) (cond : BitVec 5)
  /-- JMPR (R115): Continues at the address in Ga. -/
  | jmpr (core : CoreId) (a : Reg)
  /-- CALLR (R115): Pushes the return address and continues at Ga. -/
  | callr (core : CoreId) (a : Reg)
  /-- RET (R116): Pops PC from the stack. -/
  | ret (core : CoreId)
  /-- SEVT (R121): Sets EV in the processors of the partition named by Ga and Gb. -/
  | sevt (core : CoreId) (a b : Reg)
  /-- WAITC (R122): Waits until TB reaches Ga, an event or an interrupt, and writes the result code to Gd. -/
  | waitc (core : CoreId) (d a : Reg)
  /-- WAITC_TIME_REACHED (R126): TB reaches the WAITC target and the wait ends with result 1 or 3. -/
  | waitcTimeReached (core : CoreId)
  /-- ERET (R137): Restores PS and PC from the stack frame and pops it. -/
  | eret (core : CoreId)
  /-- WFE (R119): Clears EV and continues, or waits for an event or interrupt. -/
  | wfe (core : CoreId)
  /-- SEV (R120): Sets EV in every processor of the issuing partition. -/
  | sev (core : CoreId)
  /-- SYSCALL (R131): Traps to system level. -/
  | syscall (core : CoreId)
  /-- HOSTCALL (R131): Traps to host level. -/
  | hostcall (core : CoreId)
  /-- BREAK (R131): Raises the BREAK trap. -/
  | break_ (core : CoreId)
  /-- RDTB (R90): Writes the timebase to Gd. -/
  | rdtb (core : CoreId) (d : Reg)
  /-- MFPS (R110): Writes PS to Gd. -/
  | mfps (core : CoreId) (d : Reg)
  /-- MTPS (R87): Writes the writable fields of PS from Ga, IM only above user level. -/
  | mtps (core : CoreId) (a : Reg)
  /-- FENCE (R102): Orders every earlier access ahead of every later access. -/
  | fence (core : CoreId)
  /-- FENCE_I (R103): Makes stored instructions visible to this processor's fetch. -/
  | fenceI (core : CoreId)
  /-- MFK (R92): Reads a control register into Gd, subject to level checks. -/
  | mfk (core : CoreId) (d : Reg) (k : BitVec 6)
  /-- MTK (R92): Writes a control register from Ga, subject to level and access checks. -/
  | mtk (core : CoreId) (a : Reg) (k : BitVec 6)
  /-- FADD (R153): Floating addition rounded by FS.RM. -/
  | fadd (core : CoreId) (fmt : FFmt) (d a b : Reg)
  /-- FSUB (R153): Floating subtraction rounded by FS.RM. -/
  | fsub (core : CoreId) (fmt : FFmt) (d a b : Reg)
  /-- FMUL (R153): Floating multiplication rounded by FS.RM. -/
  | fmul (core : CoreId) (fmt : FFmt) (d a b : Reg)
  /-- FDIV (R173): Floating division in the divide unit. -/
  | fdiv (core : CoreId) (fmt : FFmt) (d a b : Reg)
  /-- FSQRT (R173): Floating square root in the divide unit. -/
  | fsqrt (core : CoreId) (fmt : FFmt) (d a : Reg)
  /-- FMIN (R169): IEEE minimum of Fa and Fb. -/
  | fmin (core : CoreId) (fmt : FFmt) (d a b : Reg)
  /-- FMAX (R169): IEEE maximum of Fa and Fb. -/
  | fmax (core : CoreId) (fmt : FFmt) (d a b : Reg)
  /-- FCMP (R170): Quiet floating comparison that sets the flags. -/
  | fcmp (core : CoreId) (fmt : FFmt) (a b : Reg)
  /-- FCVT (R172): Converts between integer and floating kinds. -/
  | fcvt (core : CoreId) (d a : Reg) (src dst : BitVec 4)
  /-- FMOV (R167): Copies a floating register without flags. -/
  | fmov (core : CoreId) (fmt : FFmt) (d a : Reg)
  /-- FNEG (R167): Inverts the sign bit. -/
  | fneg (core : CoreId) (fmt : FFmt) (d a : Reg)
  /-- FABS (R167): Clears the sign bit. -/
  | fabs (core : CoreId) (fmt : FFmt) (d a : Reg)
  /-- FCLASS (R113): Writes a one-hot class mask of Fa to Gd. -/
  | fclass (core : CoreId) (fmt : FFmt) (d a : Reg)
  /-- FRINT (R171): Rounds to an integral value by FS.RM without NX. -/
  | frint (core : CoreId) (fmt : FFmt) (d a : Reg)
  /-- FRINTX (R171): Rounds to an integral value by FS.RM, raising NX when inexact. -/
  | frintx (core : CoreId) (fmt : FFmt) (d a : Reg)
  /-- FMVGF (R110): Moves Fa[63:0] to Gd. -/
  | fmvgf (core : CoreId) (d a : Reg)
  /-- FMVGFH (R110): Moves Fa[127:64] to Gd. -/
  | fmvgfh (core : CoreId) (d a : Reg)
  /-- FMVFG (R110): Moves Ga zero-extended to Fd. -/
  | fmvfg (core : CoreId) (d a : Reg)
  /-- FMVFGH (R110): Moves Ga to Fd[127:64]. -/
  | fmvfgh (core : CoreId) (d a : Reg)
  /-- MFFS (R162): Reads FS into Gd. -/
  | mffs (core : CoreId) (d : Reg)
  /-- MTFS (R162): Writes FS from Ga, refusing reserved rounding modes. -/
  | mtfs (core : CoreId) (a : Reg)
  /-- FLDS (R110): Loads binary32 into Fd. -/
  | flds (core : CoreId) (d a b : Reg)
  /-- FLDD (R110): Loads binary64 into Fd. -/
  | fldd (core : CoreId) (d a b : Reg)
  /-- FLDQ (R110): Loads binary128 into Fd. -/
  | fldq (core : CoreId) (d a b : Reg)
  /-- FSTS (R110): Stores binary32 from Fd. -/
  | fsts (core : CoreId) (d a b : Reg)
  /-- FSTD (R110): Stores binary64 from Fd. -/
  | fstd (core : CoreId) (d a b : Reg)
  /-- FSTQ (R110): Stores binary128 from Fd. -/
  | fstq (core : CoreId) (d a b : Reg)
  /-- BR8 (R111): Branches by an 8-bit offset when the condition holds. -/
  | br8 (core : CoreId) (cond : BitVec 5) (off : BitVec 8)
  /-- BRZ (R110): Branches when a test of Ga holds. -/
  | brz (core : CoreId) (test : BitVec 5) (a : Reg) (off : BitVec 8)
  /-- TLBI (R101): Drops TLB entries for an address on every processor of the partition. -/
  | tlbi (core : CoreId) (a : Reg)
  /-- TLBIASID (R101): Drops TLB entries of an ASID on every processor of the partition. -/
  | tlbiasid (core : CoreId) (a : Reg)
  /-- TLBIALL (R101): Drops all TLB entries on every processor of the partition. -/
  | tlbiall (core : CoreId)
  /-- HTLBI (R101): Drops host-stage entries for an address on every processor of the module. -/
  | htlbi (core : CoreId) (a b : Reg)
  /-- HTLBIP (R101): Drops host-stage entries of a partition on every processor of the module. -/
  | htlbip (core : CoreId) (b : Reg)
  /-- FMA (R163): Fused multiply-add rounded once. -/
  | fma (core : CoreId) (fmt : FFmt) (d a b c : Reg) (neg : BitVec 2)
  /-- ADDI (R110): Gd receives Ga plus a 24-bit immediate. -/
  | addi (core : CoreId) (d a : Reg) (imm : BitVec 24)
  /-- ANDI (R110): Gd receives Ga AND a zero-extended immediate. -/
  | andi (core : CoreId) (d a : Reg) (imm : BitVec 24)
  /-- ORI (R110): Gd receives Ga OR a zero-extended immediate. -/
  | ori (core : CoreId) (d a : Reg) (imm : BitVec 24)
  /-- XORI (R110): Gd receives Ga XOR a zero-extended immediate. -/
  | xori (core : CoreId) (d a : Reg) (imm : BitVec 24)
  /-- CMPI (R112): Sets flags from Ga minus a 24-bit immediate. -/
  | cmpi (core : CoreId) (a : Reg) (imm : BitVec 24)
  /-- LD (R110): Loads at Ga plus a 24-bit immediate. -/
  | ld (core : CoreId) (d a : Reg) (minor : BitVec 3) (imm : BitVec 24)
  /-- ST (R110): Stores at Ga plus a 24-bit immediate. -/
  | st (core : CoreId) (d a : Reg) (minor : BitVec 2) (imm : BitVec 24)
  /-- FLD (R110): Floating load at Ga plus a 24-bit immediate. -/
  | fld (core : CoreId) (d a : Reg) (minor : BitVec 2) (imm : BitVec 24)
  /-- FST (R110): Floating store at Ga plus a 24-bit immediate. -/
  | fst (core : CoreId) (d a : Reg) (minor : BitVec 2) (imm : BitVec 24)
  /-- BR (R111): Branches by a 24-bit offset when the condition holds. -/
  | br (core : CoreId) (cond : BitVec 5) (off : BitVec 24)
  /-- CALL (R115): Pushes the return address and continues at PC plus 3 times imm24. -/
  | call (core : CoreId) (off : BitVec 24)
  /-- INSH (R110): Inserts a 16-bit immediate into Ga[63:48]. -/
  | insh (core : CoreId) (d a : Reg) (imm : BitVec 16)
  /-- ADDPC (R110): Gd receives PC plus 3 times imm24. -/
  | addpc (core : CoreId) (d : Reg) (imm : BitVec 24)
  /-- MOVI (R110): Gd receives a 48-bit immediate. -/
  | movi (core : CoreId) (d : Reg) (imm : BitVec 48)
  /-- ADDI48 (R110): Gd receives Ga plus a 48-bit immediate. -/
  | addi48 (core : CoreId) (d a : Reg) (imm : BitVec 48)
  /-- LDL (R110): Loads at Ga plus a 48-bit immediate. -/
  | ldl (core : CoreId) (d a : Reg) (minor : BitVec 3) (imm : BitVec 48)
  /-- STL (R110): Stores at Ga plus a 48-bit immediate. -/
  | stl (core : CoreId) (d a : Reg) (minor : BitVec 2) (imm : BitVec 48)
  /-- BRL (R111): Branches by a 48-bit offset when the condition holds. -/
  | brl (core : CoreId) (cond : BitVec 5) (off : BitVec 48)
  /-- CALLL (R115): Calls PC plus 3 times imm48. -/
  | calll (core : CoreId) (off : BitVec 48)
  /-- RESERVED_OPCODE (R108): An instruction that R110 reserves, by its parcels, is fetched whole and raises ILLEGAL. -/
  | reservedOpcode (core : CoreId) (p : Parcels)
  /-- INTERRUPT_ENTRY (R139): A pending enabled interrupt line is taken at an instruction boundary with exception entry. -/
  | interruptEntry (core : CoreId)
  /-- CLOCK_STOP_IDLE (R125): A pair waiting in WFE or WAITC for IDLE_DELAY stops its fast clock and schedules its WAITC wake. -/
  | clockStopIdle (core : CoreId)
  /-- WAITC_SCHEDULED_WAKE (R125): The scheduled wake of a stopped pair in WAITC fires at Ga less the wake latency. -/
  | waitcScheduledWake (core : CoreId)
  /-- WINDOW_CYCLE_LIMIT (R188): A signature window closes at the end of its 512th cycle. -/
  | windowCycleLimit (pair : PairId)
  /-- WINDOW_COMPARE (R191): Clove compares the leader's and shadow's signatures of a closed window six cycles after it closed. -/
  | windowCompare (pair : PairId) (rails : BitVec 2)
  /-- PAIR_RESTART_COMPLETE (R199): The restart sequence ends and the leader issues its first replayed instruction in cycle-compare mode. -/
  | pairRestartComplete (pair : PairId)
  /-- GATED_STORE_RELEASE (R195): Entries of committed windows are released to L2 two per cycle and freed on acceptance. -/
  | gatedStoreRelease (pair : PairId)
  /-- BUS_COMPARE_DIFFERENCE (R207): The bus comparator finds a difference in cycle-compare mode and the current window fails. -/
  | busCompareDifference (pair : PairId) (cycle : BitVec 16) (field : BitVec 4)
  /-- BUSCMP_SELF_TEST (R212): Every 2^20 core cycles the bus comparator tests itself with a forced difference. -/
  | buscmpSelfTest (pair : PairId) (reported : Bool)
  /-- DELAY_REGISTER_ERROR (R211): SECDED on a delay register corrects an error or fails the current window. -/
  | delayRegisterError (pair : PairId) (correctable : Bool)
  /-- CHECKPOINT_ARRAY_ERROR (R211): SECDED on the checkpoint array corrects, re-copies or faults the pair. -/
  | checkpointArrayError (pair : PairId) (correctable : Bool)
  /-- SPLIT (R231): Splits a checked pair so the shadow runs a new context from a state area. -/
  | split (pk : Pkt)
  /-- SPLIT_COMPLETE (R231): The shadow runs its new context and the SPLIT completion is posted. -/
  | splitComplete (pair : PairId)
  /-- JOIN (R232): Saves the shadow's state and rejoins the pair as checked. -/
  | join (pk : Pkt)
  /-- JOIN_COMPLETE (R232): The pair runs checked again and the JOIN completion is posted. -/
  | joinComplete (pair : PairId)
  /-- SPARE (R236): Moves a pair's work or retained checkpoint to the die's spare. -/
  | spare (pk : Pkt)
  /-- SPARE_HANDOVER (R233): Vixia moves a hard-failed pair's work to the spare, which resumes within 40 µs. -/
  | spareHandover (pair : PairId)
  /-- INJECT (R228): Injects a signature difference or a delay-register error into a pair. -/
  | inject (pk : Pkt)
  /-- CLEAN_RANGE (R268): Writes back every dirty line of a range and keeps it valid. -/
  | cleanRange (pk : Pkt)
  /-- FLUSH_RANGE (R268): Writes back and invalidates every line of a range. -/
  | flushRange (pk : Pkt)
  /-- INVAL_RANGE (R268): Invalidates every line of a range, discarding dirty data. -/
  | invalRange (pk : Pkt)
  /-- RANGE_OP_COMPLETE (R270): A range operation finishes its walk and write-backs and posts its completion with counts. -/
  | rangeOpComplete (job : Nat)
  /-- LOCK_WAYS (R265): Locks shared-cache ways to an owner and range, optionally preloading it. -/
  | lockWays (pk : Pkt)
  /-- LOCK_WAYS_COMPLETE (R265): The lock is in force and any preload is done; DONE is posted. -/
  | lockWaysComplete (job : Nat)
  /-- UNLOCK_WAYS (R260): Returns named ways to ordinary replacement. -/
  | unlockWays (pk : Pkt)
  /-- REGION_SET (R256): Writes a region attribute table entry, treating the ranges as WT with no allocation until done. -/
  | regionSet (pk : Pkt)
  /-- REGION_SET_COMPLETE (R256): Cleaning and invalidation end and the new attributes take effect. -/
  | regionSetComplete (job : Nat)
  /-- WAYS_OFF (R261): Cleans and power-gates named way groups of the addressed slices. -/
  | waysOff (pk : Pkt)
  /-- WAYS_OFF_COMPLETE (R261): The last write-back is acknowledged and the group is power-gated. -/
  | waysOffComplete (job : Nat)
  /-- WAYS_ON (R262): Powers named way groups on. -/
  | waysOn (pk : Pkt)
  /-- WAYS_ON_COMPLETE (R262): A powered group becomes eligible and empty after its wake latency. -/
  | waysOnComplete (job : Nat)
  /-- CACHE_DISABLE (R273): Disables a pair's L1s or L2, cleaning dirty lines at a window boundary. -/
  | cacheDisable (pk : Pkt)
  /-- CACHE_DISABLE_COMPLETE (R273): The L2 clean ends and its state becomes DISABLED. -/
  | cacheDisableComplete (job : Nat)
  /-- CACHE_ENABLE (R273): Re-enables a pair's caches. -/
  | cacheEnable (pk : Pkt)
  /-- PREFETCH_SET (R263): Enables or disables stride prefetch and sets PF_DIST. -/
  | prefetchSet (pk : Pkt)
  /-- STRIDE_PREFETCH (R247): A trained L2 stride slot requests lines ahead of a load. -/
  | stridePrefetch (pair : PairId) (key : BitVec 48)
  /-- DMA_STREAM_PREFETCH (R249): A slice stride slot reads lines ahead of a mover or engine stream. -/
  | dmaStreamPrefetch (slice : Fin 4) (requester : Nat) (page : Nat)
  /-- SLICE_DRAIN_COMPLETE (R272): A STOPPED-bound slice finishes cleaning and reaches STOPPED with an empty data array. -/
  | sliceDrainComplete (slice : Fin 4)
  /-- CHANNEL_LINK_RETRY (R281): An access failing write CRC or CA parity is retried up to 8 times, then the channel faults. -/
  | channelLinkRetry (ch : Fin 24) (passed : Bool)
  /-- PATROL_SCRUB (R296): The controller reads each block once per scrub period, writing back corrections or poison. -/
  | patrolScrub (ch : Fin 24) (line : Nat) (errs : List BlockErr)
  /-- CHANNEL_FAULT (R301): A channel becomes FAULTED, degrading its redundant group or poisoning its lines. -/
  | channelFault (ch : Fin 24)
  /-- CHANNEL_REBUILD_COMPLETE (R302): A restarted channel finishes its rebuild or poison fill and its START completes. -/
  | channelRebuildComplete (ch : Fin 24)
  /-- GRANULE_KEY (R306): Flushes a granule, sets its key and zeroes it under the new key. -/
  | granuleKey (pk : Pkt)
  /-- GRANULE_KEY_COMPLETE (R306): Zeroing under the new key ends and DONE is posted. -/
  | granuleKeyComplete (job : Nat)
  /-- KEY_RENEW (R307): Replaces an unused partition key with a fresh one. -/
  | keyRenew (pk : Pkt)
  /-- ZERO_RANGE (R329): Invalidates a range in every cache and writes it to zero. -/
  | zeroRange (pk : Pkt)
  /-- ZERO_RANGE_COMPLETE (R329): Zeroing of the range ends and DONE is posted. -/
  | zeroRangeComplete (job : Nat)
  /-- TIER_SET (R330): Defines a tier region and writes its store and descriptor table. -/
  | tierSet (pk : Pkt)
  /-- TIER_SET_COMPLETE (R330): Initialisation ends and the region is enabled with an empty pool. -/
  | tierSetComplete (job : Nat)
  /-- TIER_CLEAR (R332): Invalidates a region's window, releases its pool and disables it. -/
  | tierClear (pk : Pkt)
  /-- POOL_ADD (R331): Zeroes a pool range's bitmap and adds it to a region's pool. -/
  | poolAdd (pk : Pkt)
  /-- POOL_REMOVE (R333): Removes an unused pool range from a region. -/
  | poolRemove (pk : Pkt)
  /-- TIER_THRESH (R323): Sets a region's pressure thresholds. -/
  | tierThresh (pk : Pkt)
  /-- SCRUB_SET (R328): Sets the scrub period and DEV_LIMIT. -/
  | scrubSet (pk : Pkt)
  /-- TIER_WRITE_BACK (R320): A write-back to a tier line is coded into its slot or placed in the pool, allocating or releasing frames. -/
  | tierWriteBack (region : Fin 16) (line : Nat)
  /-- PINNED_LINE_RETRY (R327): When frames become free the allocator writes pinned lines in pin order. -/
  | pinnedLineRetry (region : Fin 16)
  /-- START_IO (R344): Checks and accepts a transfer program start on a context, creating its journal entry. -/
  | startIo (pk : Pkt)
  /-- RESUME (R384): Releases a HALTED context to its next queued start or IDLE. -/
  | resume (pk : Pkt)
  /-- CANCEL (R384): Cancels every queued start of a context. -/
  | cancel (pk : Pkt)
  /-- TRANSFER_ENTRY (R351): A channel processor executes the next transfer command entry of an active program. -/
  | transferEntry (ctx : CtxId)
  /-- IO_COMPLETION (R348): Once data is visible, CRCs written and sends acknowledged, the completion of a start is posted. -/
  | ioCompletion (ctx : CtxId)
  /-- CP_TAKEOVER (R366): The sibling channel processor takes over a failed one's contexts within 20 µs. -/
  | cpTakeover (cp : Fin 4)
  /-- MOVER_GRANT (R368): A free mover is granted to the oldest staging or MOVE request in priority order. -/
  | moverGrant (d : Fin 2)
  /-- INBOUND_DRAIN_END (R370): A drain reaches LOW or zero and its mover is released. -/
  | inboundDrainEnd (port : PortId)
  /-- TAIL_TIMER_EXPIRY (R371): An inbound queue's tail timer expires and requests a drain to zero. -/
  | tailTimerExpiry (port : PortId)
  /-- OUTBOUND_FILL (R373): An outbound queue at LOW requests a mover to stage bytes up to HIGH. -/
  | outboundFill (port : PortId)
  /-- STAGE_SET (R375): Sets a port's staging HIGH, LOW and TAIL. -/
  | stageSet (pk : Pkt)
  /-- MOVER_SET (R375): Sets the MOVE_MAX of an I/O die. -/
  | moverSet (pk : Pkt)
  /-- MOVE (R377): Copies memory segment by segment with one mover. -/
  | move (pk : Pkt)
  /-- MOVE_COMPLETE (R378): A MOVE ends and its completion is posted with its progress. -/
  | moveComplete (job : Nat)
  /-- BUS_ERROR_RETRY (R380): An access answered with a bus error is retried up to BUS_RETRY times, then halts the operation. -/
  | busErrorRetry (mover : Fin 64) (pa : Nat) (unit : Nat) (times : Nat)
  /-- MOVER_FAULT (R383): A failed mover's request passes to another mover from the acknowledged progress. -/
  | moverFault (mover : Fin 64)
  /-- DEADLINE_CUTOFF (R397): At a timed start's cutoff tick without its ending status, the journal posts a late completion. -/
  | deadlineCutoff (entry : EntryId)
  /-- LATE_LIMIT_EXPIRY (R401): A LATE_OPEN or queued start not ended by its late limit is ABANDONED. -/
  | lateLimitExpiry (entry : EntryId)
  /-- PATH_FAILURE (R403): The path in use fails, the staging queue drains and the next usable path is chosen. -/
  | pathFailure (ctx : CtxId)
  /-- REDRIVE_SEND (R404): The operation is re-driven on the chosen path from its progress point under its SEQ. -/
  | redriveSend (ctx : CtxId)
  /-- PATH_RETURN (R406): A port of a waiting operation's path group returns to service and the operation is re-driven. -/
  | pathReturn (ctx : CtxId) (port : PortId)
  /-- JOURNAL_ENTRY_UE (R409): An uncorrectable journal entry error is repaired from another copy, rebuilt or retired. -/
  | journalEntryUe (copy : Fin 2) (entry : EntryId)
  /-- JOURNAL_REBUILD_COMPLETE (R395): A reset journal copy finishes rebuilding from the copy in service. -/
  | journalRebuildComplete (copy : Fin 2)
  /-- JOURNAL_READ (R428): Returns a 32-byte journal entry, from the bundle copy with MIRROR. -/
  | journalRead (pk : Pkt)
  /-- LATE_ACK (R428): Acknowledges a LATE_ENDED entry, allowing its retirement. -/
  | lateAck (pk : Pkt)
  /-- JOURNAL_LIST (R428): Lists journal entries of chosen states from a first entry. -/
  | journalList (pk : Pkt)
  /-- JOURNAL_MIRROR (R412): Starts or stops mirroring a context range's journal to a bundle partner. -/
  | journalMirror (pk : Pkt)
  /-- JOURNAL_MIRROR_COMPLETE (R428): The bundle copy holds every open entry of the range and DONE is posted. -/
  | journalMirrorComplete
  /-- JOURNAL_TAKEOVER (R413): The partner module resolves every open entry of a failed home module through its standby contexts. -/
  | journalTakeover (home : Word)
  /-- BIND (R417): Binds a context range to a deadline class after the admission test passes. -/
  | bind (pk : Pkt)
  /-- UNBIND (R419): Unbinds a stopped context range and releases holds and movers. -/
  | unbind (pk : Pkt)
  /-- EVENT_PUSH (R437): A source pushes an item into its routed queue, or keeps it while the queue is full or unavailable. -/
  | eventPush (source : SourceId)
  /-- QUEUE_RESET (R455): A queue discards its items and pending slots, sets RESET_SEEN and its sources present their events again. -/
  | queueReset (q : Fin 1024)
  /-- QUEUE_POINTER_FAULT (R454): A pointer mismatch or uncorrectable item error resets the queue and reports a level 1 fault. -/
  | queuePointerFault (q : Fin 1024) (itemUe : Bool)
  /-- STALE_TIMER_EXPIRY (R452): A queue's staleness timer expires with a ready item and STALE is set. -/
  | staleTimerExpiry (q : Fin 1024)
  /-- TIMER_EXPIRY (R457): A timer compare unit expires, records an event and advances or disarms COMPARE. -/
  | timerExpiry (unit : Fin 64)
  /-- ROUTE_SET (R444): Routes an event source to a queue of its partition with a priority and enable. -/
  | routeSet (pk : Pkt)
  /-- QUEUE_TUNE (R451): Sets a queue's THRESH, STALE_T and NOTICE_ON from the next tick. -/
  | queueTune (pk : Pkt)
  /-- TIMER_SET (R456): Writes a timer compare unit's COMPARE and PERIOD. -/
  | timerSet (pk : Pkt)
  /-- SOURCE_QUERY (R462): Returns a source's SRC_ROUTE word. -/
  | sourceQuery (pk : Pkt)
  /-- ASSIGN (R481): Gives a range of resources to a partition, zeroing and rekeying memory granules. -/
  | assign (pk : Pkt)
  /-- REVOKE (R481): Takes a range of resources back from a partition. -/
  | revoke (pk : Pkt)
  /-- ASSIGN_REVOKE_COMPLETE (R470): Every granule named by ASSIGN or REVOKE has been treated and DONE is posted. -/
  | assignRevokeComplete (job : Nat)
  /-- SHARE_SET (R484): Sets a queue capacity, port or engine weight, or engine depth of a partition. -/
  | shareSet (pk : Pkt)
  /-- SHARE_SET_COMPLETE (R484): The backlog first fits the new share and the pending SHARE_SET completes. -/
  | shareSetComplete (job : Nat)
  /-- MBOX_BELL_T_EVENT (R488): Records a doorbell toward the tenant on source 0x800 plus 2n. -/
  | mboxBellTEvent (n : Fin 64)
  /-- MBOX_BELL_T_SEV (R488): Sets EV in every processor of the tenant partition. -/
  | mboxBellTSev (n : Fin 64)
  /-- MBOX_BELL_M_EVENT (R488): Records a doorbell toward the manager on source 0x801 plus 2n. -/
  | mboxBellMEvent (n : Fin 64)
  /-- MBOX_BELL_M_SEV (R488): Sets EV in the partition 0 processors named in MGR_PROCS. -/
  | mboxBellMSev (n : Fin 64)
  /-- COMPRESS (R513): Compresses input into a zlib, gzip or raw DEFLATE stream. -/
  | compress (pk : Pkt)
  /-- DECOMPRESS (R514): Decompresses a stream, checking its trailer and any output limit. -/
  | decompress (pk : Pkt)
  /-- CIPHER (R521): Encrypts or decrypts with AES-GCM, XTS or CBC. -/
  | cipher (pk : Pkt)
  /-- DIGEST (R521): Computes a SHA or HMAC digest. -/
  | digest (pk : Pkt)
  /-- RSA (R521): Performs an RSA private or public primitive. -/
  | rsa (pk : Pkt)
  /-- ECDSA_SIGN (R523): Signs a digest with ECDSA and an RFC 6979 nonce. -/
  | ecdsaSign (pk : Pkt)
  /-- ECDSA_VERIFY (R522): Verifies an ECDSA signature. -/
  | ecdsaVerify (pk : Pkt)
  /-- RANDOM (R529): Returns DRBG output. -/
  | random (pk : Pkt)
  /-- KEY_LOAD (R525): Loads key material into the lowest free slot of its kind. -/
  | keyLoad (pk : Pkt)
  /-- KEY_GEN (R526): Generates a key into a slot from the DRBG. -/
  | keyGen (pk : Pkt)
  /-- KEY_CLEAR (R527): Zeroes and frees a key slot once requests naming it complete. -/
  | keyClear (pk : Pkt)
  /-- ENGINE_COMPLETION (R497): An engine request ends and its completion with results is posted. -/
  | engineCompletion (e : Fin 8)
  /-- ENTROPY_TEST_FAIL (R530): A continuous entropy test fails, setting ENTROPY_FAIL and a level 2 fault. -/
  | entropyTestFail (e : Fin 4)
  /-- OP (R549): A received OP frame starts, resumes or repeats a device operation at the partner. -/
  | op (port : PortId) (f : Frame)
  /-- DATA (R551): A received DATA frame is accepted at the receive point and staged, or discarded. -/
  | data (port : PortId) (f : Frame)
  /-- END (R545): A received END frame gives the ending status of a device operation. -/
  | end_ (port : PortId) (f : Frame)
  /-- ACK (R551): A received ACK acknowledges sequenced frames cumulatively and returns credits. -/
  | ack (port : PortId) (f : Frame)
  /-- NAK (R552): A received NAK makes the sender resend every unacknowledged frame. -/
  | nak (port : PortId) (f : Frame)
  /-- RESOLVE (R549): A received RESOLVE asks whether an operation SEQ was executed. -/
  | resolve (port : PortId) (f : Frame)
  /-- RESOLVED (R413): A received RESOLVED gives the takeover outcome of an entry. -/
  | resolved (port : PortId) (f : Frame)
  /-- SYNC (R549): A received SYNC asks the partner for its HIGH of the conversation. -/
  | sync (port : PortId) (f : Frame)
  /-- SYNCED (R548): A received SYNCED sets where the context starts its new sequence numbers. -/
  | synced (port : PortId) (f : Frame)
  /-- ABORT (R549): A received ABORT stops the operation, which answers with END. -/
  | abort (port : PortId) (f : Frame)
  /-- HELLO (R556): A received HELLO of version 0x01 brings the link UP, or another version takes it DOWN. -/
  | hello (port : PortId) (h : LinkMsg)
  /-- KEEPALIVE (R557): A received KEEPALIVE keeps the link UP. -/
  | keepalive (port : PortId)
  /-- QUIET_REQ (R556): A received QUIET_REQ is answered to let the link enter QUIET. -/
  | quietReq (port : PortId)
  /-- QUIET_ACK (R556): A received QUIET_ACK takes the link into QUIET after a QUIET block. -/
  | quietAck (port : PortId)
  /-- LOOP_REQ (R566): A received LOOP_REQ starts a far-end loop. -/
  | loopReq (port : PortId)
  /-- LOOP_ACK (R566): A received LOOP_ACK confirms a far-end loop. -/
  | loopAck (port : PortId)
  /-- LOOP_END (R566): A received LOOP_END ends a far-end loop. -/
  | loopEnd (port : PortId)
  /-- RTO_EXPIRY (R552): The oldest unacknowledged frame waits RTO ticks and every unacknowledged frame is resent, or retransmission is exhausted. -/
  | rtoExpiry (conv : Nat)
  /-- KEEPALIVE_TIMER (R557): A side that has sent nothing for 1,000 ticks sends a KEEPALIVE. -/
  | keepaliveTimer (port : PortId)
  /-- LINK_RX_TIMEOUT (R556): No frame received for 10,000 ticks takes the link DOWN and out of service. -/
  | linkRxTimeout (port : PortId)
  /-- TRAINING_COMPLETE (R556): Transmit equalisation is agreed and the link enters ALIGN. -/
  | trainingComplete (port : PortId)
  /-- TRAINING_TIMEOUT (R556): Training fails within 100 ms and the link goes DOWN, retraining after 10 ms. -/
  | trainingTimeout (port : PortId)
  /-- CODEWORD_LOCK (R539): The receiver reaches codeword lock after three ALIGN blocks. -/
  | codewordLock (x : LaneInput)
  /-- ALIGN_TIMEOUT (R556): No codeword lock within 1 ms returns the link to TRAINING. -/
  | alignTimeout (port : PortId)
  /-- CODEWORD_LOCK_LOSS (R556): Loss of codeword lock takes an UP link DOWN. -/
  | codewordLockLoss (port : PortId)
  /-- FEC_UNCORRECTABLE (R541): An uncorrectable codeword discards every frame with a byte in it. -/
  | fecUncorrectable (port : PortId) (frames : List Frame)
  /-- ETH_SEND (R560): Sends an Ethernet frame from memory. -/
  | ethSend (pk : Pkt)
  /-- ETH_RECV (R561): Posts a receive buffer for an Ethernet frame. -/
  | ethRecv (pk : Pkt)
  /-- ETHERNET_FRAME_RECEIVE (R561): A received Ethernet frame completes the oldest ETH_RECV or is dropped and counted. -/
  | ethernetFrameReceive (port : PortId) (frame : Bytes) (fcs : BitVec 32)
  /-- MSI_WRITE (R565): An endpoint write to the MSI offset latches a vector. -/
  | msiWrite (port : PortId) (data : BitVec 32)
  /-- MSI_WAIT (R565): Waits until a masked MSI vector is latched and returns and clears them. -/
  | msiWait (pk : Pkt)
  /-- ENDPOINT_REQUEST (R564): An endpoint memory request is translated, checked and carried by the movers, or refused. -/
  | endpointRequest (port : PortId) (write : Bool) (addr : Word) (len : Nat) (data : Bytes)
  /-- LOOP_TEST (R567): Runs a PRBS31 loop test on a stopped port, channel or bridge. -/
  | loopTest (pk : Pkt)
  /-- LOOP_TEST_COMPLETE (R567): The loop test duration ends and words and errors are reported. -/
  | loopTestComplete (cell : Nat) (words errors : Word)
  /-- MANIFEST_SEND (R580): A member sends its manifest at start, on change and at least every LIVENESS_T. -/
  | manifestSend
  /-- MANIFEST_RECEIVE (R582): The coordinator judges a received manifest for admission, refusal or fencing. -/
  | manifestReceive (m : Fin 16) (bytes : Bytes)
  /-- TB_MEASUREMENT (R584): Every 1 ms a member measures its timebase offset, slewing, fencing or unfencing. -/
  | tbMeasurement (t1 t2 t3 t4 : Int)
  /-- MEMBER_DECLARED_FAILED (R587): A member unheard by a quorum for LIVENESS_T is declared failed, starting takeover. -/
  | memberDeclaredFailed (m : Fin 16)
  /-- QUORUM_LOSS (R587): A member that has heard from no quorum for LIVENESS_T fences itself. -/
  | quorumLoss
  /-- EVENT_SEND (R590): Delivers a value to a cross-member channel of named members. -/
  | eventSend (pk : Pkt)
  /-- UNFENCE (R591): Removes the FENCE reason from a member. -/
  | unfence (pk : Pkt)
  /-- MANIFEST_READ (R591): Returns the last manifest received from a member. -/
  | manifestRead (pk : Pkt)
  /-- FAULT_RECORD (R601): Tansy records a reporter's fault at its escalated level and reacts with items, ERR_N and logs. -/
  | faultRecord (r : FaultReport)
  /-- BLOCK_SNAPSHOT (R597): A reporter block sends a snapshot of its 512 reporters every 64 ticks. -/
  | blockSnapshot (b : Fin 2) (faults : List (Fin 512))
  /-- BLOCK_LINK_LOST (R599): Two missed snapshots declare a block's link lost and raise its internal reporter. -/
  | blockLinkLost (b : Fin 2)
  /-- BROKEN_PATH_CLEAR (R598): A broken reporter clears BROKEN after 1,000 consecutive idle samples. -/
  | brokenPathClear (r : RepId)
  /-- QUIET_TIMER_EXPIRY (R603): A reporter's quiet timer expires, clearing ACTIVE and ESC and counting a recovery. -/
  | quietTimerExpiry (r : RepId)
  /-- ERR_PULSE_END (R611): The ERR_N pulse ends and the pin follows ERR_LATCH. -/
  | errPulseEnd
  /-- FAULT_ACK (R602): Sets ESC of a reporter range to 0. -/
  | faultAck (pk : Pkt)
  /-- FAULT_SET (R603): Sets a reporter's QUIET period. -/
  | faultSet (pk : Pkt)
  /-- ERR_CLEAR (R612): Clears ERR_LATCH so ERR_N rises after the pulse. -/
  | errClear (pk : Pkt)
  /-- TANSY_STATUS_WRITE (R612): A W1C write to TANSY_STATUS clears ERR_LATCH and LEVEL_SEEN bits. -/
  | tansyStatusWrite (v : Word)
  /-- FAULT_INJECT (R614): Places a fault or bad pair value at a reporter's block input. -/
  | faultInject (pk : Pkt)
  /-- FAULT_READ (R613): Returns a reporter's FLT_CFG and FLT_STAT. -/
  | faultRead (pk : Pkt)
  /-- MC_POLICY (R610): Sets MC_HALT. -/
  | mcPolicy (pk : Pkt)
  /-- SENSOR_SAMPLE (R620): The sensor hub samples a sensor and records crossings and returns against its thresholds. -/
  | sensorSample (source : SourceId) (reading : BitVec 32)
  /-- PERSISTENT_LOG_WRITE (R624): Vixia writes buffered log records to SPI flash within 100 ms. -/
  | persistentLogWrite
  /-- MCTP_MESSAGE (R627): Vixia answers an MCTP control, PLDM or SPDM message. -/
  | mctpMessage (kind : BitVec 8) (body : Bytes)
  /-- GET_MEASUREMENTS (R633): SPDM request returning the measurement log values. -/
  | getMeasurements (index : BitVec 8)
  /-- PLDM_UPDATE_COMPONENT (R635): A PLDM update writes a component into the slot that is not running. -/
  | pldmUpdateComponent (kind : BitVec 8) (image : Bytes)
  /-- UPDATE_ACTIVATE (R635): Validates the updated slot and sets it preferred on trial, applying revocation orders. -/
  | updateActivate
  /-- RECOVERY_IMAGE (R631): In recovery a stage-1 image received over UART is validated and started. -/
  | recoveryImage (bytes : Bytes)
  /-- BOOT_ROM_START (R631): The boot ROM reads the boot record, chooses a slot and starts a valid stage-1. -/
  | bootRomStart
  /-- POWER_UP (R637): From PWR_OK the module runs the power-up steps to READY. -/
  | powerUp (step : Nat) (env : BootEnv)
  /-- POWER_UP_TIMEOUT (R638): A step fails or step 8 has not ended by 10 s; READY is withheld and a fault recorded. -/
  | powerUpTimeout
  /-- PG_IO_RISE (R647): PG_IO rises and the I/O die rails are good. -/
  | pgIoRise
  /-- PG_CMP_RISE (R647): PG_CMP rises and the compute die rails are good. -/
  | pgCmpRise
  /-- POWER_GOOD_TIMEOUT (R648): PG_IO or PG_CMP has not risen 20 ms after its enable; the step fails. -/
  | powerGoodTimeout (cmp : Bool)
  /-- POWER_GOOD_LOSS (R648): PG_IO or PG_CMP falls, the enable drops and the supplied cells fault. -/
  | powerGoodLoss (cmp : Bool)
  /-- PWR_OK_RISE (R647): PWR_OK rises; VID becomes valid and Tansy runs. -/
  | pwrOkRise
  /-- PWR_OK_FALL (R651): PWR_OK low for 2 ticks resets every cell, clears the timebase and sets outputs to their low-power states. -/
  | pwrOkFall
  /-- SENSOR_SET (R640): Sets a sensor's HIGH and LOW thresholds. -/
  | sensorSet (pk : Pkt)
  /-- LOG_READ (R640): Returns ring or persistent log records from a SEQ. -/
  | logRead (pk : Pkt)
  /-- TB_LOAD (R17): Loads the timebase once before step 5 of power-up, else PHASE_CLOSED. -/
  | tbLoad (pk : Pkt)
  /-- HBCLK_SELECT (R23): Returns the heartbeat domain from the backup oscillator to HBCLK. -/
  | hbclkSelect (pk : Pkt)
  /-- UPDATE_COMMIT (R636): Clears TRIAL and optionally blows SVN fuses. -/
  | updateCommit (pk : Pkt)
  /-- UPDATE_COMMIT_COMPLETE (R636): The SVN fuses are blown and DONE is posted. -/
  | updateCommitComplete
  /-- MEASURE_READ (R633): Returns the eight measurement records. -/
  | measureRead (pk : Pkt)
  /-- SAMPLE_PRELOAD (R657): JTAG SAMPLE/PRELOAD instruction. -/
  | samplePreload (pinsIn : Bytes)
  /-- IDCODE (R656): JTAG IDCODE instruction returning 0x0249_60F3. -/
  | idcode
  /-- BYPASS (R657): JTAG BYPASS instruction. -/
  | bypass
  /-- EXTEST (R657): JTAG EXTEST, effective only before step 4 while READY is low. -/
  | extest (boundary : Bytes)
  /-- EXTEST_PULSE (R657): JTAG 1149.6 EXTEST_PULSE, effective only before step 4. -/
  | extestPulse (boundary : Bytes)
  /-- EXTEST_TRAIN (R657): JTAG 1149.6 EXTEST_TRAIN, effective only before step 4. -/
  | extestTrain (boundary : Bytes)
  /-- HEARTBEAT_TICK (R16): On each ordinary heartbeat tick the heartbeat domain advances the timebase by 10. -/
  | heartbeatTick
  /-- POOL_ADD_COMPLETE (R331): The bitmap frames of a new pool range have been zeroed, DONE is posted and the range joins the region's pool. -/
  | poolAddComplete (job : Nat)
  /-- TIER_CLEAR_COMPLETE (R332): Invalidation of a region's window and release of its pool end, the region is disabled and DONE is posted. -/
  | tierClearComplete (job : Nat)
  /-- ETH_SEND_COMPLETE (R560): The last byte of an Ethernet frame has been sent and ETH_SEND completes DONE. -/
  | ethSendComplete (port : PortId)
  /-- PARTNER_WAKE_SIGNAL (R556): A wake signal from the Knangefa partner, or an L1 exit from a PCI Express endpoint, takes a quiet port group back toward UP. -/
  | partnerWakeSignal (port : PortId)
  /-- PORT_LINK_UP (R559): An Ethernet port or PCI Express root port completes its link training and its link comes up. -/
  | portLinkUp (port : PortId) (width rate : Nat) (flit : Bool)
  /-- PORT_LINK_DOWN (R568): The link of an Ethernet port or PCI Express root port is lost and the port leaves service. -/
  | portLinkDown (port : PortId)
  /-- REPORTER_GLITCH (R596): A reporter pair shows 00 or 11 in a single sample, which is ignored and sets GLITCH_SEEN. -/
  | reporterGlitch (r : RepId) (value : BitVec 2)
  deriving DecidableEq, Repr

end Sys2Proof
end

