-- ==== Sys2Proof/Decode.lean ====
section
/-! DEFINITION. The encoding of the Miulo instructions (R106 to R110): the command that an instruction's parcels spell. The
rows of the opcode table give no bits of their own, so that the words which `decodeTableWord` reads are the instructions of
R110, as core 0 runs them (log entry 1). -/

namespace Sys2Proof

/-! ### Parcels and their fields (R106, R107) -/

/-- A parcel of 24 bits from its 3 bytes, big-endian (R106). -/
def parcelOf (b0 b1 b2 : BitVec 8) : BitVec 24 := b0 ++ b1 ++ b2

/-- The major opcode. -/
def opOf (p : BitVec 24) : Nat := (p.extractLsb' 18 6).toNat

/-- The fields d, a and b, the minor and ext of parcel 0. -/
def dOf (p : BitVec 24) : Reg := p.extractLsb' 13 5
def aOf (p : BitVec 24) : Reg := p.extractLsb' 8 5
def bOf (p : BitVec 24) : Reg := p.extractLsb' 3 5
def minorOf (p : BitVec 24) : Nat := (p.extractLsb' 0 3).toNat
def extOf (p : BitVec 24) : BitVec 8 := p.extractLsb' 0 8

/-- The parcels of a major opcode: its top two bits (R106). -/
def parcels (major : Nat) : Nat := if major < 0x20 then 1 else if major < 0x30 then 2 else 3

/-- What a table of R110 gives where fields that are not used are zero, and nothing where one is not (R108). -/
def whenZero (zero : Bool) (i : Option Instr) : Option Instr := if zero then i else none

/-! ### The majors of one parcel (R110) -/

/-- Majors 0x01 and 0x02. -/
def spelledAlu (c : CoreId) (major : Nat) (p : BitVec 24) : Option Instr :=
  let d := dOf p
  let a := aOf p
  let b := bOf p
  match major, minorOf p with
  | 1, 0 => some (.add c d a b) | 1, 1 => some (.sub c d a b) | 1, 2 => some (.and c d a b) | 1, 3 => some (.or c d a b)
  | 1, 4 => some (.xor c d a b) | 1, 5 => some (.andn c d a b) | 1, 6 => some (.addc c d a b) | 1, 7 => some (.subb c d a b)
  | 2, 0 => some (.sll c d a b) | 2, 1 => some (.srl c d a b) | 2, 2 => some (.sra c d a b) | 2, 3 => some (.ror c d a b)
  | 2, 4 => some (.slt c d a b) | 2, 5 => some (.sltu c d a b)
  | 2, 6 => whenZero (d == 0) (some (.cmp c a b)) | 2, 7 => whenZero (d == 0) (some (.tst c a b))
  | _, _ => none

/-- Majors 0x06 and 0x07. -/
def spelledMul (c : CoreId) (major : Nat) (p : BitVec 24) : Option Instr :=
  let d := dOf p
  let a := aOf p
  let b := bOf p
  match major, minorOf p with
  | 6, 0 => whenZero (d == 0) (some (.mul c a b)) | 6, 1 => whenZero (d == 0) (some (.mulu c a b))
  | 6, 2 => whenZero (d == 0) (some (.div c a b)) | 6, 3 => whenZero (d == 0) (some (.divu c a b))
  | 6, 4 => whenZero (a == 0 && b == 0) (some (.mfph c d)) | 6, 5 => whenZero (a == 0 && b == 0) (some (.mfpl c d))
  | 6, 6 => whenZero (d == 0 && b == 0) (some (.mtph c a)) | 6, 7 => whenZero (d == 0 && b == 0) (some (.mtpl c a))
  | 7, 0 => whenZero (b == 0) (some (.clz c d a)) | 7, 1 => whenZero (b == 0) (some (.ctz c d a))
  | 7, 2 => whenZero (b == 0) (some (.popc c d a)) | 7, 3 => whenZero (b == 0) (some (.bswap c d a))
  | 7, 4 => whenZero (b == 0) (some (.sextb c d a)) | 7, 5 => whenZero (b == 0) (some (.sexth c d a))
  | 7, 6 => whenZero (b == 0) (some (.sextw c d a)) | 7, 7 => whenZero (b == 0) (some (.zextw c d a))
  | _, _ => none

/-- Majors 0x08, 0x09 and 0x0C. -/
def spelledMem (c : CoreId) (major : Nat) (p : BitVec 24) : Option Instr :=
  let d := dOf p
  let a := aOf p
  let b := bOf p
  match major, minorOf p with
  | 8, 0 => some (.ldb c d a b) | 8, 1 => some (.ldh c d a b) | 8, 2 => some (.ldw c d a b) | 8, 3 => some (.ldd c d a b)
  | 8, 4 => some (.ldbs c d a b) | 8, 5 => some (.ldhs c d a b) | 8, 6 => some (.ldws c d a b)
  | 9, 0 => some (.stb c d a b) | 9, 1 => some (.sth c d a b) | 9, 2 => some (.stw c d a b) | 9, 3 => some (.std c d a b)
  | 12, 0 => some (.swap c d a b) | 12, 1 => some (.cas c d a b) | 12, 2 => some (.faddAtomic c d a b)
  | 12, 3 => some (.fand c d a b) | 12, 4 => some (.for_ c d a b) | 12, 5 => some (.fxor c d a b)
  | _, _ => none

/-- Majors 0x0E and 0x1C. -/
def spelledCtl (c : CoreId) (major : Nat) (p : BitVec 24) : Option Instr :=
  let d := dOf p
  let a := aOf p
  let b := bOf p
  match major, minorOf p with
  | 14, 0 => whenZero (d == 0 && b == 0) (some (.jmpr c a)) | 14, 1 => whenZero (d == 0 && b == 0) (some (.callr c a))
  | 14, 2 => whenZero (d == 0 && a == 0 && b == 0) (some (.ret c)) | 14, 3 => whenZero (d == 0) (some (.sevt c a b))
  | 14, 4 => whenZero (b == 0) (some (.waitc c d a)) | 14, 5 => whenZero (d == 0 && a == 0 && b == 0) (some (.eret c))
  | 28, 0 => whenZero (d == 0 && b == 0) (some (.tlbi c a)) | 28, 1 => whenZero (d == 0 && b == 0) (some (.tlbiasid c a))
  | 28, 2 => whenZero (d == 0 && a == 0 && b == 0) (some (.tlbiall c)) | 28, 3 => whenZero (d == 0) (some (.htlbi c a b))
  | 28, 4 => whenZero (d == 0 && a == 0) (some (.htlbip c b))
  | _, _ => none

/-- Major 0x0F, by ext. -/
def spelledSys (c : CoreId) (p : BitVec 24) : Option Instr :=
  let d := dOf p
  let a := aOf p
  match (extOf p).toNat with
  | 0 => whenZero (d == 0 && a == 0) (some (.wfe c)) | 1 => whenZero (d == 0 && a == 0) (some (.sev c))
  | 2 => whenZero (d == 0 && a == 0) (some (.syscall c)) | 3 => whenZero (d == 0 && a == 0) (some (.hostcall c))
  | 4 => whenZero (d == 0 && a == 0) (some (.break_ c)) | 5 => whenZero (a == 0) (some (.rdtb c d))
  | 6 => whenZero (a == 0) (some (.mfps c d)) | 7 => whenZero (d == 0) (some (.mtps c a))
  | 8 => whenZero (d == 0 && a == 0) (some (.fence c)) | 9 => whenZero (d == 0 && a == 0) (some (.fenceI c))
  | _ => none

/-- The floating format of a number (R110): 3 is reserved. -/
def fmtOfCode (n : Nat) : Option FFmt :=
  match n with
  | 0 => some .s | 1 => some .d | 2 => some .q | _ => none

/-- Majors 0x12 to 0x14. -/
def spelledFloat (c : CoreId) (major : Nat) (p : BitVec 24) : Option Instr :=
  let d := dOf p
  let a := aOf p
  let b := bOf p
  (fmtOfCode (major - 0x12)).bind fun f =>
    match minorOf p with
    | 0 => some (.fadd c f d a b) | 1 => some (.fsub c f d a b) | 2 => some (.fmul c f d a b) | 3 => some (.fdiv c f d a b)
    | 4 => whenZero (b == 0) (some (.fsqrt c f d a)) | 5 => some (.fmin c f d a b) | 6 => some (.fmax c f d a b)
    | _ => whenZero (d == 0) (some (.fcmp c f a b))

/-- Major 0x16. -/
def spelledFmov (c : CoreId) (p : BitVec 24) : Option Instr :=
  let d := dOf p
  let a := aOf p
  (fmtOfCode ((extOf p).toNat / 64)).bind fun f =>
    match (extOf p).toNat % 64 with
    | 0 => some (.fmov c f d a) | 1 => some (.fneg c f d a) | 2 => some (.fabs c f d a) | 3 => some (.fclass c f d a)
    | 4 => some (.frint c f d a) | 5 => some (.frintx c f d a)
    | _ => none

/-- Majors 0x17 to 0x19. -/
def spelledFmem (c : CoreId) (major : Nat) (p : BitVec 24) : Option Instr :=
  let d := dOf p
  let a := aOf p
  let b := bOf p
  match major, minorOf p with
  | 0x17, 0 => whenZero (b == 0) (some (.fmvgf c d a)) | 0x17, 1 => whenZero (b == 0) (some (.fmvgfh c d a))
  | 0x17, 2 => whenZero (b == 0) (some (.fmvfg c d a)) | 0x17, 3 => whenZero (b == 0) (some (.fmvfgh c d a))
  | 0x17, 4 => whenZero (a == 0 && b == 0) (some (.mffs c d)) | 0x17, 5 => whenZero (d == 0 && b == 0) (some (.mtfs c a))
  | 0x18, 0 => some (.flds c d a b) | 0x18, 1 => some (.fldd c d a b) | 0x18, 2 => some (.fldq c d a b)
  | 0x19, 0 => some (.fsts c d a b) | 0x19, 1 => some (.fstd c d a b) | 0x19, 2 => some (.fstq c d a b)
  | _, _ => none

/-- The majors of one parcel. A reserved condition or test (R111, BRZ) and the reserved pairs of kinds (R113) are left to the
instruction, which raises ILLEGAL for them. -/
def spelled1 (c : CoreId) (p : BitVec 24) : Option Instr :=
  let major := opOf p
  let d := dOf p
  let a := aOf p
  let ext := extOf p
  match major with
  | 0x01 => spelledAlu c 1 p
  | 0x02 => spelledAlu c 2 p
  | 0x03 => some (.shi c d a (ext.extractLsb' 6 2) (ext.extractLsb' 0 6))
  | 0x04 => some (.addi8 c d a ext)
  | 0x05 => whenZero (d == 0) (some (.cmpi8 c a ext))
  | 0x06 => spelledMul c 6 p
  | 0x07 => spelledMul c 7 p
  | 0x08 => spelledMem c 8 p
  | 0x09 => spelledMem c 9 p
  | 0x0A => some (.ldd8 c d a ext)
  | 0x0B => some (.std8 c d a ext)
  | 0x0C => spelledMem c 12 p
  | 0x0D => whenZero (a == 0 && ext.toNat / 32 == 0) (some (.setcc c d (ext.extractLsb' 0 5)))
  | 0x0E => spelledCtl c 14 p
  | 0x0F => spelledSys c p
  | 0x10 => whenZero (a == 0 && ext.toNat / 64 == 0) (some (.mfk c d (ext.extractLsb' 0 6)))
  | 0x11 => whenZero (d == 0 && ext.toNat / 64 == 0) (some (.mtk c a (ext.extractLsb' 0 6)))
  | 0x12 => spelledFloat c 0x12 p
  | 0x13 => spelledFloat c 0x13 p
  | 0x14 => spelledFloat c 0x14 p
  | 0x15 => some (.fcvt c d a (ext.extractLsb' 4 4) (ext.extractLsb' 0 4))
  | 0x16 => spelledFmov c p
  | 0x17 => spelledFmem c 0x17 p
  | 0x18 => spelledFmem c 0x18 p
  | 0x19 => spelledFmem c 0x19 p
  | 0x1A => whenZero (a == 0) (some (.br8 c d ext))
  | 0x1B => some (.brz c d a ext)
  | 0x1C => spelledCtl c 28 p
  | _ => none

/-! ### The majors of two and three parcels (R110) -/

/-- FMA, whose second parcel names the addend and the signs. -/
def spelledFma (c : CoreId) (p q : BitVec 24) : Option Instr :=
  whenZero (q.extractLsb' 2 17 == 0) ((fmtOfCode (minorOf p)).map fun f =>
    .fma c f (dOf p) (aOf p) (bOf p) (q.extractLsb' 19 5) (q.extractLsb' 0 2))

/-- The majors of two parcels. -/
def spelled2 (c : CoreId) (p imm : BitVec 24) : Option Instr :=
  let d := dOf p
  let a := aOf p
  let ext := extOf p
  let plain := ext == 0
  match opOf p with
  | 0x20 => spelledFma c p imm
  | 0x21 => whenZero plain (some (.addi c d a imm))
  | 0x22 => whenZero plain (some (.andi c d a imm))
  | 0x23 => whenZero plain (some (.ori c d a imm))
  | 0x24 => whenZero plain (some (.xori c d a imm))
  | 0x25 => whenZero (plain && d == 0) (some (.cmpi c a imm))
  | 0x26 => whenZero (ext.toNat / 8 == 0) (some (.ld c d a (ext.extractLsb' 0 3) imm))
  | 0x27 => whenZero (ext.toNat / 4 == 0) (some (.st c d a (ext.extractLsb' 0 2) imm))
  | 0x28 => whenZero (ext.toNat / 4 == 0) (some (.fld c d a (ext.extractLsb' 0 2) imm))
  | 0x29 => whenZero (ext.toNat / 4 == 0) (some (.fst c d a (ext.extractLsb' 0 2) imm))
  | 0x2A => whenZero (plain && a == 0) (some (.br c d imm))
  | 0x2B => whenZero (plain && d == 0 && a == 0) (some (.call c imm))
  | 0x2C => whenZero (plain && imm.extractLsb' 16 8 == 0) (some (.insh c d a (imm.extractLsb' 0 16)))
  | 0x2D => whenZero (plain && a == 0) (some (.addpc c d imm))
  | _ => none

/-- The majors of three parcels. -/
def spelled3 (c : CoreId) (p : BitVec 24) (imm : BitVec 48) : Option Instr :=
  let d := dOf p
  let a := aOf p
  let ext := extOf p
  let plain := ext == 0
  match opOf p with
  | 0x30 => whenZero (plain && a == 0) (some (.movi c d imm))
  | 0x31 => whenZero plain (some (.addi48 c d a imm))
  | 0x32 => whenZero (ext.toNat / 8 == 0) (some (.ldl c d a (ext.extractLsb' 0 3) imm))
  | 0x33 => whenZero (ext.toNat / 4 == 0) (some (.stl c d a (ext.extractLsb' 0 2) imm))
  | 0x34 => whenZero (plain && a == 0) (some (.brl c d imm))
  | 0x35 => whenZero (plain && d == 0 && a == 0) (some (.calll c imm))
  | _ => none

/-- The instruction that parcels spell for a core; those beyond its length are ignored. None where R108 reserves it. -/
def spelled (c : CoreId) (p0 p1 p2 : BitVec 24) : Option Instr :=
  match parcels (opOf p0) with
  | 1 => spelled1 c p0
  | 2 => spelled2 c p0 p1
  | _ => spelled3 c p0 (p1 ++ p2)

/-- The command of an instruction's parcels: RESERVED_OPCODE where R108 reserves it. -/
def instrOf (c : CoreId) (p0 p1 p2 : BitVec 24) : Instr := (spelled c p0 p1 p2).getD (.reservedOpcode c ⟨p0, p1, p2⟩)

/-- The instruction at the head of bytes of memory, with the bytes that follow it (R106): none where they end before it does. -/
def instrAt (c : CoreId) : List (BitVec 8) → Option (Instr × List (BitVec 8))
  | b0 :: b1 :: b2 :: rest =>
    let p0 := parcelOf b0 b1 b2
    match parcels (opOf p0), rest with
    | 1, l => some (instrOf c p0 0 0, l)
    | 2, b3 :: b4 :: b5 :: l => some (instrOf c p0 (parcelOf b3 b4 b5) 0, l)
    | 3, b3 :: b4 :: b5 :: b6 :: b7 :: b8 :: l => some (instrOf c p0 (parcelOf b3 b4 b5) (parcelOf b6 b7 b8), l)
    | _, _ => none
  | _ => none

/-! ### The table's words -/

/-- The command read from a word of `nbits` bits, its parcels counted from the first: the instruction that they spell, as a command
to core 0 (DESIGN CHOICE, log entry 1). The parcels above `nbits` are zero. -/
def decodeTableWord (nbits w : Nat) : Option Instr :=
  let p (k : Nat) : BitVec 24 := BitVec.ofNat 24 (w / 2 ^ (24 * k))
  if nbits % 24 = 0 ∧ 0 < nbits ∧ nbits ≤ 24 * parcels (opOf (p 0)) ∧ w < 2 ^ nbits then some (instrOf 0 (p 0) (p 1) (p 2))
  else none

end Sys2Proof
end

