-- ==== Sys2Proof/Machine/StateCpu.lean ====
section
/-! DEFINITION. The state of the processors: architectural registers (chapter 03), the divide unit (chapter
04), and the checking state of a pair (chapter 05). -/

namespace Sys2Proof.Machine

/-- A product that has not landed (R127): it lands when `left` further instructions have retired. A later
writer of one half in program order takes that half away. -/
structure Product where
  left : Nat
  hi   : Option Word
  lo   : Option Word
  deriving DecidableEq, Repr

/-- The architectural registers of one processor (R82 to R91). `g` holds G1 to G30; the three copies of G31
stand apart (R83). `k` holds the control registers that are stored words, by number (R91). PS is stored with
MSH 0: MSH is read from `products`. -/
structure Arch where
  g        : Tab Word
  usp      : Word
  ssp      : Word
  hsp      : Word
  f        : Tab Quad
  ph       : Word
  pl       : Word
  products : List Product
  pc       : Word
  ps       : Word
  fs       : Word
  k        : Tab Word
  deriving DecidableEq, Repr

/-- What a processor waits for (R119, R122). `since` is the tick in which the wait began. -/
inductive Wait where
  | none
  | wfe (since : Nat)
  | waitc (d : Reg) (target : Word) (since : Nat)
  deriving DecidableEq, Repr

/-- How a divide unit works on an operation: the 10-bit estimate that it starts from (R149, R176), its iterations and its
latency (R151, R152, R174). -/
structure DivPlan where
  estimate   : Nat
  iterations : Nat
  cycles     : Nat
  deriving DecidableEq, Repr

/-- The operation in a divide unit (R147): an integer division holds its results until it finishes; a floating
one has written its own. -/
structure DivOp where
  results : Option (Word × Word)
  plan    : DivPlan
  deriving DecidableEq, Repr

/-- A translation that a processor keeps until it is dropped (R101): of the host stage or of stage 1, for a partition and
an ASID; the first address of its page, the log2 of its size, and its leaf entry with ACC, and with DIRTY where it has
served a write (R98, R99). -/
structure TlbEntry where
  host  : Bool
  part  : Nat
  asid  : Nat
  page  : Nat
  shift : Nat
  entry : Nat
  deriving DecidableEq, Repr

/-- One core. `clockOff` says that its fast clock is stopped (R125), `wakeAt` the timebase of its scheduled wake,
`halted` that it executes nothing more until it is started again (R136, R211, R275), `tlb` the translations it keeps. `first`
is the result code of what came first while a wait could not end yet, with its tick (R122); 4 stands for an interrupt. -/
structure Core where
  arch       : Arch
  wait       : Wait
  first      : Option (Nat × Nat)
  clockOff   : Bool
  wakeAt     : Option Word
  halted     : Bool
  divUnit    : Option DivOp
  tlb        : List TlbEntry
  deriving DecidableEq, Repr

/-- An entry of the gated-store buffer (R194): the pieces of physical memory, or the control-space address, that
it writes, with their data. `part` and `host` say on whose behalf a control-space store acts (R77); `atomic` that
it is the store part of an atomic, whose location stays reserved (R142). -/
structure GStore where
  pieces : List (Nat × Bytes)
  part   : Nat
  host   : Bool
  atomic : Bool
  deriving DecidableEq, Repr

/-- A SEV or SEVT held until its window agrees (R141): a SEV sets EV in its partition and in the core that issues it. -/
inductive HeldEvent where
  | sev (part core : Nat)
  | sevt (part : Nat) (ga gb : Word)
  deriving DecidableEq, Repr

/-- A window of a checked pair (R188): its number, retired instructions, signature, gated stores in program
order, held events, the queue whose pop it holds, whether an event reached the pair during it (R202), and the
state at its end once it is closed. -/
structure Window where
  number : Nat
  count  : Nat
  sig    : Word
  stores : List GStore
  events : List HeldEvent
  pop    : Option Nat
  ev     : Bool
  endArch : Option Arch
  deriving DecidableEq, Repr

/-- A completion that an ACCEPTED command still owes (R63): the ring and header fields it echoes. -/
structure Asker where
  ring      : Nat
  tag       : BitVec 32
  op        : BitVec 16
  partition : Byte
  deriving DecidableEq, Repr

/-- A hand-over that a pair will finish at a later step (R231, R232, R233, R236). `spare` names the pair that takes
over, and nobody is owed a completion where Vixia spares a hard-failed pair. -/
inductive PairJob where
  | split (part num ways area : Nat) (who : Asker)
  | join (part area : Nat) (who : Asker)
  | spare (target : Nat) (who : Option Asker)
  deriving DecidableEq, Repr

/-- The checking state of a pair: PAIR_CHK, PAIR_CNT, PAIR_LOC and PAIR_CACHE (R220 to R223, R278), the
windows (R188 to R193), the committed stores not yet released (R195) and the checkpoint (R201). `injected` is the window into which a signature difference is forced (R228), `sparedOut` says
that the pair has given up its work (R233, R236). `cloveDead` and `busDead` say that Clove and the bus comparator have failed,
whatever their sticky bits show (R211); `failing` is the number of a window that has failed while earlier ones are still to be
compared (R199), with what `owed` becomes then; `owed` says that a failure is to be reported at level 1 on agreement (R211). -/
structure Pair where
  mode         : BitVec 2
  ccLeft       : Nat
  failRun      : Nat
  cloveFailed  : Bool
  buscmpFailed : Bool
  mismatch     : Bool
  delayUe      : Bool
  ckptUe       : Bool
  hardFailed   : Bool
  sparedIn     : Bool
  retries      : BitVec 16
  delayCe      : BitVec 16
  ckptCe       : BitVec 16
  localised    : BitVec 16
  loc          : Word
  l2State      : BitVec 2
  l1iOn        : Bool
  l1dOn        : Bool
  shadowWays   : BitVec 4
  pfDist       : BitVec 4
  pfOn         : Bool
  opened       : Window
  closed       : List Window
  committed    : List GStore
  ckpt         : Arch
  restarting   : Bool
  injected     : Option Nat
  ckptLost     : Bool
  sparedOut    : Bool
  job          : Option PairJob
  testBit      : Nat
  cloveDead    : Bool
  busDead      : Bool
  failing      : Option (Nat × Bool)
  owed         : Bool
  deriving DecidableEq, Repr

/-- The registers of a processor at reset: PS at LEVEL host with IM set (R86), IDLE_DELAY 50,000 (R91), every
other register zero (log entry 5 for those without a reset value). -/
def Arch.reset : Arch :=
  { g := [], usp := 0, ssp := 0, hsp := 0, f := [], ph := 0, pl := 0, products := [], pc := 0,
    ps := 0x102#64, fs := 0, k := [(28, 50000#64)] }

/-- A core at reset. -/
def Core.reset : Core :=
  { arch := Arch.reset, wait := .none, first := none, clockOff := false, wakeAt := none, halted := false, divUnit := none,
    tlb := [] }

/-- The empty window that follows window `n`. -/
def Window.empty (n : Nat) : Window :=
  { number := n, count := 0, sig := 0, stores := [], events := [], pop := none, ev := false, endArch := none }

/-- A pair at reset (R221, R222, R223, R278). -/
def Pair.reset : Pair :=
  { mode := 0, ccLeft := 0, failRun := 0, cloveFailed := false, buscmpFailed := false, mismatch := false,
    delayUe := false, ckptUe := false, hardFailed := false, sparedIn := false, retries := 0, delayCe := 0,
    ckptCe := 0, localised := 0, loc := 0, l2State := 0, l1iOn := true, l1dOn := true, shadowWays := 0,
    pfDist := 8, pfOn := true, opened := Window.empty 0, closed := [], committed := [], ckpt := Arch.reset,
    restarting := false, injected := none, ckptLost := false, sparedOut := false, job := none, testBit := 0,
    cloveDead := false, busDead := false, failing := none, owed := false }

end Sys2Proof.Machine
end

