-- ==== Sys2Proof/Config.lean ====
section
/-! DEFINITION. What an implementation fixes and the values the spec leaves open: opaque constants, so that
no proof can see a value of them. -/

namespace Sys2Proof.Config

/-- A fresh open value; the machine applies it to a counter it advances (entropy, R529). Log entry 3. -/
opaque freeValue : Nat → BitVec 64

/-- Whether a rounding under a reserved RM goes up, or an overflow to infinity (R88, R154): from RM, the sign, the number
and the bits dropped. Log entry 51. -/
opaque reservedRound : Nat → Bool → Nat → Nat → Bool

/-- What the device behind a PCI Express window answers for the byte at an address, at a moment that the machine counts
(R563). Log entry 3. -/
opaque deviceByte : Nat → Nat → Byte

/-- An output of the SP 800-90A DRBG of an I/O die, seeded from that die's entropy source (R303): the die and the number of
the output. No requester can read it. Log entry 31. -/
opaque ioDieDrbg : Nat → Nat → BitVec 512

/-- The I/O die whose DRBG gives a value of a memory key, and the number of the output (R303): key 0 to 64, and how many values
the key has had. Log entry 31. -/
opaque keyDraw : Nat → Nat → Nat × Nat

/-- The bits, after the three of its header, of the dynamic Huffman coding that COMPRESS writes for a block (R511),
from the literals and the (length, distance) pairs of the block. The spec names the coding, not its code lengths.
Log entry 30. -/
opaque dynamicBlock : List (Nat × Nat) → List Bool

/-- The bytes of the state area that the engines save as the `k`-th (R507: the content belongs to the engine). Log
entry 32. -/
opaque areaByte : Nat → Nat → Byte

/-- Content that the MCTP family of standards fixes and the spec does not restate (R627): the answer to a
message of a type and body. Log entry 41. -/
opaque mctpAnswer : BitVec 8 → Bytes → Bytes

/-- The PLDM answer to the activation of an update: that a power cycle is needed, or that the update has failed (R635). Log entry
41. -/
opaque activateAnswer : Bool → Bytes

/-- How a bundle message from one member to another stands in the data of its operation, and how it is read there (R575):
the spec gives no form. `bundleDeviceOp` and `bundleControl` are the DEVICE_OP, and whether the KIND is CONTROL or WRITE,
of that operation. Log entry 71. -/
opaque bundleWire : Nat → Nat → Bytes → Bytes
opaque bundleRead : Bytes → Nat × Nat × Bytes
opaque bundleDeviceOp : BitVec 16

/-- The path from the outermost bundle of the bundle whose BUNDLE_ID is PARENT_ID, of which a nested bundle is a member (R577):
the settings of the outer levels give it, and none of the module's own does. Log entry 63. -/
opaque bundleAbove : Word → Bytes
opaque bundleControl : Bool

/-- What stands in the fields of a start's results that name an entry or a device operation, where the start has executed
none (R347, R388): ENTRY_INDEX, BYTE_OFFSET and LAST_ENTRY, and SEQ, RESIDUAL and PATH, from the tick and the journal
entry. Log entry 82. -/
opaque noEntry : Nat → Nat → BitVec 128
opaque noOperation : Nat → Nat → BitVec 72

/-- How many bytes the mirror copy's BYTE_OFFSET of a context lies behind the active copy's, within the 64 KiB that R336 allows:
by the tick and the context. Log entry 20. -/
opaque mirrorLag : Nat → Nat → Nat

/-- Whether a full Ethernet queue sends PFC for the frame's priority, or PAUSE (R561). Log entry 108. -/
opaque sendsPfc : Bool

/-- The hops from a port to a member (R576), which the cabling decides. Log entry 77. -/
opaque bundleHops : Nat → Nat → Nat

/-- Entry 1 of the measurements (R633): the digest of the boot ROM, fixed at manufacture. -/
opaque bootRomDigest : Bytes

/-- The objects of measurements 5 and 8 (R633), whose byte layouts the spec does not give: of KEY_REVOKED, the SVN counter and
DEBUG_DISABLED, and of the running slot, TRIAL and RECOVERY. Log entry 44. -/
opaque fuseObject : BitVec 4 → Nat → Bool → Bytes
opaque runObject : Bool → Bool → Bool → Bytes

/-- KIND, VERSION and SVN of a measurement whose object is no image (R633). Log entry 44. -/
opaque bareMeasure : Nat → Nat × Nat × Nat

/-- The module's serial number and the hashes of its signing keys, fixed at manufacture (R630). -/
opaque fuseSerial : Word
opaque fuseKeyHash : Nat → Bytes

/-- The identity key (R628, R630, R634), fixed at manufacture: WRAP_KEY of the fuses, the private half as flash holds it
wrapped, the certificate chain from the Fineno root through the device CA to the module's certificate, and the AES unwrapping,
which the spec does not name. Log entry 107. -/
opaque fuseWrapKey : BitVec 256
opaque wrappedIdentity : Bytes
opaque certificateChain : Bytes
opaque aesUnwrap : BitVec 256 → Bytes → Bytes

/-- The VID code fused for a compute die (R645). -/
opaque fuseVid : Nat → BitVec 7

/-- What the board record's body carries; the spec names its contents and not its layout (R628, R491, R659, R69): TB_INIT,
the partition-0 parameters of R472, the pairs with processor numbers, the granules, the queues with capacities, and
the size and bases of ring 0. Log entry 42. -/
opaque boardTbInit : Bytes → Nat
opaque boardPart0 : Bytes → Bytes
opaque boardPairs : Bytes → List (Nat × Nat)
opaque boardGranules : Bytes → List Nat
opaque boardQueues : Bytes → List (Nat × Nat)
opaque boardRing0 : Bytes → Nat × Word × Word

end Sys2Proof.Config
end

