-- ==== Sys2Proof/Machine/StateMem.lean ====
section
/-! DEFINITION. The state of the caches (chapter 06) and of main memory and the compressed tier
(chapter 07). -/

namespace Sys2Proof.Machine

/-- A line held by a cache, in way `way` of its set: the line number (address div 256), its 2-bit age (R243),
whether it is modified or dirty here, held exclusive, one more than the number of the latest
uncommitted window that filled or wrote it, or 0 (R198), and brought in
by a prefetch and not hit since (R247). -/
structure CLine where
  way       : Nat
  line      : Nat
  age       : Nat
  dirty     : Bool
  exclusive : Bool
  touched   : Nat
  pf        : Bool
  deriving DecidableEq, Repr

/-- A stride slot (R247, R249): the key, the core whose loads train it (R257), the last line, the last stride, how many
equal strides in a row, how many lines it is ahead, and the lines of its page (R248). Slots stand in order of use, the
latest first. -/
structure Stride where
  key    : Nat
  core   : Nat
  last   : Nat
  stride : Int
  run    : Nat
  ahead  : Nat
  lo     : Nat
  hi     : Nat
  deriving DecidableEq, Repr

/-- A shared-cache slice (R276, R277). `lfsr` is SLICE_LFSR. The data array takes lines while the cell is RUNNING (R272). -/
structure Slice where
  groupOn    : BitVec 8
  cleaning   : BitVec 8
  lockedDiscard : Bool
  dataUe     : Bool
  tagUe      : Bool
  lfsr       : BitVec 32
  deriving DecidableEq, Repr

/-- A lock on ways of all four slices (R258, R265). -/
structure WayLock where
  mask    : BitVec 32
  owner   : Nat
  base    : Nat
  len     : Nat
  deriving DecidableEq, Repr

/-- An entry of the region attribute table (R253). -/
structure Region where
  valid   : Bool
  base    : Nat
  limit   : Nat
  policy  : BitVec 2
  allocR  : Bool
  allocW  : Bool
  stream  : Bool
  deriving DecidableEq, Repr

/-- A cache operation that has been accepted and not completed. `begun` says that a CACHE_DISABLE has found its window
boundary (R273). -/
inductive CacheJob where
  | range (op : BitVec 16) (base len levels : Nat) (part : Option Nat) (who : Asker)
  | lock (l : WayLock) (preload : Bool) (who : Asker)
  | region (entry : Nat) (new : Region) (who : Asker)
  | waysOff (slices : List Nat) (mask : BitVec 8) (who : Asker)
  | waysOn (slices : List Nat) (mask : BitVec 8) (who : Asker)
  | disable (pair : Nat) (mask : BitVec 3) (begun : Bool) (who : Asker)
  deriving DecidableEq, Repr

/-- The caches. The four tables of lines are keyed by cache and set; `dirty` holds the 256 bytes of each line
that some cache holds and memory does not, so that a line has one current value; `under` the bytes that a slice holds
dirty of a line that an L2 has modified since; `kept` the bytes of a clean line where memory holds others, since a device or a
channel has failed below it or a write has been discarded (R296, R301); `bad` the lines whose copy in the caches is poisoned (R275), in rising order.
`retiredL2` and `retiredSlice` list the ways retired in a set (R274), as (set, way). -/
structure Caches where
  l1i     : Tab (List CLine)
  l1d     : Tab (List CLine)
  l2      : Tab (List CLine)
  slice   : Tab (List CLine)
  dirty   : Tab Bytes
  under   : Tab Bytes
  kept    : Tab Bytes
  bad     : List Nat
  retiredL2    : List (Nat × Nat)
  retiredSlice : List (Nat × Nat)
  slices  : Tab Slice
  locks   : List WayLock
  regions : Tab Region
  l2Strides    : Tab (List Stride)
  sliceStrides : Tab (List Stride)
  slicePfOn   : Tab Bool
  slicePfDist : Tab (BitVec 4)
  jobs    : List CacheJob
  deriving DecidableEq, Repr

/-- An interleave set (R285, R288): its channels as numbers 12d + cc, and its first and last GiB. -/
structure MemSet where
  redundant : Bool
  channels  : List Nat
  baseGib   : Nat
  limitGib  : Nat
  deriving DecidableEq, Repr

/-- A memory channel (R334). `devErrors` counts each device's corrected errors in this scrub period (R295),
`retries` the retries of the access in progress (R281), `rebuild` the bytes of the channel below which a returning
channel is rebuilt (R302), `lost` that its lines cannot be read, `wiped` what is written poisoned of it: for each loss the place
in `Mem.fresh` from which blocks count as written since, and the byte of the channel from which its lines are gone. -/
structure Chan where
  rate         : BitVec 4
  dimms        : BitVec 2
  x8           : Bool
  capGib       : Nat
  ce           : BitVec 16
  ue           : BitVec 16
  failedDevice : Byte
  marked       : Bool
  ueSeen       : Bool
  linkRetry    : Bool
  periodH      : Nat
  devLimit     : Nat
  passes       : BitVec 32
  devErrors    : Tab Nat
  retries      : Nat
  rebuild      : Option Nat
  lost         : Bool
  wiped        : List (Nat × Nat)
  starter      : Option Asker
  deriving DecidableEq, Repr

/-- A pool range (R322): the base address, the frames, the frame indices allocated, in rising order, and the lines of its
frames that have been written, under the region's key (R305, R309). -/
structure PoolRange where
  base   : Nat
  frames : Nat
  used   : List Nat
  lines  : List Nat
  deriving DecidableEq, Repr

/-- A tier region (R308, R335). `pins` are the line indices that wait for a frame, in pin order (R325, R327);
`aboveA` and `aboveB` say that the used frames stood at the threshold or above when they were last compared, `armedB` that
KIND 2 may be pushed: a fall below THRESH_A arms it again (R323). KIND 1 is armed exactly while `aboveA` is false. -/
structure Tier where
  enabled       : Bool
  class4        : Bool
  key           : Nat
  size          : Nat
  store         : Nat
  desc          : Nat
  pools         : List PoolRange
  threshA       : Nat
  threshB       : Nat
  aboveA        : Bool
  aboveB        : Bool
  armedB        : Bool
  pins          : List Nat
  exhaustedSeen : Bool
  codeErr       : Bool
  directAccess  : Bool
  deriving DecidableEq, Repr

/-- A memory operation that has been accepted and not completed. -/
inductive MemJob where
  | granuleKey (granule key : Nat) (who : Asker)
  | zero (base len : Nat) (part : Option Nat) (who : Asker)
  | tierSet (region : Nat) (t : Tier) (who : Asker)
  | tierClear (region : Nat) (who : Asker)
  | poolAdd (region : Nat) (range : PoolRange) (who : Asker)
  | assign (part : Nat) (take : Bool) (granules : List Nat) (who : Asker)
  deriving DecidableEq, Repr

/-- Bytes that were last written under a memory key (R305): the first, how many, and the key with the count of its
values (R303, R307). -/
structure Keyed where
  first : Nat
  len   : Nat
  key   : Nat
  gen   : Nat
  deriving DecidableEq, Repr

/-- An entry of a redundant group's write-intent buffer (R298): the group, and the bytes whose data and parity are not both
written yet. -/
structure Intent where
  group : Nat
  pa    : Nat
  bytes : Bytes
  deriving DecidableEq, Repr

/-- A START of a group that waits for the rebuilds of channels (R56, R302): those left, and whether one has failed. -/
structure GroupStart where
  who    : Asker
  left   : List Nat
  failed : Bool
  deriving DecidableEq, Repr

/-- Main memory. `cells` lists, in rising address order, the bytes that differ from zero; `poison` the
64-byte ECC blocks of direct memory marked poisoned, in rising order (R275, R294); `fresh` the blocks (first, last) of wiped
channels that have been written since, in order of time; `scrambled` the ranges that were last written under a key
other than their granule's (R305); `intents` the write-intent buffers (R298); `groupStarts` the STARTs of groups that wait;
`keyGen` how many values each memory key has had (R303, R307). -/
structure Mem where
  cells   : List Host.Cell
  poison  : List Nat
  fresh   : List (Nat × Nat)
  scrambled : List Keyed
  intents : List Intent
  groupStarts : List GroupStart
  sets    : List MemSet
  chans   : Tab Chan
  keyMap  : Tab Nat
  keyGen  : Tab Nat
  tiers   : Tab Tier
  jobs    : List MemJob
  deriving DecidableEq, Repr

/-- A slice at reset but for SLICE_LFSR, whose reset value is 1 + d (R276). -/
def Slice.reset (d : Nat) : Slice :=
  { groupOn := 0xFF, cleaning := 0, lockedDiscard := false, dataUe := false, tagUe := false,
    lfsr := BitVec.ofNat 32 (1 + d) }

/-- A region attribute entry at reset (R253). -/
def Region.reset : Region :=
  { valid := false, base := 0, limit := 0, policy := 0, allocR := false, allocW := false, stream := false }

/-- The caches at reset: no line valid, no lock. -/
def Caches.reset : Caches :=
  { l1i := [], l1d := [], l2 := [], slice := [], dirty := [], under := [], kept := [], bad := [], retiredL2 := [],
    retiredSlice := [], slices := [], locks := [], regions := [],
    l2Strides := [], sliceStrides := [], slicePfOn := [], slicePfDist := [], jobs := [] }

/-- A channel at reset (R334). -/
def Chan.reset : Chan :=
  { rate := 0, dimms := 0, x8 := false, capGib := 0, ce := 0, ue := 0, failedDevice := 0xFF, marked := false,
    ueSeen := false, linkRetry := false, periodH := 24, devLimit := 64, passes := 0, devErrors := [],
    retries := 0, rebuild := none, lost := false, wiped := [], starter := none }

/-- A tier region at reset (R335). -/
def Tier.reset : Tier :=
  { enabled := false, class4 := false, key := 0, size := 0, store := 0, desc := 0, pools := [], threshA := 0,
    threshB := 0, aboveA := false, aboveB := false, armedB := true, pins := [], exhaustedSeen := false, codeErr := false,
    directAccess := false }

/-- Main memory at reset: nothing listed. -/
def Mem.reset : Mem :=
  { cells := [], poison := [], fresh := [], scrambled := [], intents := [], groupStarts := [], sets := [], chans := [], keyMap := [], keyGen := [], tiers := [], jobs := [] }

end Sys2Proof.Machine
end

