-- ==== Sys2Proof/Machine/StateIo.lean ====
section
/-! DEFINITION. The state of the I/O complex: contexts, running programs, staging queues and movers (chapter
08), the journal and Sorrel (chapter 09), ports and the Knangefa link (chapter 13). -/

namespace Sys2Proof.Machine

/-- A queued or active start (R337): the tag, the ring that carried it and its journal entry. -/
structure StartRef where
  tag   : BitVec 32
  ring  : Nat
  entry : Nat
  deriving DecidableEq, Repr

/-- OPSTATE of a context (R338). -/
inductive OpState where
  | idle | active | halted | redrive
  deriving DecidableEq, Repr

/-- The settings of a context that CHANGE stages and START puts in force (R339). -/
structure CtxCfg where
  busRetry   : Nat
  pathCount  : Nat
  pathMask   : Byte
  devPathLen : Nat
  paths      : Bytes
  devPath    : Bytes
  deriving DecidableEq, Repr

/-- A context (R337), less its cell state, which its cell record holds. SEQ is `seq`, the progress point is
(`entryIndex`, `byteOffset`). `shift` says which channel processor serves it: 0 its own, 1 the sibling, 2 and 3
those of the other die (R366, R409). The mirror copy of R336 holds the same values (log entry 20). -/
structure Ctx where
  owner      : Option Nat
  op         : OpState
  cls        : Nat
  clsValid   : Bool
  shift      : Nat
  cfg        : CtxCfg
  pathCur    : Nat
  cur        : StartRef
  program    : Nat
  curEntry   : Nat
  entryIndex : BitVec 32
  byteOffset : BitVec 32
  seq        : BitVec 32
  queue      : List StartRef
  deriving DecidableEq, Repr

/-- One entry of a device operation's span (R352) as the channel processor read it: its address and index,
COUNT, flags, where CRC-STORE writes (a physical address), the elements of its list up to COUNT as
(partition-stage address, length), the program fault met where they end (0 for none), and the bytes that the
mover has moved for it (for its CRC, R362). -/
structure SpanEntry where
  addr     : Nat
  index    : Nat
  count    : Nat
  tolerant : Bool
  last     : Bool
  crcStore : Bool
  crc64    : Bool
  crcPa    : Nat
  elems    : List (Nat × Nat)
  stop     : Nat
  seen     : Bytes
  deriving DecidableEq, Repr

/-- The device operation in progress (R351 to R353): KIND of R544, DEVICE_OP, SEQ, COUNT and the entries read of
its span, whether the span is complete, whether its OP has been sent, whether an OP (the first, or one with
RESUME) is still to be sent, the bytes on this side (staged outward, or received), the bytes that have reached
the far side (R357), the partner's END when it has arrived (STATUS, LONG, MOVED), and whether the partner offered
more than COUNT. -/
structure DevOp where
  kind    : Nat
  devOp   : BitVec 16
  seq     : BitVec 32
  count   : Nat
  entries : List SpanEntry
  whole   : Bool
  sent    : Bool
  due     : Bool
  here    : Nat
  moved   : Nat
  ended   : Option (Byte × Bool × Nat)
  excess    : Bool
  deriving DecidableEq, Repr

/-- An active program (R349): where it stands, what it has used of its envelope (R421), SEQ and PATH of its last device
operation (`lastSeq` none before one; `lastAddr` none before the first entry is executed), and once it has ended its status and
detail. `nop` says that the entry before was a NOP with SPAN (R352). Of an operation that was cut short, `left` is what the
partner may still acknowledge (R348, R380), and `crcs` are the complete entries whose CRC is not written yet (R362). -/
structure Run where
  next     : Nat
  index    : Nat
  jumps    : Nat
  ops      : Nat
  entries  : Nat
  elements : Nat
  bytes    : Nat
  op       : Option DevOp
  lastAddr : Option Nat
  lastIndex : Nat
  lastBytes : Nat
  residual : Nat
  flags    : Byte
  retries  : Nat
  device   : Byte
  lastSeq  : Option (BitVec 32)
  lastPath : Byte
  result   : Option (BitVec 16 × BitVec 32)
  nop      : Bool
  left     : Option DevOp
  crcs     : List SpanEntry
  deriving DecidableEq, Repr

/-- Bytes in an inbound staging queue: the context they belong to (131,072 an Ethernet frame, 131,073 an endpoint's
write to the partition-stage address `addr`, 131,074 its read of `credits` bytes there), and the credits owed when the
last of them leaves (R553). -/
structure Chunk where
  ctx     : Nat
  addr    : Nat
  bytes   : Bytes
  credits : Nat
  deriving DecidableEq, Repr

/-- The staging queues of a port (R370 to R375), in arrival order; `next` are settings for the next tick, `toZero`
that the drain asked for goes to zero, `tailAt` the expiry of the tail timer. -/
structure Staging where
  high    : Nat
  low     : Nat
  tail    : Nat
  next    : Option (Nat × Nat × Nat)
  inq     : List Chunk
  outq    : List (Nat × Bytes)
  toZero  : Bool
  tailAt  : Option Nat
  flushes : BitVec 16
  deriving DecidableEq, Repr

/-- What a mover is asked to do (R368). -/
inductive MoverJob where
  | drain (port : Nat)
  | fill (port : Nat)
  | move (id : Nat)
  deriving DecidableEq, Repr

/-- A MOVE accepted and not completed (R376, R377): the segment in progress, its 32 bytes once they have been read, and the
bytes of it that are done; once it has ended, its status and detail. -/
structure MoveJob where
  id       : Nat
  part     : Nat
  die      : Nat
  list     : Nat
  segments : Nat
  seg      : Nat
  off      : Nat
  held     : Option Bytes
  result   : Option (Nat × Nat)
  who      : Asker
  deriving DecidableEq, Repr

/-- A bus error that a mover's access is to meet (R380): the mover, the line, the unit that answers, how often. -/
structure BusError where
  mover : Nat
  line  : Nat
  unit  : Nat
  times : Nat
  deriving DecidableEq, Repr

/-- An I/O die: MOVE_MAX (R375) in force and for the next tick, DMA-cap tokens (R37), the requests that wait for a
mover, oldest first (R368), what each granted mover serves, and bus errors not yet met. -/
structure IoDie where
  moveMax  : Nat
  nextMax  : Option Nat
  tokens   : Nat
  requests : List MoverJob
  serving  : Tab MoverJob
  busErr   : List BusError
  deriving DecidableEq, Repr

/-- A journal entry (R388, R389) with what the journal engine keeps beside it (R394): the reply slot and
results of the posted completion, whether REPLY_CONS has passed a slot of it (`taken`), whether an item's pop committed,
and the whole deadline and late-limit ticks. `posted` is the status of the completion (R408); `posting` is 1 while its reply waits
to be written, and 2 for that of a late one (R402). STATE 0 is FREE. -/
structure JEntry where
  state    : Nat
  timed    : Bool
  lateAcked : Bool
  consumed : Bool
  redriven : Bool
  reposted : Bool
  path     : Byte
  status   : BitVec 16
  tag      : BitVec 32
  seq      : BitVec 32
  ring     : Nat
  ctx      : Nat
  program  : Nat
  entryIndex : BitVec 32
  byteOffset : BitVec 32
  deadline : Nat
  lateTick : Nat
  part     : Byte
  slot     : Option (BitVec 16)
  taken    : Bool
  popped   : Bool
  queue    : Nat
  detail   : BitVec 32
  results  : Bytes
  posted   : BitVec 16
  posting  : Nat
  deriving DecidableEq, Repr

/-- A journal copy (R432), with the entries in which this tick has met an uncorrectable error (R409). -/
structure JCopy where
  inService : Bool
  rebuilding : Bool
  fullSeen  : Bool
  copyUe    : Bool
  lateSeen  : Bool
  abandonSeen : Bool
  redrives  : BitVec 16
  reposts   : BitVec 16
  latePosts : BitVec 16
  abandons  : BitVec 16
  rebuildWho : Option Asker
  bad       : List Nat
  deriving DecidableEq, Repr

/-- The mirroring that JOURNAL_MIRROR names (R412, R429). `sent` holds the member that has been told of it, and of each entry
the bytes before its progress point as that member was last sent them; `held` are the entries that it has acknowledged as they
are (R390, R413). -/
structure Mirror where
  partner : Bytes
  first   : Nat
  count   : Nat
  standby : Nat
  queue   : Nat
  gib     : Nat
  on      : Bool
  who     : List Asker
  sent    : Option (Bytes × Tab Bytes)
  held    : List Nat
  deriving DecidableEq, Repr

/-- A write of the bundle copy that waits for its memory (R28, R306): the entry, none for the whole region cleared; its bytes; and
the path of the module to which its acknowledgement goes. -/
structure CopyWrite where
  entry : Option Nat
  bytes : Bytes
  ack   : Option Bytes
  deriving DecidableEq, Repr

/-- The bundle copy that this module holds for a home module (R412 to R414): the home's identity, where its
takeover items go, the context map, where its 32 MiB lie in direct memory, the entries that are not FREE, and which are resolved
and not yet read. -/
structure BundleCopy where
  home    : Word
  first   : Nat
  standby : Nat
  queue   : Nat
  base    : Nat
  entries : Tab JEntry
  resolving : List Nat
  unread  : List Nat
  waits   : List CopyWrite
  deriving DecidableEq, Repr

/-- A deadline class's definition (R415). -/
structure ClassDef where
  l        : Nat
  rho      : Nat
  sigma    : Nat
  maxOps   : Nat
  maxEntries : Nat
  maxElements : Nat
  maxBytes : Nat
  partnerNs : Nat
  lateMs   : Nat
  deriving DecidableEq, Repr

/-- A binding (R417, R423): its contexts in rising order, its declared ranges, and the cells that it holds awake,
kept so that UNBIND releases exactly those. -/
structure Binding where
  cls    : Nat
  ctxs   : List Nat
  hold   : Bool
  ranges : List (Nat × Nat)
  held   : List Nat
  deriving DecidableEq, Repr

/-- A context's bucket (R420), and the tick to which it has been refilled. One start is 2^32 x 10^8 units, so that a
tick's refill, RHO x 2^-32 x 2^32 / 10^8 start, is a whole number of them (R420: computed exactly). -/
structure Bucket where
  level : Nat
  tick  : Nat
  deriving DecidableEq, Repr

/-- The states of a Knangefa link (R556, R570). -/
inductive Link where
  | down | training | align | init | up | quiet
  deriving DecidableEq, Repr

/-- The frame types of R543 but LINK. -/
inductive FType where
  | op | data | end_ | ack | nak | resolve | resolved | sync | synced | abort
  deriving DecidableEq, Repr

/-- What a port puts on its line. -/
inductive LineItem where
  | frame (ty : FType) (f : Frame)
  | link (ltype : Nat) (m : LinkMsg)
  | ethernet (bytes : Bytes)
  | unsupportedRequest
  | readData (bytes : Bytes)
  | memRead (off len : Nat)
  | memWrite (off : Nat) (bytes : Bytes)
  | pause (prio : Option Nat)
  deriving DecidableEq, Repr

/-- The settings of a port (R536). -/
structure PortCfg where
  mode     : Nat
  width    : Nat
  bundle   : Bool
  retryMax : Nat
  rto      : Nat
  owner    : Nat
  mac      : Bytes
  maxFrame : Nat
  deriving DecidableEq, Repr

/-- A frame that ETH_SEND has given (R560): the partition, the address and length of its bytes, and its priority. -/
structure EthSend where
  part : Nat
  addr : Nat
  len  : Nat
  prio : Nat
  who  : Asker
  deriving DecidableEq, Repr

/-- A port (R536, R554, R556, R570). `sent` is what it has put on the line, oldest first, `waiting` what waits
for the link to be UP; `served` the bytes sent for each partition (R483). `epoch` counts the times the link reached UP
(R548); `busyAt` is the tick of its latest frame other than LINK, from which its lane is idle (R29); `retrain` says that
a link that is DOWN trains again (R556); `ethSends` are the frames to send, `ethRecvs` the (address, length) of buffers, and
`paused` gives the tick until which a received PAUSE or PFC holds each priority back (R559). -/
structure Port where
  cfg       : PortCfg
  link      : Link
  fromQuiet : Bool
  linkAt    : Nat
  lastTx    : Nat
  lastRx    : Nat
  busyAt    : Nat
  width     : Nat
  rate      : Nat
  flit      : Bool
  lost      : Bool
  refused   : Bool
  fecUncorr : Bool
  exhausted : Bool
  credits   : Nat
  owed      : Nat
  served    : Tab Nat
  peer      : Option LinkMsg
  epoch     : Nat
  retrain   : Bool
  quietAsked : Bool
  loop      : Bool
  fecCorr   : BitVec 16
  fecBad    : BitVec 16
  crcErrors : BitVec 16
  resends   : BitVec 16
  sent      : List LineItem
  waiting   : List LineItem
  ethSends  : List EthSend
  paused    : Tab Nat
  ethRecvs  : List (Nat × Nat × Asker)
  msi       : List Nat
  msiWaits  : List (Nat × BitVec 32 × Asker)
  deriving DecidableEq, Repr

/-- A sequenced frame that its receiver has not acknowledged (R551, R552). -/
structure Unacked where
  ty    : FType
  frame : Frame
  tick  : Nat
  times : Nat
  deriving DecidableEq, Repr

/-- A conversation as its initiator keeps it, one per context (R546 to R552). `highest` is the highest SEQ
sent, `next` that of the next sequenced frame, `rx` the receive point for the partner's frames, `high` what SYNCED
returned, `synced` the port and link epoch on which SYNC was answered, `syncPort` the port on which a SYNC waits
for its answer, `syncTimes` how often it was sent. -/
structure Conv where
  highest   : BitVec 32
  next      : BitVec 32
  rx        : Option (BitVec 32)
  unacked   : List Unacked
  high      : Option (BitVec 32)
  synced    : Option (Nat × Nat)
  syncPort  : Option Nat
  syncTimes : Nat
  syncTick  : Nat
  lastNak   : Option Nat
  deriving DecidableEq, Repr

/-- A bundle message that goes out on a bundle port (R575): the bytes of its operation, its SEQ, whether an OP has gone out and
whether one is to go out, and the bytes sent. -/
structure OutMsg where
  wire  : Bytes
  seq   : BitVec 32
  begun : Bool
  due   : Bool
  here  : Nat
  deriving DecidableEq, Repr

/-- A conversation as its partner keeps it (R549): keyed by ORIGIN and virtual channel. `high` is HIGH, `latest` the
SEQ of its latest operation, which is in progress while `open_`; `status` is that of its END. `rx` is the receive
point, `tx` the next SEQ, `resync` that the next frame carries RESYNC, `lastNak` the tick of the last NAK. `out` is the
message that this module sends on it, `synced` the link on which it is in step, `syncing` an unanswered SYNC with its link,
tick and times, and `top` the HIGH that SYNCED gave (R548). -/
structure PartnerConv where
  origin   : Word
  vc       : Nat
  port     : Nat
  high     : BitVec 32
  latest   : Option (BitVec 32)
  open_    : Bool
  kind     : Nat
  count    : Nat
  status   : Byte
  received : Bytes
  rx       : BitVec 32
  tx       : BitVec 32
  resync   : Bool
  unacked  : List Unacked
  lastNak  : Option Nat
  out      : Option OutMsg
  synced   : Option Nat
  syncing  : Option (Nat × Nat × Nat)
  top      : Option (BitVec 32)
  deriving DecidableEq, Repr

/-- The I/O complex. `loops` are the loop tests under way, each at its cell (R566). -/
structure Io where
  ctxs     : Tab Ctx
  runs     : Tab Run
  staging  : Tab Staging
  dies     : Tab IoDie
  moves    : List MoveJob
  moveId   : Nat
  journal  : Tab JEntry
  copies   : Tab JCopy
  mirror   : Option Mirror
  copyOf   : Option BundleCopy
  classes  : Tab ClassDef
  classOwner : Tab (Option Nat)
  bindings : List Binding
  buckets  : Tab Bucket
  capLines : Nat
  share0   : Nat
  nextCap  : Option (Nat × Nat)
  ports    : Tab Port
  groupPcie : Tab Bool
  convs    : Tab Conv
  partners : List PartnerConv
  loops    : List (Nat × Asker)
  deriving DecidableEq, Repr

/-- A context's settings at reset: BUS_RETRY 3, PATH_COUNT 0 (R337). -/
def CtxCfg.reset : CtxCfg :=
  { busRetry := 3, pathCount := 0, pathMask := 0, devPathLen := 0, paths := [], devPath := [] }

/-- A context at reset: unassigned (R337). -/
def Ctx.reset : Ctx :=
  { owner := none, op := .idle, cls := 0, clsValid := false, shift := 0, cfg := CtxCfg.reset,
    pathCur := 0, cur := ⟨0, 0, 0⟩, program := 0, curEntry := 0, entryIndex := 0, byteOffset := 0, seq := 0,
    queue := [] }

/-- A program about to execute the entry at `next`. -/
def Run.start (next : Nat) : Run :=
  { next := next, index := 0, jumps := 0, ops := 0, entries := 0, elements := 0, bytes := 0, op := none,
    lastAddr := none, lastIndex := 0, lastBytes := 0, residual := 0, flags := 0, retries := 0, device := 0,
    lastSeq := none, lastPath := 0, result := none, nop := false, left := none, crcs := [] }

/-- A port's staging at reset: HIGH 64, LOW 16, TAIL 200 (R375). -/
def Staging.reset : Staging :=
  { high := 64, low := 16, tail := 200, next := none, inq := [], outq := [], toZero := false, tailAt := none,
    flushes := 0 }

/-- An I/O die at reset: MOVE_MAX 8 (R375). -/
def IoDie.reset : IoDie :=
  { moveMax := 8, nextMax := none, tokens := 0, requests := [], serving := [], busErr := [] }

/-- A FREE journal entry. -/
def JEntry.free : JEntry :=
  { state := 0, timed := false, lateAcked := false, consumed := false, redriven := false, reposted := false,
    path := 0, status := 0, tag := 0, seq := 0, ring := 0, ctx := 0, program := 0, entryIndex := 0,
    byteOffset := 0, deadline := 0, lateTick := 0, part := 0, slot := none, taken := false, popped := false, queue := 0, detail := 0,
    results := [], posted := 0, posting := 0 }

/-- A journal copy at reset: in service (R432). -/
def JCopy.reset : JCopy :=
  { inService := true, rebuilding := false, fullSeen := false, copyUe := false, lateSeen := false,
    abandonSeen := false, redrives := 0, reposts := 0, latePosts := 0, abandons := 0, rebuildWho := none, bad := [] }

/-- A class with no definition in force. -/
def ClassDef.none : ClassDef :=
  { l := 0, rho := 0, sigma := 0, maxOps := 0, maxEntries := 0, maxElements := 0, maxBytes := 0,
    partnerNs := 0, lateMs := 0 }

/-- A port's settings at reset: OFF, RETRY_MAX 7, RTO 200 (R536). -/
def PortCfg.reset : PortCfg :=
  { mode := 0, width := 0, bundle := false, retryMax := 7, rto := 200, owner := 0, mac := [], maxFrame := 0 }

/-- A port at reset (R570). -/
def Port.reset : Port :=
  { cfg := PortCfg.reset, link := .down, fromQuiet := false, linkAt := 0, lastTx := 0, lastRx := 0, busyAt := 0, width := 0,
    rate := 0, flit := false, lost := false, refused := false, fecUncorr := false, exhausted := false,
    credits := 0, owed := 0, served := [], peer := none, epoch := 0, retrain := false, quietAsked := false,
    loop := false, fecCorr := 0, fecBad := 0, crcErrors := 0, resends := 0, sent := [], waiting := [],
    ethSends := [], paused := [], ethRecvs := [], msi := [], msiWaits := [] }

/-- A conversation that has sent nothing. -/
def Conv.reset : Conv :=
  { highest := 0, next := 0, rx := none, unacked := [], high := none, synced := none, syncPort := none,
    syncTimes := 0, syncTick := 0, lastNak := none }

/-- The I/O complex at reset. The DMA cap stands at the highest value of R36, 4,296 lines, and its half
(log entry 8: the populated rate is not known before power-up step 4). -/
def Io.reset : Io :=
  { ctxs := [], runs := [], staging := [], dies := [], moves := [], moveId := 0, journal := [], copies := [],
    mirror := none, copyOf := none, classes := [], classOwner := [], bindings := [], buckets := [],
    capLines := 4296, share0 := 2148, nextCap := none, ports := [], groupPcie := [], convs := [],
    partners := [], loops := [] }

end Sys2Proof.Machine
end

