-- ==== Sys2Proof/Machine/StateSys.lean ====
section
/-! DEFINITION. The state of what controls and watches the module: cells and rings (chapter 02), event queues
and sources (chapter 10), partitions (chapter 11), engines (chapter 12), the bundle membership (chapter 14),
Tansy (chapter 15), Vixia (chapter 16), the heartbeat (chapter 01) and the pins (chapter 17). -/

namespace Sys2Proof.Machine

/-- The states of a cell (R49). -/
inductive CState where
  | stopped | running | draining | asleep | faulted
  deriving DecidableEq, Repr

/-- A cell's state (R49), sleep policy (R24, R27), wake-hold counts (R26), staged settings (R53), and the
STOPs and STARTs whose completions are owed (R51). `idleUs` 0 stands for the default delay of R29. -/
structure Cell where
  st       : CState
  manual   : Bool
  idleUs   : BitVec 24
  nextPolicy : Option (Bool × BitVec 24)
  cmdHold  : Nat
  bindHold : Nat
  waking   : Bool
  idleFrom : Nat
  sleepAsked : Bool
  staged   : Option Bytes
  stops    : List Asker
  deriving DecidableEq, Repr

/-- A status reply waiting to be written (R63). `entry` is the journal entry of a START_IO completion. -/
structure Reply where
  op         : BitVec 16
  tag        : BitVec 32
  status     : BitVec 16
  detail     : BitVec 32
  partition  : Byte
  completion : Bool
  checkOnly  : Bool
  results    : Bytes
  entry      : Option Nat
  deriving DecidableEq, Repr

/-- A command ring (R67, R68). `outstanding` counts the ACCEPTED commands whose completion is not written
(R71); `outbox` holds the replies not yet written, in order; `kept` says that a reply slot has halted the ring, so that no
reply is written until HALTED is cleared (R663). -/
structure Ring where
  enable      : Bool
  halted      : Bool
  log2        : BitVec 4
  authMax     : Nat
  haltStatus  : BitVec 16
  cmdBase     : Word
  replyBase   : Word
  cmdCons     : BitVec 16
  cmdProd     : BitVec 16
  replyProd   : BitVec 16
  replyCons   : BitVec 16
  eventQueue  : BitVec 10
  eventPrio   : BitVec 3
  outstanding : Nat
  outbox      : List Reply
  kept        : Bool
  deriving DecidableEq, Repr

/-- An exclusive resource held by a cell (R78, R79). -/
structure Claim where
  kind   : Nat
  index  : Nat
  holder : Nat
  deriving DecidableEq, Repr

/-- An item in an event queue (R433): `ord` is its place in entry order. `entry` is the journal entry whose
completion or late outcome it announces (R392). -/
structure QItem where
  word  : Word
  ord   : Nat
  entry : Option Nat
  deriving DecidableEq, Repr

/-- The settings of a queue that CHANGE and QUEUE_TUNE write (R460, R462). -/
structure QueueCfg where
  capacity : Nat
  thresh   : Nat
  staleT   : Nat
  line     : BitVec 6
  intrEn   : Bool
  noticeOn : Bool
  proc     : BitVec 7
  deriving DecidableEq, Repr

/-- An event queue (R433, R437, R451, R460). `pend` are the pending slots with the reader's core (R216);
`staleAt` is the expiry of the staleness timer; `staleDone` says it has expired (R452). `expiring` and `rose` say that in this
tick the timer has expired, and the ready count has risen to THRESH (R449, R453); `lostNext` numbers the pushes that lose their
cycle (R439). -/
structure Queue where
  cfg       : QueueCfg
  nextTune  : Option (Nat × Nat × Bool)
  items     : List QItem
  pend      : List (Nat × QItem)
  ordNext   : Nat
  stale     : Bool
  staleAt   : Option Nat
  staleDone : Bool
  heldExpiry : Bool
  expiring  : Bool
  rose      : Bool
  lostNext  : Nat
  resetSeen : Bool
  ptrMismatch : Bool
  itemUe    : Bool
  fullSeen  : Bool
  resets    : BitVec 16
  staleNotices : BitVec 16
  fullWaits : BitVec 16
  owner     : Option Nat
  deriving DecidableEq, Repr

/-- An event that a source has not pushed (R442). `queue` is the ring of a late outcome or the queue of a takeover item, and
`prio` its priority (R445); of a ring's item `queue` is the reply slot (R441). `entry` as in QItem. -/
structure SrcItem where
  payload : BitVec 48
  queue   : Nat
  prio    : Nat
  entry   : Option Nat
  deriving DecidableEq, Repr

/-- An event source (R443): its route, its owner, its unpushed events; for each queue on which it waits the tick in which it first
found it full (R440), or its number among the pushes that have lost their cycle (R439); and, of a bundle source, what its
events have accumulated (R589). -/
structure Source where
  queue    : BitVec 10
  prio     : BitVec 3
  enable   : Bool
  owner    : Option Nat
  backlog  : List SrcItem
  fullAt   : Tab Nat
  lostAt   : Tab Nat
  acc      : Option (BitVec 48)
  deriving DecidableEq, Repr

/-- A timer compare unit (R456, R461). `expired` says it has expired since its last TIMER_SET (R441); `next` is what TIMER_SET
gives it from the next tick (R459). -/
structure Timer where
  compare : Word
  period  : Nat
  missed  : BitVec 16
  owner   : Option Nat
  expired : Bool
  lastCompare : BitVec 32
  next    : Option (Word × Nat)
  deriving DecidableEq, Repr

/-- The settings of a partition cell (R472). -/
structure PartCfg where
  htroot  : Word
  entryPc : Word
  stackBase : Word
  stackStride : Nat
  procsMax : Nat
  ringAuth : BitVec 16
  mboxBase : Word
  mboxLog2 : Nat
  mgrProcs : Word
  deriving DecidableEq, Repr

/-- A partition (R472, R667): its settings in force, whether its host stage is, and whether it has ever been started (R466). -/
structure Part where
  cfg       : PartCfg
  hostStage : Bool
  started   : Bool
  deriving DecidableEq, Repr

/-- A processor held by a partition (R465 kinds 1 and 2): the core that runs it and its number. -/
structure ProcShare where
  core : Nat
  part : Nat
  num  : Nat
  whole : Bool
  deriving DecidableEq, Repr

/-- A partition's share of a port or of an engine (R465 kinds 8 and 9). `depth` is 0 for a port. -/
structure UnitShare where
  unit   : Nat
  part   : Nat
  weight : Nat
  depth  : Nat
  deriving DecidableEq, Repr

/-- A SHARE_SET that awaits its completion (R484, R485): the kind, the resources and the new value. -/
structure ShareJob where
  kind  : Nat
  first : Nat
  count : Nat
  value : Nat
  part  : Nat
  who   : Asker
  deriving DecidableEq, Repr

/-- The partitions and what they hold, but for the owners that queues, timers, contexts, classes and sources
carry themselves. `owner` is the owner map of R468. -/
structure Parts where
  parts     : Tab Part
  owner     : Tab (Option Nat)
  procs     : List ProcShare
  ports     : List UnitShare
  engines   : List UnitShare
  shareJobs : List ShareJob
  deriving DecidableEq, Repr

/-- A key slot (R524): its partition, key type and material. -/
structure KeySlot where
  part  : Nat
  type  : Nat
  bytes : Bytes
  deriving DecidableEq, Repr

/-- An engine request accepted and not completed (R495): the partition, opcode, request block and asker. -/
structure EngReq where
  part  : Nat
  op    : BitVec 16
  block : Bytes
  armed : Bool
  who   : Asker
  deriving DecidableEq, Repr

/-- A stream whose state the engines have saved to a state area (R507): the opcode, MODE [7:0], the level, the input
so far, the flushes as (position, kind), and the output bytes already written. -/
structure Stream where
  op      : BitVec 16
  form    : Nat
  level   : Nat
  input   : Bytes
  marks   : List (Nat × Nat)
  written : Nat
  deriving DecidableEq, Repr

/-- The deficit round robin of one unit of an engine (R499, R500): each partition's deficit in bytes and work
already done on its oldest request, and the partitions still to be served in this round. -/
structure Drr where
  deficit : Tab Int
  done    : Tab Nat
  round   : List Nat
  deriving DecidableEq, Repr

/-- The CTR_DRBG of a cryptography engine (R529). -/
structure Drbg where
  key     : Bytes
  v       : Bytes
  counter : Nat
  deriving DecidableEq, Repr

/-- An engine (R534): 0 to 3 compression, 4 to 7 cryptography. `entropyDead` says that an entropy test has failed since
the last RESET (R530), `afterFault` that the last RESET was from FAULTED (R519). -/
structure Engine where
  startup  : Bool
  test     : Bool
  recovery : Bool
  checkSeen : Bool
  limitSeen : Bool
  addressSeen : Bool
  entropyFail : Bool
  requests : BitVec 32
  checkFails : BitVec 16
  limitStops : BitVec 16
  queue    : List EngReq
  drr      : Drr
  drrPk    : Drr
  slots    : Tab (Option KeySlot)
  drbg     : Option Drbg
  entropyDead : Bool
  afterFault : Bool
  deriving DecidableEq, Repr

/-- A bundle member as this module sees it (R580, R587); `refused` while the manifest that it has sent is refused (R582). -/
structure Member where
  manifest : Option Bytes
  admitted : Bool
  refused  : Bool
  fence    : BitVec 4
  failed   : Bool
  lastHeard : Nat
  deriving DecidableEq, Repr

/-- BSTATE of the membership (R593). -/
inductive BState where
  | standalone | forming | member | fenced
  deriving DecidableEq, Repr

/-- A command to the module's bundle that its members are carrying out (R41, R56, R57, R66). `top` is the packet that a ring or
another member carried, `level` the FORWARDs around `inner`, the command's own bytes (1023 where `top` is that command
itself, passed on for another member). `trial` says that its members are only asked whether they would refuse. `waits` are the
members that have not replied, `got` the replies, as (member, status, detail, results), and `owed` the members
whose completions have not come; `dead` are the FAULTED members, and `bad` says that a completion reported an error. `undo`
holds the packet that takes a second round back, and the answer that follows (log entry 126). -/
structure GroupCmd where
  top   : Pkt
  level : Nat
  inner : Bytes
  trial : Bool
  members : List Nat
  waits : List Nat
  got   : List (Nat × Nat × Nat × Bytes)
  replied : Bool
  owed  : List Nat
  dead  : List Nat
  bad   : Bool
  undo  : Option (Bytes × Nat × Nat × Bytes)
  deriving DecidableEq, Repr

/-- The packet that the members have been sent last. -/
def GroupCmd.asks (g : GroupCmd) : Bytes := (g.undo.map Prod.fst).getD g.inner

/-- A command whose reply waits: an EVENT_SEND that other members have not all acknowledged (R590), a START_IO whose entry the
mirror partner has not acknowledged (R390, R413), or a JOURNAL_READ of the bundle copy that waits for memory (R28, R306). `top` and `level` are as in `GroupCmd`, with 1022 for a command by
itself; `op` its opcode; `word` its parameter word, or the entry; then the members still to answer and the mask of those
not reached. -/
structure EventWait where
  op     : Nat
  top    : Pkt
  level  : Nat
  inner  : Bytes
  word   : Word
  waits  : List Nat
  missed : Nat
  deriving DecidableEq, Repr

/-- The bundle membership (R572, R593). `cfg` holds the 192 parameter bytes in force; `outbound` the bundle messages to be
sent, as (member, content), and `transit` those of other members to be passed on, as (member, bytes on the line) (R576). `forwards` holds the FORWARD packets whose member has not replied (R579), each with its member (16
for the parent) plus 32 for each FORWARD around it; 32,768 more where the inner reply was ACCEPTED and its completion is
still owed (R662); 1,023 for the count of FORWARDs marks a packet passed on for another member (R44). `groups` and `sends` are the
bundle's commands and the EVENT_SENDs under way. `askers` are the members that are owed completions of packets executed for them, with their tags. -/
structure Bundle where
  cfg      : Option Bytes
  bstate   : BState
  coordinator : Bool
  index    : Nat
  feature  : Byte
  fenceWhy : BitVec 4
  refusedDigest : Bool
  refusedVersion : Bool
  portMismatch : Bool
  fenceSeen : Bool
  epoch    : Word
  offset   : Int
  adjLeft  : Int
  members  : Tab Member
  sentManifest : Option (Bytes × Nat)
  outbound : List (Nat × Bytes)
  transit : List (Nat × Bytes)
  forwards : List (Nat × Pkt)
  askers   : List (Nat × BitVec 32)
  groups   : List GroupCmd
  sends    : List EventWait
  deriving DecidableEq, Repr

/-- A fault reporter (R618) but for what R595 fixes. `nextQuiet` is a QUIET for the next tick; `quietAt` the expiry of
the quiet timer, `expiring` that it has expired in this tick, and `quietLeft` what is left of it while it is held (R599). `fault` is a report that Tansy has not
recorded (R596) and `stopped` the processors that the fault stops, as (partition, cell); `badAt` the tick of the last sample
of 00 or 11; `idle` the tick since which a broken reporter has been idle (R598). `order`, `lastBroken`, `lastEsc`,
`targets`, `procStop` and `cell` describe its unacknowledged faults of its last level (R668). `sampled` is the tick of the last (1,0) that was recorded (R596). -/
structure Reporter where
  quiet      : Nat
  lastLevel  : Nat
  active     : Bool
  esc        : Nat
  faultSeen  : Bool
  broken     : Bool
  brokenSeen : Bool
  glitchSeen : Bool
  recoveries : BitVec 16
  faults     : BitVec 16
  nextQuiet  : Option Nat
  quietAt    : Option Nat
  expiring   : Bool
  quietLeft  : Option Nat
  fault      : Bool
  stopped    : List (Nat × Nat)
  badAt      : Option Nat
  idle       : Nat
  order      : Nat
  lastBroken : Bool
  lastEsc    : Bool
  targets    : List Nat
  procStop   : Bool
  cell       : Nat
  sampled    : Option Nat
  deriving DecidableEq, Repr

/-- A reaction due in the next tick (R607). -/
structure Reaction where
  reporter : Nat
  level    : Nat
  escBefore : Nat
  escalated : Bool
  broken   : Bool
  targets  : List Nat
  procStop : Bool
  cell     : Nat
  deriving DecidableEq, Repr

/-- Tansy (R617). -/
structure Tansy where
  reps       : Tab Reporter
  errLatch   : Bool
  pulseEnd   : Option Nat
  mcHalt     : Bool
  levelSeen  : BitVec 5
  block0Lost : Bool
  block1Lost : Bool
  snapAt     : Tab Nat
  orderNext  : Nat
  reactions  : List Reaction
  errN       : Bool
  deriving DecidableEq, Repr

/-- A sensor (R620, R642). -/
structure Sensor where
  reading : BitVec 32
  above   : Bool
  below   : Bool
  crossed : Bool
  invalid : Bool
  high    : BitVec 32
  low     : BitVec 32
  nextThr : Option (BitVec 32 × BitVec 32)
  deriving DecidableEq, Repr

/-- A log record (R623) less its CRC, which is computed over its bytes. -/
structure LogRec where
  tb    : Word
  seq   : BitVec 32
  kind  : Byte
  level : Byte
  code  : BitVec 16
  cell  : BitVec 32
  data  : Word
  deriving DecidableEq, Repr

/-- A copy of the boot record (R631). -/
structure BootRec where
  valid  : Bool
  gen    : BitVec 32
  prefer : Bool
  trial  : Bool
  tries  : Nat
  deriving DecidableEq, Repr

/-- The fuses (R630). -/
structure Fuses where
  serial  : Word
  revoked : BitVec 4
  svn     : Nat
  debugDisabled : Bool
  deriving DecidableEq, Repr

/-- Vixia (R623 to R642). `slots` holds the images of slot A (keys 1 to 5) and slot B (keys 11 to 15);
`order` a revocation order carried by the update in progress; `measured` the digest, KIND, VERSION and SVN of
each index of R633; `epochDue` what EPOCH has increased without a record yet (R625); `up` that stage-1 runs; `unwrapped` that Vixia's SRAM holds the private half of the identity key (R634). -/
structure Vixia where
  bootStep  : Nat
  slot      : Bool
  trial     : Bool
  recovery  : Bool
  imageRefused : Bool
  rollbackSeen : Bool
  logDroppedSeen : Bool
  restarts  : BitVec 16
  dropped   : BitVec 16
  nextSeq   : BitVec 32
  ringLog   : List LogRec
  buffer    : List LogRec
  persistent : List LogRec
  droppedDue : Nat
  epochDue  : Nat
  rec0      : BootRec
  rec1      : BootRec
  slots     : Tab Bytes
  order     : Option Bytes
  updated   : List Nat
  fuses     : Fuses
  measured  : Tab Bytes
  commit    : Option (Bool × Asker)
  sensors   : Tab Sensor
  power     : List Nat
  up        : Bool
  answers   : List Bytes
  stepFailed : Bool
  unwrapped : Bool
  deriving DecidableEq, Repr

/-- The heartbeat domain (R16 to R23). `sinceAdjust` counts the ticks since the last adjusted one; `loadClosed` says that
step 5 of power-up has begun since PWR_OK rose, which closes the load of the timebase (R17). -/
structure Clock where
  tb          : Word
  tbBefore    : Word
  ticks       : Nat
  sinceAdjust : Nat
  tbLoaded    : Bool
  loadClosed  : Bool
  backup      : Bool
  deriving DecidableEq, Repr

/-- The instruction in force at the test access port (R656, R657). -/
inductive Jtag where
  | idcode | bypass | samplePreload | extest | extestPulse | extestTrain
  deriving DecidableEq, Repr

/-- The pins and what drives them (R645 to R651, R654, R657). -/
structure Pins where
  pwrOk     : Bool
  ready     : Bool
  thermtrip : Bool
  enIo      : Bool
  enCmp     : Bool
  pgIo      : Bool
  pgCmp     : Bool
  enIoAt    : Nat
  enCmpAt   : Nat
  vid       : Tab (BitVec 7)
  jtag      : Jtag
  boundary  : Bytes
  captured  : Bytes
  deriving DecidableEq, Repr

/-- A cell at reset: STOPPED, AUTO, no holds. -/
def Cell.reset : Cell :=
  { st := .stopped, manual := false, idleUs := 0, nextPolicy := none, cmdHold := 0, bindHold := 0,
    waking := false, idleFrom := 0, sleepAsked := false, staged := none, stops := [] }

/-- A ring at reset (R67, R68). -/
def Ring.reset : Ring :=
  { enable := false, halted := false, log2 := 0, authMax := 0, haltStatus := 0, cmdBase := 0, replyBase := 0,
    cmdCons := 0, cmdProd := 0, replyProd := 0, replyCons := 0, eventQueue := 0, eventPrio := 0,
    outstanding := 0, outbox := [], kept := false }

/-- A queue's settings at reset (R460). -/
def QueueCfg.reset : QueueCfg :=
  { capacity := 256, thresh := 1, staleT := 0, line := 0, intrEn := false, noticeOn := false, proc := 0 }

/-- A queue at reset (R460). -/
def Queue.reset : Queue :=
  { cfg := QueueCfg.reset, nextTune := none, items := [], pend := [], ordNext := 0, stale := false,
    staleAt := none, staleDone := false, heldExpiry := false, expiring := false, rose := false, lostNext := 0, resetSeen := false, ptrMismatch := false,
    itemUe := false, fullSeen := false, resets := 0, staleNotices := 0, fullWaits := 0, owner := none }

/-- A source at reset (R443). -/
def Source.reset : Source :=
  { queue := 0, prio := 0, enable := false, owner := none, backlog := [], fullAt := [], lostAt := [], acc := none }

/-- A timer compare unit at reset (R461). -/
def Timer.reset : Timer :=
  { compare := 0, period := 0, missed := 0, owner := none, expired := false, lastCompare := 0, next := none }

/-- A partition's settings at reset (R472, R477). -/
def PartCfg.reset : PartCfg :=
  { htroot := 0, entryPc := 0, stackBase := 0, stackStride := 0, procsMax := 0, ringAuth := 0, mboxBase := 0,
    mboxLog2 := 0, mgrProcs := 0 }

/-- A partition at reset. -/
def Part.reset : Part := { cfg := PartCfg.reset, hostStage := false, started := false }

/-- The partitions at reset: nothing assigned. -/
def Parts.reset : Parts :=
  { parts := [], owner := [], procs := [], ports := [], engines := [], shareJobs := [] }

/-- An engine at reset (R534). -/
def Engine.reset : Engine :=
  { startup := true, test := false, recovery := false, checkSeen := false, limitSeen := false,
    addressSeen := false, entropyFail := false, requests := 0, checkFails := 0, limitStops := 0, queue := [],
    drr := ⟨[], [], []⟩, drrPk := ⟨[], [], []⟩, slots := [], drbg := none, entropyDead := false, afterFault := false }

/-- A member not heard of. -/
def Member.reset : Member :=
  { manifest := none, admitted := false, refused := false, fence := 0, failed := false, lastHeard := 0 }

/-- The membership at reset (R593). -/
def Bundle.reset : Bundle :=
  { cfg := none, bstate := .standalone, coordinator := false, index := 0, feature := 0, fenceWhy := 0,
    refusedDigest := false, refusedVersion := false, portMismatch := false, fenceSeen := false, epoch := 0,
    offset := 0, adjLeft := 0, members := [], sentManifest := none, outbound := [], transit := [], forwards := [], askers := [],
    groups := [], sends := [] }

/-- A reporter at reset: QUIET 100 (R618). -/
def Reporter.reset : Reporter :=
  { quiet := 100, lastLevel := 0, active := false, esc := 0, faultSeen := false, broken := false,
    brokenSeen := false, glitchSeen := false, recoveries := 0, faults := 0, nextQuiet := none,
    quietAt := none, expiring := false, quietLeft := none, fault := false, stopped := [], badAt := none, idle := 0, order := 0,
    lastBroken := false, lastEsc := false, targets := [], procStop := false, cell := 0, sampled := none }

/-- Tansy at reset: ERR_N released (R617, R651). -/
def Tansy.reset : Tansy :=
  { reps := [], errLatch := false, pulseEnd := none, mcHalt := false, levelSeen := 0, block0Lost := false,
    block1Lost := false, snapAt := [], orderNext := 0, reactions := [], errN := true }

/-- The upper and lower ±4% limits of a compute die's rail, in mV, for its VID code (R645, R646): no reading in whole mV lies
between a limit and its rounding here. -/
def coreLimits (vid : Nat) : Int × Int :=
  let set : Nat := 600 + 5 * vid
  (Int.ofNat (set * 104 / 100), Int.ofNat ((set * 96 + 99) / 100))

/-- A sensor at reset but for its thresholds (R622, R646). -/
def Sensor.reset (source : Nat) : Sensor :=
  let thr : Int × Int :=
    if source < 0x980 then (95000, -2147483648)
    else if source < 0x998 then
      let v := source - 0x980
      if v < 4 then coreLimits (Config.fuseVid v).toNat else if v < 6 then (780, 720) else if v < 8 then (832, 768)
      else if v < 10 then (1248, 1152) else if v < 12 then (1144, 1056) else if v < 13 then (832, 768)
      else if v < 14 then (1872, 1728) else (0, 0)
    else if source < 0x9B0 then
      let v := source - 0x998
      (if v < 4 then 450000 else if v < 6 then 130000 else if v < 8 then 180000 else if v < 10 then 30000
       else if v < 12 then 100000 else if v < 13 then 20000 else if v < 14 then 3000 else 0, -2147483648)
    else (2100000, -2147483648)
  { reading := 0, above := false, below := false, crossed := false, invalid := false,
    high := BitVec.ofInt 32 thr.1, low := BitVec.ofInt 32 thr.2, nextThr := none }

/-- A boot record copy on a blank flash: its check fails. -/
def BootRec.blank : BootRec := { valid := false, gen := 0, prefer := false, trial := false, tries := 0 }

/-- Vixia at reset (R642): fuses as at manufacture (log entry 6), flash blank. -/
def Vixia.reset : Vixia :=
  { bootStep := 0, slot := false, trial := false, recovery := false, imageRefused := false,
    rollbackSeen := false, logDroppedSeen := false, restarts := 0, dropped := 0, nextSeq := 0, ringLog := [],
    buffer := [], persistent := [], droppedDue := 0, epochDue := 0, rec0 := BootRec.blank, rec1 := BootRec.blank, slots := [],
    order := none, updated := [], fuses := { serial := 0, revoked := 0, svn := 0, debugDisabled := true },
    measured := [], commit := none, sensors := [], power := [], up := false, answers := [],
    stepFailed := false, unwrapped := false }

/-- The heartbeat domain at reset: the timebase is 0 (R17). -/
def Clock.reset : Clock :=
  { tb := 0, tbBefore := 0, ticks := 0, sinceAdjust := 1024, tbLoaded := false, loadClosed := false, backup := false }

/-- The pins while PWR_OK is low (R651). -/
def Pins.reset : Pins :=
  { pwrOk := false, ready := false, thermtrip := false, enIo := false, enCmp := false, pgIo := false,
    pgCmp := false, enIoAt := 0, enCmpAt := 0, vid := [], jtag := .idcode, boundary := [], captured := [] }

end Sys2Proof.Machine
end

