-- ==== Sys2Proof/Machine/State.lean ====
section
/-! DEFINITION. The state of the module, as plain data: everything the spec gives it, the queue of commands
that wait, and the reasons for which a command could stop the machine. -/

namespace Sys2Proof.Machine

/-- The module. `pending` is the queue of waiting commands, first in first out. `cells` is keyed by cell number
(R48), `rings` by 16n + r with Vixia's internal ring at 1,024, `cores` and `pairs` as CoreId and PairId.
`turn` is the ring taken first in the last round (R664). `areas` are the streams whose states the engines have saved, in
order of time. `bus` holds the value that the last pop, peek or
register load returned, and `free` counts the open values used (log entry 3). -/
structure State where
  pending : List Instr
  clock   : Clock
  cells   : Tab Cell
  rings   : Tab Ring
  turn    : Nat
  claims  : List Claim
  cores   : Tab Core
  pairs   : Tab Pair
  spares  : Tab (Option Nat)
  caches  : Caches
  mem     : Mem
  io      : Io
  queues  : Tab Queue
  sources : Tab Source
  timers  : Tab Timer
  parts   : Parts
  engines : Tab Engine
  areas   : List Stream
  bundle  : Bundle
  tansy   : Tansy
  vixia   : Vixia
  pins    : Pins
  bus     : Word
  free    : Nat
  deriving DecidableEq, Repr

/-- The machine stops with a fault. No meaning raises one: the spec gives every row of the table an effect. -/
inductive Fault where
  /-- Raised by nothing; kept so that the type has a member. Safe. -/
  | none
  deriving DecidableEq, Repr

/-- A command without a meaning. -/
inductive Refusal where
  /-- Raised by an arm of exec whose instruction has no meaning yet, named as the table names it. Safe. -/
  | notModelled (mnemonic : String)
  deriving DecidableEq, Repr

/-- The module after reset: PWR_OK is low, every cell is reset, nothing waits (R651). -/
def State.reset : State :=
  { pending := [], clock := Clock.reset, cells := [], rings := [], turn := 0, claims := [], cores := [],
    pairs := [], spares := [], caches := Caches.reset, mem := Mem.reset, io := Io.reset, queues := [],
    sources := [], timers := [], parts := Parts.reset, engines := [], areas := [], bundle := Bundle.reset,
    tansy := Tansy.reset, vixia := Vixia.reset, pins := Pins.reset, bus := 0, free := 0 }

end Sys2Proof.Machine
end

