-- ==== Sys2Proof/Machine/Bits.lean ====
section
/-! DEFINITION. Bytes, fields and check values: big-endian numbers (R6), the header CRC-16 (R59), the CRCs of
R363, and the checksums of the compressed formats. -/

namespace Sys2Proof.Machine

/-- The number in bits [hi:lo] of a word (R5). -/
def bits {w : Nat} (x : BitVec w) (hi lo : Nat) : Nat := (x.toNat >>> lo) % 2 ^ (hi + 1 - lo)

/-- The big-endian bytes of a number, `n` of them (R6). -/
def beBytes : Nat → Nat → Bytes
  | 0, _ => []
  | n + 1, x => BitVec.ofNat 8 (x >>> (8 * n)) :: beBytes n x

/-- The number that big-endian bytes hold. -/
def beNat (bs : Bytes) : Nat := bs.foldl (fun n b => n * 256 + b.toNat) 0

/-- The little-endian bytes of a number. -/
def leBytes (n x : Nat) : Bytes := (beBytes n x).reverse

/-- The number that little-endian bytes hold. -/
def leNat (bs : Bytes) : Nat := beNat bs.reverse

/-- `n` bytes of a run from an offset. -/
def slice (bs : Bytes) (off n : Nat) : Bytes := (bs.drop off).take n

/-- Word `i` of a run of big-endian words. -/
def wordAt (bs : Bytes) (i : Nat) : Word := BitVec.ofNat 64 (beNat (slice bs (8 * i) 8))

/-- The number in `n` bytes at an offset. -/
def numAt (bs : Bytes) (off n : Nat) : Nat := beNat (slice bs off n)

/-- A big-endian word. -/
def wordBytes (w : Word) : Bytes := beBytes 8 w.toNat

/-- Zero bytes. -/
def zeros (n : Nat) : Bytes := List.replicate n 0

/-- Pad with zero bytes to a length. -/
def padTo (n : Nat) (bs : Bytes) : Bytes := bs ++ zeros (n - bs.length)

/-- Pad with zero bytes to a multiple of 8. -/
def pad8 (bs : Bytes) : Bytes := bs ++ zeros ((8 - bs.length % 8) % 8)

/-- Every byte is zero. -/
def allZero (bs : Bytes) : Bool := bs.all (· == 0)

/-- Put bytes over a run at an offset. -/
def overlay (bs : Bytes) (off : Nat) (new : Bytes) : Bytes :=
  bs.take off ++ new ++ bs.drop (off + new.length)

/-- The bits that the field from bit `lo` can take before the next field of the list begins. -/
def fieldWidth (fs : List (Nat × Nat)) (lo : Nat) : Nat :=
  fs.foldl (fun m f => if lo < f.1 then min m f.1 else m) 64 - lo

/-- Build a word from fields given as (lowest bit, value), each cut off where the next one begins. -/
def pack (fs : List (Nat × Nat)) : Word :=
  BitVec.ofNat 64 (fs.foldl (fun n f => n + (f.2 % 2 ^ fieldWidth fs f.1) <<< f.1) 0)

/-- A truth value as a number. -/
def b1 (b : Bool) : Nat := if b then 1 else 0

/-- A number read as two's complement of `w` bits. -/
def toSigned (w x : Nat) : Int := (BitVec.ofNat w x).toInt

/-- `n` bit steps of a CRC that takes the most significant bit first, of width `w`. -/
def crcStepsMsb (w poly : Nat) : Nat → Nat → Nat
  | 0, r => r
  | n + 1, r =>
    crcStepsMsb w poly n
      (if r.testBit (w - 1) then ((r <<< 1) % 2 ^ w) ^^^ poly else (r <<< 1) % 2 ^ w)

/-- A CRC that takes each byte most significant bit first. -/
def crcMsb (w poly init : Nat) (bs : Bytes) : Nat :=
  bs.foldl (fun r b => crcStepsMsb w poly 8 (r ^^^ (b.toNat <<< (w - 8)))) init

/-- `n` bit steps of a reflected CRC. -/
def crcStepsLsb (poly : Nat) : Nat → Nat → Nat
  | 0, r => r
  | n + 1, r => crcStepsLsb poly n (if r.testBit 0 then (r >>> 1) ^^^ poly else r >>> 1)

/-- A CRC that takes each byte least significant bit first. -/
def crcLsb (poly init : Nat) (bs : Bytes) : Nat :=
  bs.foldl (fun r b => crcStepsLsb poly 8 (r ^^^ b.toNat)) init

/-- The header CRC-16 (R59). -/
def crc16 (bs : Bytes) : Nat := crcMsb 16 0x1021 0xFFFF bs

/-- CRC-32C (R363). -/
def crc32c (bs : Bytes) : Nat := crcLsb 0x82F63B78 0xFFFFFFFF bs ^^^ 0xFFFFFFFF

/-- Fineno CRC-64 (R363). -/
def crc64 (bs : Bytes) : Nat :=
  crcMsb 64 0x42F0E1EBA9EA3693 0xFFFFFFFFFFFFFFFF bs ^^^ 0xFFFFFFFFFFFFFFFF

/-- The CRC-32 of gzip and of the Ethernet frame check sequence. -/
def crc32 (bs : Bytes) : Nat := crcLsb 0xEDB88320 0xFFFFFFFF bs ^^^ 0xFFFFFFFF

/-- The Adler-32 checksum of zlib. -/
def adler32 (bs : Bytes) : Nat :=
  let p := bs.foldl (fun (p : Nat × Nat) b =>
    let a := (p.1 + b.toNat) % 65521
    (a, (p.2 + a) % 65521)) (1, 0)
  p.2 <<< 16 ||| p.1

end Sys2Proof.Machine
end

