-- ==== Sys2Proof/Machine/Crypto.lean ====
section
/-! DEFINITION. The algorithms that the cryptography engine implements (R521 to R523, R529): AES and its modes, SHA-2
and HMAC, RSA, ECDSA over P-256 and P-384, and the CTR_DRBG of SP 800-90A. -/

namespace Sys2Proof.Machine

/-- Bytes exclusive-ored, to the length of the shorter. -/
def xorBytes (a b : Bytes) : Bytes := List.zipWith (· ^^^ ·) a b

/-- Cut a run into pieces of `k` bytes, the last of them shorter where need be. -/
def chunksOf (k : Nat) : Nat → Bytes → List Bytes
  | 0, _ => []
  | f + 1, bs => if bs.isEmpty then [] else bs.take k :: chunksOf k f (bs.drop k)

/-- The 16-byte blocks of a run. -/
def blocks16 (bs : Bytes) : List Bytes := chunksOf 16 bs.length bs

/-! ### AES (FIPS 197) -/

def xtime (b : Byte) : Byte := (b <<< 1) ^^^ (if b.getLsbD 7 then 0x1B else 0)

/-- The product of two bytes in GF(2^8), over the `n` lowest bits of the second. -/
def gmul : Nat → Byte → Byte → Byte
  | 0, _, _ => 0
  | n + 1, a, b => (if b.getLsbD 0 then a else 0) ^^^ gmul n (xtime a) (b >>> 1)

def gmul8 (a b : Byte) : Byte := gmul 8 a b

/-- The inverse in GF(2^8), 0 for 0: the power 254. -/
def ginv (a : Byte) : Byte :=
  let a2 := gmul8 a a
  let a3 := gmul8 a2 a
  let a6 := gmul8 a3 a3
  let a12 := gmul8 a6 a6
  let a15 := gmul8 a12 a3
  let a30 := gmul8 a15 a15
  let a60 := gmul8 a30 a30
  let a120 := gmul8 a60 a60
  let a126 := gmul8 a120 a6
  let a127 := gmul8 a126 a
  gmul8 a127 a127

def sbox (b : Byte) : Byte :=
  let i := ginv b
  i ^^^ i.rotateLeft 1 ^^^ i.rotateLeft 2 ^^^ i.rotateLeft 3 ^^^ i.rotateLeft 4 ^^^ 0x63

def invSbox (b : Byte) : Byte := ginv (b.rotateLeft 1 ^^^ b.rotateLeft 3 ^^^ b.rotateLeft 6 ^^^ 0x05)

/-- Extend a key schedule by `n` words of 4 bytes; `nk` is the words of the key. -/
def keyWords (nk : Nat) : Nat → Byte → List Bytes → List Bytes
  | 0, _, ws => ws
  | n + 1, rcon, ws =>
    let i := ws.length
    let t := ws.getLastD []
    let first := i % nk == 0
    let t := if first then
        match (t.drop 1 ++ t.take 1).map sbox with
        | a :: r => (a ^^^ rcon) :: r
        | [] => []
      else if nk = 8 ∧ i % 8 = 4 then t.map sbox
      else t
    keyWords nk n (if first then xtime rcon else rcon) (ws ++ [xorBytes (ws.getD (i - nk) []) t])

/-- The round keys of a 16-byte or 32-byte key. -/
def roundKeys (key : Bytes) : List Bytes :=
  let nk := key.length / 4
  blocks16 (keyWords nk (4 * (nk + 7) - nk) 1 (chunksOf 4 nk key)).flatten

/-- Bytes of a block taken from the places that a list names. -/
def pick (places : List Nat) (b : Bytes) : Bytes := places.map fun i => b.getD i 0

def shiftRows : Bytes → Bytes := pick [0, 5, 10, 15, 4, 9, 14, 3, 8, 13, 2, 7, 12, 1, 6, 11]
def invShiftRows : Bytes → Bytes := pick [0, 13, 10, 7, 4, 1, 14, 11, 8, 5, 2, 15, 12, 9, 6, 3]

/-- Multiply each column by the circulant matrix whose first row is given. -/
def mixWith (row : List Byte) (b : Bytes) : Bytes :=
  (List.range 16).map fun i =>
    (List.range 4).foldl (fun x j => x ^^^ gmul8 (b.getD (i / 4 * 4 + j) 0) (row.getD ((j + 4 - i % 4) % 4) 0)) 0

/-- Encrypt one block. -/
def aesEnc (key block : Bytes) : Bytes :=
  match roundKeys key with
  | [] => block
  | k0 :: ks =>
    let b := ks.dropLast.foldl (fun b k => xorBytes (mixWith [2, 3, 1, 1] (shiftRows (b.map sbox))) k) (xorBytes block k0)
    xorBytes (shiftRows (b.map sbox)) (ks.getLastD [])

/-- Decrypt one block. -/
def aesDec (key block : Bytes) : Bytes :=
  match (roundKeys key).reverse with
  | [] => block
  | k0 :: ks =>
    let b := ks.dropLast.foldl (fun b k => mixWith [14, 11, 13, 9] (xorBytes ((invShiftRows b).map invSbox) k))
      (xorBytes block k0)
    xorBytes ((invShiftRows b).map invSbox) (ks.getLastD [])

/-! ### Modes -/

/-- CBC encryption: the output blocks, the last of them the next chaining value. -/
def cbcEnc (key iv data : Bytes) : Bytes :=
  ((blocks16 data).foldl (fun (p : Bytes × Bytes) b =>
    let c := aesEnc key (xorBytes b p.2)
    (p.1 ++ c, c)) ([], iv)).1

/-- CBC decryption. -/
def cbcDec (key iv data : Bytes) : Bytes :=
  ((blocks16 data).foldl (fun (p : Bytes × Bytes) b => (p.1 ++ xorBytes (aesDec key b) p.2, b)) ([], iv)).1

/-- One data unit of XTS: `t` is the encrypted tweak. -/
def xtsUnit (crypt : Bytes → Bytes) (t data : Bytes) : Bytes :=
  ((blocks16 data).foldl (fun (p : Bytes × Bytes) b =>
    let n := leNat p.2 * 2
    let n := if 2 ^ 128 ≤ n then (n - 2 ^ 128) ^^^ 0x87 else n
    (p.1 ++ xorBytes (crypt (xorBytes b p.2)) p.2, leBytes 16 n)) ([], t)).1

/-- XTS over data units of `unit` bytes (IEEE 1619): the tweak counts up, least significant byte first. -/
def xts (decrypt : Bool) (key tweak data : Bytes) (unit : Nat) : Bytes :=
  let k1 := key.take (key.length / 2)
  let k2 := key.drop (key.length / 2)
  let crypt := if decrypt then aesDec k1 else aesEnc k1
  ((chunksOf unit data.length data).foldl (fun (p : Bytes × Nat) u =>
    (p.1 ++ xtsUnit crypt (aesEnc k2 (leBytes 16 (p.2 % 2 ^ 128))) u, p.2 + 1)) ([], leNat tweak)).1

/-- `n` steps of the product in the field of GHASH (SP 800-38D). -/
def ghashMul : Nat → Nat → Nat → Nat → Nat
  | 0, _, _, z => z
  | n + 1, x, v, z =>
    ghashMul n x (if v.testBit 0 then (v >>> 1) ^^^ (0xE1 <<< 120) else v >>> 1) (if x.testBit n then z ^^^ v else z)

/-- GHASH of whole blocks. -/
def ghash (h : Nat) (bs : List Bytes) : Nat := bs.foldl (fun y b => ghashMul 128 (y ^^^ beNat b) h 0) 0

/-- Fill a run with zero bytes to whole blocks. -/
def pad16 (bs : Bytes) : Bytes := bs ++ zeros ((16 - bs.length % 16) % 16)

/-- The key stream of counter mode from a 12-byte IV and a counter, over data. -/
def gcmCtr (key iv data : Bytes) : Bytes :=
  ((blocks16 data).foldl (fun (p : Bytes × Nat) b =>
    (p.1 ++ xorBytes b (aesEnc key (iv ++ beBytes 4 p.2)), (p.2 + 1) % 2 ^ 32)) ([], 2)).1

/-- The tag of a ciphertext. -/
def gcmTag (key iv aad c : Bytes) : Bytes :=
  let h := beNat (aesEnc key (zeros 16))
  let lens := beBytes 8 (8 * aad.length) ++ beBytes 8 (8 * c.length)
  xorBytes (beBytes 16 (ghash h (blocks16 (pad16 aad ++ pad16 c ++ lens)))) (aesEnc key (iv ++ beBytes 4 1))

/-! ### SHA-2 and HMAC (FIPS 180-4, FIPS 198-1) -/

/-- The first eighty primes. -/
def primes80 : List Nat :=
  ((List.range 410).filter fun n => decide (2 ≤ n) && (List.range n).all fun d => decide (d < 2) || n % d != 0).take 80

/-- The greatest `x` below 2^n + base with x^k at most `v`. -/
def rootBits (k v : Nat) : Nat → Nat → Nat
  | 0, x => x
  | n + 1, x => rootBits k v n (if (x + 2 ^ n) ^ k ≤ v then x + 2 ^ n else x)

/-- The first 64 bits of the fractional part of a root of a prime. -/
def rootFrac (k p : Nat) : Nat := rootBits k (p * 2 ^ (64 * k)) 70 0 % 2 ^ 64

def shaK : List Nat := primes80.map (rootFrac 3)
def shaIv256 : List Nat := (primes80.take 8).map fun p => rootFrac 2 p / 2 ^ 32
def shaIv384 : List Nat := ((primes80.drop 8).take 8).map (rootFrac 2)

/-- What sets the two hash functions apart: the word width, the rounds, the rotations and the constants. -/
structure Sha where
  w   : Nat
  k   : List Nat
  iv  : List Nat
  s0  : Nat × Nat × Nat
  s1  : Nat × Nat × Nat
  m0  : Nat × Nat × Nat
  m1  : Nat × Nat × Nat
  out : Nat

def sha256p : Sha :=
  { w := 32, k := (shaK.take 64).map (· / 2 ^ 32), iv := shaIv256, s0 := (2, 13, 22), s1 := (6, 11, 25),
    m0 := (7, 18, 3), m1 := (17, 19, 10), out := 32 }

def sha384p : Sha :=
  { w := 64, k := shaK, iv := shaIv384, s0 := (28, 34, 39), s1 := (14, 18, 41), m0 := (1, 8, 7), m1 := (19, 61, 6),
    out := 48 }

/-- Rotate right. -/
def Sha.rotr (h : Sha) (x n : Nat) : Nat := (x >>> n) ||| ((x <<< (h.w - n)) % 2 ^ h.w)

def Sha.big (h : Sha) (r : Nat × Nat × Nat) (x : Nat) : Nat := h.rotr x r.1 ^^^ h.rotr x r.2.1 ^^^ h.rotr x r.2.2
def Sha.small (h : Sha) (r : Nat × Nat × Nat) (x : Nat) : Nat := h.rotr x r.1 ^^^ h.rotr x r.2.1 ^^^ (x >>> r.2.2)

/-- The message schedule extended by `n` words. -/
def Sha.schedule (h : Sha) : Nat → List Nat → List Nat
  | 0, ws => ws
  | n + 1, ws =>
    let g (i : Nat) : Nat := ws.getD (ws.length - i) 0
    h.schedule n (ws ++ [(h.small h.m1 (g 2) + g 7 + h.small h.m0 (g 15) + g 16) % 2 ^ h.w])

/-- One block. -/
def Sha.block (h : Sha) (v : List Nat) (b : Bytes) : List Nat :=
  let m := 2 ^ h.w
  let ws := h.schedule (h.k.length - 16) ((chunksOf (h.w / 8) 16 b).map beNat)
  let r := (h.k.zip ws).foldl (fun (r : List Nat) p =>
    match r with
    | [a, b, c, d, e, f, g, x] =>
      let t1 := x + h.big h.s1 e + ((e &&& f) ^^^ ((m - 1 - e) &&& g)) + p.1 + p.2
      let t2 := h.big h.s0 a + ((a &&& b) ^^^ (a &&& c) ^^^ (b &&& c))
      [(t1 + t2) % m, a, b, c, (d + t1) % m, e, f, g]
    | _ => r) v
  List.zipWith (fun x y => (x + y) % m) v r

/-- The digest of a message. -/
def Sha.digest (h : Sha) (msg : Bytes) : Bytes :=
  let n := h.w / 4
  let fill := (2 * (8 * n) - 1 - n - msg.length % (8 * n)) % (8 * n)
  let padded := msg ++ [0x80#8] ++ zeros fill ++ beBytes n (8 * msg.length)
  let v := (chunksOf (8 * n) padded.length padded).foldl h.block h.iv
  (v.flatMap fun x => beBytes (h.w / 8) x).take h.out

def sha256 (msg : Bytes) : Bytes := sha256p.digest msg
def sha384 (msg : Bytes) : Bytes := sha384p.digest msg

/-- HMAC. -/
def Sha.hmac (h : Sha) (key msg : Bytes) : Bytes :=
  let n := 2 * h.w
  let k := padTo n (if n < key.length then h.digest key else key)
  h.digest (k.map (· ^^^ 0x5C) ++ h.digest (k.map (· ^^^ 0x36) ++ msg))

/-! ### RSA (RFC 8017) -/

/-- A power modulo `m`, over `n` bits of the exponent from bit `i`. -/
def powBits (m e : Nat) : Nat → Nat → Nat → Nat
  | 0, _, r => r
  | n + 1, b, r => powBits m e n b (if e.testBit n then r * r % m * b % m else r * r % m)

def powMod (b e m : Nat) : Nat := powBits m e (Nat.log2 e + 1) (b % m) (1 % m)

/-- RSAVP1. -/
def rsaPublic (n e x : Nat) : Nat := powMod x e n

/-- RSASP1 with the quintuple of R525. -/
def rsaPrivate (p q dp dq qinv x : Nat) : Nat :=
  let m1 := powMod x dp p
  let m2 := powMod x dq q
  let h := (m1 + p * m2 - m2 % p) * qinv % p
  m2 + q * h

/-! ### ECDSA (FIPS 186-5) -/

/-- A curve y^2 = x^3 - 3x + b over the integers modulo p, with its base point of order n; `len` is the bytes of a
coordinate. -/
structure Curve where
  p   : Nat
  b   : Nat
  n   : Nat
  gx  : Nat
  gy  : Nat
  len : Nat

def p256 : Curve :=
  { p := 0xffffffff00000001000000000000000000000000ffffffffffffffffffffffff
    b := 0x5ac635d8aa3a93e7b3ebbd55769886bc651d06b0cc53b0f63bce3c3e27d2604b
    n := 0xffffffff00000000ffffffffffffffffbce6faada7179e84f3b9cac2fc632551
    gx := 0x6b17d1f2e12c4247f8bce6e563a440f277037d812deb33a0f4a13945d898c296
    gy := 0x4fe342e2fe1a7f9b8ee7eb4a7c0f9e162bce33576b315ececbb6406837bf51f5
    len := 32 }

def p384 : Curve :=
  { p := 0xfffffffffffffffffffffffffffffffffffffffffffffffffffffffffffffffeffffffff0000000000000000ffffffff
    b := 0xb3312fa7e23ee7e4988e056be3f82d19181d9c6efe8141120314088f5013875ac656398d8a2ed19d2a85c8edd3ec2aef
    n := 0xffffffffffffffffffffffffffffffffffffffffffffffffc7634d81f4372ddf581a0db248b0a77aecec196accc52973
    gx := 0xaa87ca22be8b05378eb1c71ef320ad746e1d3b628ba79b9859f741e082542a385502f25dbf55296c3a545e3872760ab7
    gy := 0x3617de4a96262c6f5d9e98bf9292dc29f8f41dbd289a147ce9da3113b5f0b8c00a60b1ce1d7e819d7a431d7c90ea0e5f
    len := 48 }

/-- A point: none is the point at infinity. -/
abbrev Point := Option (Nat × Nat)

def Curve.inv (c : Curve) (x : Nat) : Nat := powMod x (c.p - 2) c.p

def Curve.sub (c : Curve) (x y : Nat) : Nat := (x + c.p - y % c.p) % c.p

/-- The third point of a line of slope `l` through two points, negated. -/
def Curve.chord (c : Curve) (l x1 y1 x2 : Nat) : Point :=
  let x := c.sub (c.sub (l * l) x1) x2
  some (x, c.sub (l * c.sub x1 x) y1)

def Curve.add (c : Curve) : Point → Point → Point
  | none, q => q
  | p, none => p
  | some (x1, y1), some (x2, y2) =>
    if x1 = x2 then
      if (y1 + y2) % c.p = 0 then none
      else c.chord (c.sub (3 * x1 * x1) 3 * c.inv (2 * y1) % c.p) x1 y1 x2
    else c.chord (c.sub y2 y1 * c.inv (c.sub x2 x1) % c.p) x1 y1 x2

/-- A multiple of a point, over the `n` lowest bits of the scalar. -/
def Curve.mulBits (c : Curve) (k : Nat) (p : Point) : Nat → Point → Point
  | 0, r => r
  | n + 1, r =>
    let r := c.add r r
    c.mulBits k p n (if k.testBit n then c.add r p else r)

def Curve.mul (c : Curve) (k : Nat) (p : Point) : Point := c.mulBits k p (8 * c.len) none

def Curve.base (c : Curve) : Point := some (c.gx, c.gy)

/-- The point lies on the curve. -/
def Curve.has (c : Curve) (x y : Nat) : Bool :=
  decide (x < c.p ∧ y < c.p) && y * y % c.p == (c.sub (x * x * x) (3 * x) + c.b) % c.p

/-- A digest as an integer: its leftmost bits, as many as the order has. -/
def Curve.bits2int (c : Curve) (d : Bytes) : Nat := beNat (d.take c.len)

/-- X then Y. -/
def Curve.pointBytes (c : Curve) : Point → Bytes
  | some (x, y) => beBytes c.len x ++ beBytes c.len y
  | none => zeros (2 * c.len)

/-- The hash function that goes with a curve's security strength. -/
def Curve.sha (c : Curve) : Sha := if c.len = 32 then sha256p else sha384p

/-- Candidates for the nonce (RFC 6979, 3.2 h), until one is in range and gives a signature. -/
def Curve.tryNonce (c : Curve) (z d : Nat) : Nat → Bytes → Bytes → Nat × Nat
  | 0, _, _ => (0, 0)
  | f + 1, k, v =>
    let v := c.sha.hmac k v
    let t := c.bits2int v
    let r := ((c.mul t c.base).getD (0, 0)).1 % c.n
    let s := powMod t (c.n - 2) c.n * (z + r * d) % c.n
    if 0 < t ∧ t < c.n ∧ r ≠ 0 ∧ s ≠ 0 then (r, s)
    else
      let k := c.sha.hmac k (v ++ [0])
      c.tryNonce z d f k (c.sha.hmac k v)

/-- A signature with the nonce of RFC 6979, `extra` being added to its seed material (R523). -/
def Curve.sign (c : Curve) (d : Nat) (digest extra : Bytes) : Bytes :=
  let h := c.sha
  let z := c.bits2int digest
  let seed := beBytes c.len d ++ beBytes c.len (z % c.n) ++ extra
  let v := List.replicate h.out 0x01#8
  let k := h.hmac (zeros h.out) (v ++ [0] ++ seed)
  let v := h.hmac k v
  let k := h.hmac k (v ++ [1] ++ seed)
  let v := h.hmac k v
  let (r, s) := c.tryNonce z d 64 k v
  beBytes c.len r ++ beBytes c.len s

/-- The signature verifies. -/
def Curve.verify (c : Curve) (x y : Nat) (digest : Bytes) (r s : Nat) : Bool :=
  let w := powMod s (c.n - 2) c.n
  let u1 := c.bits2int digest * w % c.n
  let u2 := r * w % c.n
  c.has x y && decide (0 < r ∧ r < c.n ∧ 0 < s ∧ s < c.n) &&
    match c.add (c.mul u1 c.base) (c.mul u2 (some (x, y))) with
    | some (v, _) => v % c.n == r
    | none => false

/-! ### The DRBG (SP 800-90A, CTR_DRBG with AES-256 and the derivation function) -/

/-- BCC: the last block of a chain of encryptions. -/
def bcc (key data : Bytes) : Bytes := (blocks16 data).foldl (fun c b => aesEnc key (xorBytes c b)) (zeros 16)

/-- Block_Cipher_df for 48 bytes. -/
def drbgDf (input : Bytes) : Bytes :=
  let s := pad16 (beBytes 4 input.length ++ beBytes 4 48 ++ input ++ [0x80])
  let key := (List.range 32).map (BitVec.ofNat 8)
  let temp := (List.range 3).flatMap fun i => bcc key (beBytes 4 i ++ zeros 12 ++ s)
  let k := temp.take 32
  let x1 := aesEnc k (slice temp 32 16)
  let x2 := aesEnc k x1
  x1 ++ x2 ++ aesEnc k x2

/-- `n` encrypted counter blocks and the counter after them. -/
def ctrBlocks (key : Bytes) : Nat → Bytes → Bytes × Bytes
  | 0, v => ([], v)
  | n + 1, v =>
    let v := beBytes 16 ((beNat v + 1) % 2 ^ 128)
    let r := ctrBlocks key n v
    (aesEnc key v ++ r.1, r.2)

/-- CTR_DRBG_Update: the key and V after it. -/
def drbgUpdate (data key v : Bytes) : Bytes × Bytes :=
  let t := xorBytes (ctrBlocks key 3 v).1 data
  (t.take 32, t.drop 32)

/-- The key and V after instantiation. -/
def drbgInstantiate (entropy nonce pers : Bytes) : Bytes × Bytes :=
  drbgUpdate (drbgDf (entropy ++ nonce ++ pers)) (zeros 32) (zeros 16)

/-- The key and V after a reseed. -/
def drbgReseed (entropy key v : Bytes) : Bytes × Bytes := drbgUpdate (drbgDf entropy) key v

/-- `n` bytes of output, and the key and V after them. -/
def drbgGenerate (n : Nat) (key v : Bytes) : Bytes × Bytes × Bytes :=
  let r := ctrBlocks key ((n + 15) / 16) v
  (r.1.take n, drbgUpdate (zeros 48) key r.2)

end Sys2Proof.Machine
end

