-- ==== Sys2Proof/Machine/Deflate.lean ====
section
/-! DEFINITION. The formats of the compression engine: DEFLATE (RFC 1951) with the zlib, gzip and raw containers of
R506, decoding with the reasons of R516, and the encoder that R509 to R513 lay down. -/

namespace Sys2Proof.Machine

/-- The bits of bytes in DEFLATE's order: the least significant bit of each byte first. -/
def bitsOf (bs : Bytes) : List Bool := bs.flatMap fun b => (List.range 8).map fun i => b.getLsbD i

/-- A number from bits, the least significant first. -/
def lsbNat (l : List Bool) : Nat := l.foldr (fun b n => 2 * n + b1 b) 0

/-- The bits of a number, the least significant first. -/
def lsbBits (n x : Nat) : List Bool := (List.range n).map fun i => x.testBit i

/-- The bits of a Huffman code, the most significant first. -/
def msbBits (n x : Nat) : List Bool := (lsbBits n x).reverse

/-- Whole bytes of a run of bits, the last filled with zeros. -/
def bytesOf : Nat → List Bool → Bytes
  | 0, _ => []
  | f + 1, l => if l.isEmpty then [] else BitVec.ofNat 8 (lsbNat (l.take 8)) :: bytesOf f (l.drop 8)

/-! ### Decoding -/

/-- Why decoding stopped: the end of the stream, the end of the input, a full output, or R516's reason. -/
inductive Halt where
  | fin | more | full
  | bad (reason : Nat)
  deriving DecidableEq, Repr

/-- A decoder: the bits not yet read, the output (newest first) and its length, the most it may hold, and the bits
that were left at the end of the last symbol wholly used. -/
structure Inf where
  bits : List Bool
  out  : Bytes
  n    : Nat
  cap  : Nat
  left : Nat
  deriving DecidableEq, Repr

/-- What a decoding step gives. -/
abbrev Dec (α : Type) := Except (Halt × Inf) α

/-- Read `n` bits as a number. -/
def Inf.take (d : Inf) (n : Nat) : Dec (Nat × Inf) :=
  if d.bits.length < n then .error (.more, d) else .ok (lsbNat (d.bits.take n), { d with bits := d.bits.drop n })

/-- What has been read so far is used. -/
def Inf.mark (d : Inf) : Inf := { d with left := d.bits.length }

/-- The bits up to the next byte are skipped. -/
def Inf.align (d : Inf) : Inf := { d with bits := d.bits.drop (d.bits.length % 8) }

/-- A code set: the number of codes of each length from 1, and the symbols in code order. -/
structure Huff where
  counts : List Nat
  syms   : List Nat
  deriving DecidableEq, Repr

/-- The code set of a list of code lengths. -/
def huffOf (lens : List Nat) : Huff :=
  let ofLen (n : Nat) : List Nat := (List.range lens.length).filter fun i => lens.getD i 0 == n
  { counts := (List.range 15).map fun i => (ofLen (i + 1)).length, syms := (List.range 15).flatMap fun i => ofLen (i + 1) }

/-- The part of the code space that a set uses, of 2^15. -/
def Huff.used (h : Huff) : Nat :=
  ((List.range 15).map fun i => h.counts.getD i 0 * 2 ^ (14 - i)).foldl (· + ·) 0

/-- A complete set. A distance set may be empty or hold one code of one bit (RFC 1951, 3.2.7). -/
def Huff.ok (h : Huff) (dist : Bool) : Bool :=
  h.used == 2 ^ 15 || (dist && (h.syms.isEmpty || (h.syms.length == 1 && h.counts.getD 0 0 == 1)))

/-- Read one symbol, over the code lengths that remain. -/
def Inf.symLoop (h : Huff) : List Nat → Nat → Nat → Nat → Inf → Dec (Nat × Inf)
  | [], _, _, _, d => .error (.bad 6, d)
  | c :: cs, code, first, index, d =>
    match d.bits with
    | [] => .error (.more, d)
    | b :: rest =>
      let code := 2 * code + b1 b
      let d := { d with bits := rest }
      if code < first + c then .ok (h.syms.getD (index + code - first) 0, d)
      else Inf.symLoop h cs code (2 * (first + c)) (index + c) d

def Inf.sym (d : Inf) (h : Huff) : Dec (Nat × Inf) := Inf.symLoop h h.counts 0 0 0 d

/-- Base and extra bits of the length codes from 257, and of the distance codes. -/
def lengthCode (i : Nat) : Nat × Nat :=
  if i < 8 then (3 + i, 0) else if i = 28 then (258, 0)
  else
    let e := i / 4 - 1
    (3 + (4 + i % 4) * 2 ^ e, e)

def distCode (i : Nat) : Nat × Nat :=
  if i < 4 then (1 + i, 0)
  else
    let e := i / 2 - 1
    (1 + (2 + i % 2) * 2 ^ e, e)

/-- Append a byte. -/
def Inf.put (d : Inf) (b : Byte) : Inf := { d with out := b :: d.out, n := d.n + 1 }

/-- Copy `len` bytes from `dist` back; the output may fill on the way. -/
def Inf.copy (dist : Nat) : Nat → Inf → Dec (Unit × Inf)
  | 0, d => .ok ((), d)
  | n + 1, d => if d.n = d.cap then .error (.full, d.mark) else Inf.copy dist n (d.put (d.out.getD (dist - 1) 0))

/-- The symbols of a block up to its end. -/
def Inf.codes (lit dist : Huff) : Nat → Inf → Dec (Unit × Inf)
  | 0, d => .error (.more, d)
  | f + 1, d => do
    let (s, e) ← d.sym lit
    if s < 256 then
      if e.n = e.cap then .error (.full, d) else Inf.codes lit dist f (e.put (BitVec.ofNat 8 s)).mark
    else if s = 256 then pure ((), e.mark)
    else if 285 < s then .error (.bad 6, e)
    else
      let (base, extra) := lengthCode (s - 257)
      let (x, e) ← e.take extra
      let (t, e) ← e.sym dist
      if 29 < t then .error (.bad 6, e)
      else
        let (dbase, dextra) := distCode t
        let (y, e) ← e.take dextra
        if e.n < dbase + y then .error (.bad 7, e)
        else if e.n = e.cap then .error (.full, d)
        else
          let (_, e) ← Inf.copy (dbase + y) (base + x) e
          Inf.codes lit dist f e.mark

/-- A stored block's bytes. -/
def Inf.storedBytes : Nat → Inf → Dec (Unit × Inf)
  | 0, d => .ok ((), d)
  | n + 1, d =>
    if d.n = d.cap then .error (.full, d)
    else
      match d.take 8 with
      | .error e => .error e
      | .ok (b, e) => Inf.storedBytes n (e.put (BitVec.ofNat 8 b)).mark

def Inf.stored (d : Inf) : Dec (Unit × Inf) := do
  let (len, e) ← d.align.take 16
  let (nlen, e) ← e.take 16
  if len + nlen = 65535 then Inf.storedBytes len e.mark else .error (.bad 5, e)

def fixedLit : List Nat :=
  List.replicate 144 8 ++ List.replicate 112 9 ++ List.replicate 24 7 ++ List.replicate 8 8

def lengthOrder : List Nat := [16, 17, 18, 0, 8, 7, 9, 6, 10, 5, 11, 4, 12, 3, 13, 2, 14, 1, 15]

/-- The `k` code lengths of the code-length code. -/
def Inf.metaLens : Nat → List Nat → Inf → Dec (List Nat × Inf)
  | 0, l, d => .ok (l, d)
  | k + 1, l, d =>
    match d.take 3 with
    | .error e => .error e
    | .ok (x, e) => Inf.metaLens k (l ++ [x]) e

/-- Code lengths until `total` of them are read. -/
def Inf.lens (h : Huff) (total : Nat) : Nat → List Nat → Inf → Dec (List Nat × Inf)
  | 0, l, d => if l.length = total then .ok (l, d) else .error (.bad 6, d)
  | f + 1, l, d =>
    if l.length = total then .ok (l, d)
    else if total < l.length then .error (.bad 6, d)
    else do
      let (s, e) ← d.sym h
      if s < 16 then Inf.lens h total f (l ++ [s]) e
      else if s = 16 ∧ l.isEmpty then .error (.bad 6, e)
      else
        let (base, bits) := if s = 16 then (3, 2) else if s = 17 then (3, 3) else (11, 7)
        let (x, e) ← e.take bits
        Inf.lens h total f (l ++ List.replicate (base + x) (if s = 16 then l.getLastD 0 else 0)) e

/-- A dynamic block. -/
def Inf.dynamic (d : Inf) : Dec (Unit × Inf) := do
  let (hlit, e) ← d.take 5
  let (hdist, e) ← e.take 5
  let (hclen, e) ← e.take 4
  if 29 < hlit then .error (.bad 6, e)
  else
    let (ml, e) ← Inf.metaLens (hclen + 4) [] e
    let mh := huffOf ((List.range 19).map fun i => match lengthOrder.idxOf? i with
      | some k => ml.getD k 0
      | none => 0)
    if !mh.ok false then .error (.bad 6, e)
    else
      let (ls, e) ← Inf.lens mh (hlit + 257 + hdist + 1) 400 [] e
      let lit := huffOf (ls.take (hlit + 257))
      let dist := huffOf (ls.drop (hlit + 257))
      if !lit.ok false ∨ !dist.ok true then .error (.bad 6, e)
      else Inf.codes lit dist e.bits.length e.mark

/-- The blocks of a stream. -/
def Inf.blocks : Nat → Inf → Dec (Unit × Inf)
  | 0, d => .error (.more, d)
  | f + 1, d => do
    let (final, e) ← d.take 1
    let (type, e) ← e.take 2
    let (_, e) ← match type with
      | 0 => e.stored
      | 1 => Inf.codes (huffOf fixedLit) (huffOf (List.replicate 32 5)) e.bits.length e.mark
      | 2 => e.dynamic
      | _ => .error (.bad 4, e)
    if final = 1 then pure ((), e) else Inf.blocks f e

/-- Read `n` whole bytes. -/
def Inf.bytes (n : Nat) (d : Inf) : Dec (Bytes × Inf) :=
  if d.bits.length < 8 * n then .error (.more, d)
  else .ok (bytesOf n (d.bits.take (8 * n)), { d with bits := d.bits.drop (8 * n) })

/-- Skip bytes up to and with a zero byte; the bytes skipped. -/
def Inf.cstring : Nat → Bytes → Inf → Dec (Bytes × Inf)
  | 0, _, d => .error (.more, d)
  | f + 1, acc, d =>
    match d.bytes 1 with
    | .error e => .error e
    | .ok (b, e) => if b = [0] then .ok (acc ++ b, e) else Inf.cstring f (acc ++ b) e

/-- The bytes that have come already show a bad header, before it is whole (R516); 0 where they do not. -/
def Inf.badPrefix (format : Nat) (d : Inf) : Nat :=
  let n := d.bits.length / 8
  let b := bytesOf n (d.bits.take (8 * n))
  let cmf := (b.getD 0 8).toNat
  if format = 0 ∧ (cmf % 16 ≠ 8 ∨ 7 < cmf / 16) then 1
  else if format = 1 ∧
    (b.getD 0 0x1F ≠ 0x1F ∨ b.getD 1 0x8B ≠ 0x8B ∨ b.getD 2 8 ≠ 8 ∨ 32 ≤ (b.getD 3 0).toNat) then 3
  else 0

/-- A container's header (R506, R514, R516); for gzip whether FHCRC agrees. -/
def Inf.header (format : Nat) (d : Inf) : Dec (Bool × Inf) :=
  if d.bits.length < 80 ∧ d.badPrefix format ≠ 0 then .error (.bad (d.badPrefix format), d)
  else match format with
  | 0 => do
    let (h, e) ← d.bytes 2
    let cmf := (h.getD 0 0).toNat
    let flg := (h.getD 1 0).toNat
    if cmf % 16 ≠ 8 ∨ 7 < cmf / 16 ∨ (256 * cmf + flg) % 31 ≠ 0 then .error (.bad 1, e)
    else if flg.testBit 5 then .error (.bad 2, e)
    else pure (true, e.mark)
  | 1 => do
    let (h, e) ← d.bytes 10
    let flg := h.getD 3 0
    if h.take 3 ≠ [0x1F, 0x8B, 8] ∨ 32 ≤ flg.toNat then .error (.bad 3, e)
    else
      let (x, e) ← if flg.getLsbD 2 then do
          let (l, e) ← e.bytes 2
          let (x, e) ← e.bytes (leNat l)
          pure (l ++ x, e)
        else pure ([], e)
      let (n, e) ← if flg.getLsbD 3 then Inf.cstring e.bits.length [] e else pure ([], e)
      let (c, e) ← if flg.getLsbD 4 then Inf.cstring e.bits.length [] e else pure ([], e)
      if flg.getLsbD 1 then
        let (k, e) ← e.bytes 2
        pure (leNat k == crc32 (h ++ x ++ n ++ c) % 65536, e.mark)
      else pure (true, e.mark)
  | _ => .ok (true, d)

/-- What decoding a stream from its beginning gives: why it stopped, the output, the input bytes used, and at the end
of the stream the first check that differs (R517), 0 for none. -/
structure Inflated where
  halt  : Halt
  out   : Bytes
  used  : Nat
  check : Nat
  deriving DecidableEq, Repr

/-- The check value over uncompressed data (R497). -/
def checkValue (format : Nat) (data : Bytes) : Nat :=
  match format with
  | 0 => adler32 data
  | 1 => crc32 data
  | _ => crc64 data

/-- Compare the trailer (R517). -/
def Inf.trailer (format : Nat) (fhcrc : Bool) (d : Inf) : Dec (Nat × Inf) := do
  let data := d.out.reverse
  let (t, e) ← d.align.bytes (if format = 0 then 4 else 8)
  let value := if format = 1 then leNat (t.take 4) else beNat t
  pure ((if value ≠ checkValue format data then 1
    else if format = 1 ∧ leNat (t.drop 4) ≠ d.n % 2 ^ 32 then 2
    else if !fhcrc then 3 else 0), e.mark)

/-- Decode a stream, writing at most `cap` bytes in all. -/
def inflate (format : Nat) (input : Bytes) (cap : Nat) : Inflated :=
  let d : Inf := { bits := bitsOf input, out := [], n := 0, cap := cap, left := 8 * input.length }
  let used (e : Inf) : Nat := (8 * input.length - e.left + 7) / 8
  let r : Dec (Nat × Inf) := do
    let (ok, e) ← d.header format
    let (_, e) ← Inf.blocks (e.bits.length + 1) e
    e.trailer format ok
  match r with
  | .ok (c, e) => { halt := .fin, out := e.out.reverse, used := used e, check := c }
  | .error (.more, e) => { halt := .more, out := e.out.reverse, used := input.length, check := 0 }
  | .error (h, e) => { halt := h, out := e.out.reverse, used := used e, check := 0 }

/-! ### Encoding -/

/-- The chain depth of a level, and whether matches are deferred (R510). -/
def chainDepth (level : Nat) : Nat := 2 ^ (level + 1)
def deferred (level : Nat) : Bool := decide (4 ≤ level)

/-- How far two runs agree, at most `n` bytes. -/
def agree : Nat → Bytes → Bytes → Nat
  | 0, _, _ => 0
  | n + 1, a :: as, b :: bs => if a = b then agree n as bs + 1 else 0
  | _, _, _ => 0

/-- The best match at a position: the candidates are the most recent earlier positions, back to `low`, at which the
same 3 bytes stand, up to the chain depth; the longest wins, the nearest of equals (R510). `stop` ends the block. -/
def bestMatch (data : Bytes) (depth low pos stop : Nat) : Option (Nat × Nat) :=
  let here := data.drop pos
  if stop < pos + 3 then none
  else
    let cands := (((List.range (pos - max low (pos - 32768))).map fun i => pos - 1 - i).filter fun j =>
      (data.drop j).take 3 = here.take 3).take depth
    cands.foldl (fun best j =>
      let len := agree (min 258 (stop - pos)) here (data.drop j)
      match best with
      | some (l, _) => if l < len then some (len, pos - j) else best
      | none => some (len, pos - j)) none

/-- The literals, as (byte, 0), and matches, as (length, distance), of data from `pos` to `stop` (R510). -/
def lz77 (data : Bytes) (level low stop : Nat) : Nat → Nat → List (Nat × Nat)
  | 0, _ => []
  | f + 1, pos =>
    if stop ≤ pos then []
    else
      let lit := ((data.getD pos 0).toNat, 0)
      match bestMatch data (chainDepth level) low pos stop with
      | none => lit :: lz77 data level low stop f (pos + 1)
      | some (len, dist) =>
        let later := if deferred level then (bestMatch data (chainDepth level) low (pos + 1) stop).map Prod.fst else none
        if len < later.getD 0 then lit :: lz77 data level low stop f (pos + 1)
        else (len, dist) :: lz77 data level low stop f (pos + len)

/-- The code whose range holds a value: its number, extra bits and their value. -/
def codeFor (code : Nat → Nat × Nat) (n v : Nat) : Nat × Nat × Nat :=
  let i := ((List.range n).filter fun i => (code i).1 ≤ v).getLastD 0
  (i, (code i).2, v - (code i).1)

/-- The bits of a literal or length symbol in the fixed code. -/
def fixedSym (s : Nat) : List Bool :=
  if s < 144 then msbBits 8 (0x30 + s) else if s < 256 then msbBits 9 (0x190 + (s - 144))
  else if s < 280 then msbBits 7 (s - 256) else msbBits 8 (0xC0 + (s - 280))

/-- A literal or a match in the fixed code. -/
def fixedBits (c : Nat × Nat) : List Bool :=
  if c.2 = 0 then fixedSym c.1
  else
    let (l, lx, lv) := codeFor lengthCode 29 c.1
    let (d, dx, dv) := codeFor distCode 30 c.2
    fixedSym (257 + l) ++ lsbBits lx lv ++ msbBits 5 d ++ lsbBits dx dv

/-- A block: the shortest of the three codings, dynamic before fixed before stored (R511). `at_` is the bit at which
it begins; `raw` are its bytes. -/
def blockBits (final : Bool) (at_ : Nat) (codes : List (Nat × Nat)) (raw : Bytes) : List Bool :=
  let dyn := Config.dynamicBlock codes
  let fixed := codes.flatMap fixedBits ++ fixedSym 256
  let fill := (8 - (at_ + 3) % 8) % 8
  let stored := List.replicate fill false ++ lsbBits 16 raw.length ++ lsbBits 16 (65535 - raw.length) ++ bitsOf raw
  [final] ++
    (if dyn.length ≤ fixed.length ∧ dyn.length ≤ stored.length then [false, true] ++ dyn
     else if fixed.length ≤ stored.length then [true, false] ++ fixed
     else [false, false] ++ stored)

/-- The blocks of data from `pos`: `marks` are the flushes still to come, as (position, kind), in order; a block ends
at each multiple of 32,768, at a flush and at the end (R511, R512). A block of whole length is held back until it is
known whether it is the last. -/
def encodeFrom (data : Bytes) (level : Nat) (last : Bool) :
    Nat → Nat → Nat → List (Nat × Nat) → List Bool → List Bool
  | 0, _, _, _, acc => acc
  | f + 1, pos, low, marks, acc =>
    let grid := (pos / 32768 + 1) * 32768
    let flush := marks.head?
    let stop := min (min grid data.length) ((flush.map Prod.fst).getD grid)
    let atFlush := flush.any fun m => m.1 == stop
    let final := last && marks.isEmpty && stop == data.length
    let whole := atFlush || final || (stop == grid && (decide (stop < data.length) || !marks.isEmpty))
    let body (acc : List Bool) : List Bool :=
      if pos = stop ∧ !final then acc
      else acc ++ blockBits final acc.length (lz77 data level low stop (stop - pos) pos) (slice data pos (stop - pos))
    if !whole then acc
    else
      let acc := body acc
      if final then acc
      else if atFlush then
        let kind := (flush.map Prod.snd).getD 0
        let fill := (8 - (acc.length + 3) % 8) % 8
        let acc := acc ++ List.replicate (3 + fill) false ++ lsbBits 16 0 ++ lsbBits 16 0xFFFF
        encodeFrom data level last f stop (if kind = 2 then stop else low) marks.tail acc
      else encodeFrom data level last f stop low marks acc

/-- The header that COMPRESS writes (R509). -/
def streamHeader (format level : Nat) : Bytes :=
  match format with
  | 0 => [0x78, if level = 1 then 0x01 else if level ≤ 5 then 0x5E else if level = 6 then 0x9C else 0xDA]
  | 1 => [0x1F, 0x8B, 8, 0, 0, 0, 0, 0, if level = 1 then 4 else if level = 9 then 2 else 0, 0xFF]
  | _ => []

/-- The trailer that COMPRESS writes (R509). -/
def streamTrailer (format : Nat) (data : Bytes) : Bytes :=
  match format with
  | 0 => beBytes 4 (adler32 data)
  | 1 => leBytes 4 (crc32 data) ++ leBytes 4 (data.length % 2 ^ 32)
  | _ => beBytes 8 (crc64 data)

/-- The output of COMPRESS over a whole stream so far (R513): without LAST, the whole bytes of the blocks ended. -/
def deflate (format level : Nat) (data : Bytes) (marks : List (Nat × Nat)) (last : Bool) : Bytes :=
  let b := encodeFrom data level last (data.length / 32768 + 2 * marks.length + 3) 0 0 marks []
  if last then streamHeader format level ++ bytesOf b.length b ++ streamTrailer format data
  else streamHeader format level ++ bytesOf (b.length / 8) (b.take (b.length / 8 * 8))

end Sys2Proof.Machine
end

