-- ==== Sys2Proof/Machine/Names.lean ====
section
/-! DEFINITION. Cells: their numbers (R48), their paths (R43), the groups and their members (R41), and which
of them may sleep (R14). -/

namespace Sys2Proof.Machine

/-- A cell number (R48). -/
def cellNo (kind index : Nat) : Nat := kind * 0x1000000 + index

/-- The kind code of a cell number. -/
def cellKind (c : Nat) : Nat := c / 0x1000000

/-- The index of a cell number. -/
def cellIndex (c : Nat) : Nat := c % 0x1000000

def cellModule : Nat := 0x18000000
def cellTansy : Nat := 0x10000000
def cellVixia : Nat := 0x11000000
def cellJournal : Nat := 0x12000000
def cellSorrel : Nat := 0x13000000
def cellMembership : Nat := 0x17000000

/-- The cell of a checked pair in the order of R220: compute pairs, channel processors, Vixia. -/
def cellOfPair (p : Nat) : Nat :=
  if p < 52 then cellNo 1 p else if p < 56 then cellNo 0x0A (p - 52) else cellVixia

/-- The cells below a compute die's path byte. -/
def computePath (d : Nat) : List Nat → Option Nat
  | [] => some (cellNo 0x15 d)
  | [0x20] => some (cellNo 3 d)
  | [0x30] => some (cellNo 7 d)
  | [0x31] => some (cellNo 8 d)
  | [0x40] => some (cellNo 9 d)
  | [p] => if p ≤ 0x0C then some (cellNo 1 (13 * d + p)) else none
  | [p, c] => if p ≤ 0x0C ∧ c ≤ 1 then some (cellNo 2 (2 * (13 * d + p) + c)) else none
  | _ => none

/-- The cells below an I/O die's path byte. -/
def ioPath (d : Nat) : List Nat → Option Nat
  | [] => some (cellNo 0x16 d)
  | [0x40] => some (cellNo 0x12 (1 + d))
  | [0x20] => some (cellNo 0x0A (2 * d))
  | [0x21] => some (cellNo 0x0A (2 * d + 1))
  | [p] =>
    if p ≤ 0x0B then some (cellNo 4 (12 * d + p))
    else if 0x10 ≤ p ∧ p ≤ 0x17 then some (cellNo 5 (8 * d + (p - 0x10)))
    else if 0x80 ≤ p ∧ p ≤ 0x9F then some (cellNo 0x0B (32 * d + (p - 0x80)))
    else none
  | [p, q] =>
    if 0x10 ≤ p ∧ p ≤ 0x17 ∧ q ≤ 0x0F then some (cellNo 6 (128 * d + 16 * (p - 0x10) + q))
    else if p = 0x50 ∨ p = 0x51 then some (cellNo 0x0C (0x200 * d + 0x100 * (p - 0x50) + q))
    else none
  | [p, h, l] => if p = 0x60 then some (cellNo 0x0D (65536 * d + 256 * h + l)) else none
  | _ => none

/-- The cell that a path names, whether or not its pair is split (R43). -/
def cellOfPath (path : Bytes) : Option Nat :=
  match path.map BitVec.toNat with
  | [] => some cellModule
  | [0x40] => some cellSorrel
  | [0x41] => some cellJournal
  | [0x60] => some cellTansy
  | [0x70] => some cellVixia
  | [0x80] => some cellMembership
  | [0x40, n] => some (cellNo 0x0E n)
  | [0x42, n] => if n ≤ 0x3F then some (cellNo 0x0F n) else none
  | [0x50, n] => if n ≤ 0x3F then some (cellNo 0x14 n) else none
  | d :: rest =>
    if 0x10 ≤ d ∧ d ≤ 0x13 then computePath (d - 0x10) rest
    else if d = 0x20 ∨ d = 0x21 then ioPath (d - 0x20) rest
    else none

/-- The path of a cell (R43). -/
def pathNats (c : Nat) : List Nat :=
  let i := cellIndex c
  match cellKind c with
  | 0x01 => [0x10 + i / 13, i % 13]
  | 0x02 => [0x10 + i / 26, i / 2 % 13, i % 2]
  | 0x03 => [0x10 + i, 0x20]
  | 0x04 => [0x20 + i / 12, i % 12]
  | 0x05 => [0x20 + i / 8, 0x10 + i % 8]
  | 0x06 => [0x20 + i / 128, 0x10 + i / 16 % 8, i % 16]
  | 0x07 => [0x10 + i, 0x30]
  | 0x08 => [0x10 + i, 0x31]
  | 0x09 => [0x10 + i, 0x40]
  | 0x0A => [0x20 + i / 2, 0x20 + i % 2]
  | 0x0B => [0x20 + i / 32, 0x80 + i % 32]
  | 0x0C => [0x20 + i / 512, 0x50 + i / 256 % 2, i % 256]
  | 0x0D => [0x20 + i / 65536, 0x60, i / 256 % 256, i % 256]
  | 0x0E => [0x40, i]
  | 0x0F => [0x42, i]
  | 0x10 => [0x60]
  | 0x11 => [0x70]
  | 0x12 => if i = 0 then [0x41] else [0x20 + (i - 1), 0x40]
  | 0x13 => [0x40]
  | 0x14 => [0x50, i]
  | 0x15 => [0x10 + i]
  | 0x16 => [0x20 + i]
  | 0x17 => [0x80]
  | _ => []

/-- The path of a cell as bytes. -/
def pathOf (c : Nat) : Bytes := (pathNats c).map (BitVec.ofNat 8)

/-- The members of a group cell, in the order of the table of R41; a leaf cell has none. -/
def members (c : Nat) : List Nat :=
  let d := cellIndex c
  match cellKind c with
  | 0x18 => (List.range 4).map (cellNo 0x15) ++ (List.range 2).map (cellNo 0x16)
  | 0x15 => (List.range 13).map (fun p => cellNo 1 (13 * d + p)) ++
      [cellNo 3 d, cellNo 7 d, cellNo 8 d, cellNo 9 d]
  | 0x16 => (List.range 12).map (fun c => cellNo 4 (12 * d + c)) ++
      (List.range 8).map (fun g => cellNo 5 (8 * d + g)) ++
      [cellNo 0x0A (2 * d), cellNo 0x0A (2 * d + 1)] ++
      (List.range 32).map (fun m => cellNo 0x0B (32 * d + m)) ++ [cellNo 0x12 (1 + d)]
  | _ => []

/-- A group cell (R41). -/
def isGroup (c : Nat) : Bool := cellKind c == 0x15 || cellKind c == 0x16 || cellKind c == 0x18

/-- The leaf cells that a command to a group reaches, in the order of R41. -/
def leaves (c : Nat) : List Nat :=
  if cellKind c = 0x18 then (members c).flatMap members else members c

/-- The port group of a port, and the ports of a port group. -/
def groupOfPort (p : Nat) : Nat := p / 16

/-- The I/O die on which a cell of an I/O die lies (R12, R43). -/
def ioDieOf (c : Nat) : Nat := (pathNats c).headD 0x20 - 0x20

/-- Fault reporters by unit (R595): the reporter `k` of a cell. -/
def reporterOf (c k : Nat) : Nat :=
  let i := cellIndex c
  match cellKind c with
  | 0x01 => 0x200 * (i / 26) + 4 * (i % 26) + k
  | 0x02 => 0x200 * (i / 52) + 4 * (i / 2 % 26) + k
  | 0x03 => 0x200 * (i / 2) + 0x068 + 4 * (i % 2) + k
  | 0x07 => 0x200 * (i / 2) + 0x070 + 4 * (i % 2) + k
  | 0x08 => 0x200 * (i / 2) + 0x078 + 4 * (i % 2) + k
  | 0x09 => 0x200 * (i / 2) + 0x080 + 4 * (i % 2) + k
  | 0x0A => 0x200 * (i / 2) + 0x088 + 4 * (i % 2) + k
  | 0x04 => 0x200 * (i / 12) + 0x090 + 4 * (i % 12) + k
  | 0x0B => 0x200 * (i / 32) + 0x0C0 + i % 32
  | 0x06 => 0x200 * (i / 128) + 0x0E0 + i % 128
  | 0x05 => 0x200 * (i / 8) + 0x160 + 4 * (i % 8) + k
  | 0x12 => 0x200 * (i - 1) + 0x180 + k
  | 0x0C => 0x200 * (i / 512) + 0x184 + k
  | 0x0D => 0x200 * (i / 65536) + 0x188 + k
  | 0x16 => 0x200 * i + 0x188 + k
  | 0x11 => 0x1A0 + k
  | 0x17 => 0x1AB
  | _ => 0x1AD

/-- The unit, base level and INTERNAL of a reporter (R595, R618); none where it is reserved. -/
def reporterUnit (r : Nat) : Option (Nat × Nat × Bool) :=
  let b := r / 0x200
  let o := r % 0x200
  let k := o % 4
  if o < 0x068 then some (cellNo 1 (26 * b + o / 4), k, false)
  else if o < 0x070 then some (cellNo 3 (2 * b + (o - 0x068) / 4), k, false)
  else if o < 0x078 then some (cellNo 7 (2 * b + (o - 0x070) / 4), k, false)
  else if o < 0x080 then some (cellNo 8 (2 * b + (o - 0x078) / 4), k, false)
  else if o < 0x088 then some (cellNo 9 (2 * b + (o - 0x080) / 4), k, false)
  else if o < 0x090 then some (cellNo 0x0A (2 * b + (o - 0x088) / 4), k, false)
  else if o < 0x0C0 then some (cellNo 4 (12 * b + (o - 0x090) / 4), k, false)
  else if o < 0x0E0 then some (cellNo 0x0B (32 * b + (o - 0x0C0)), 2, false)
  else if o < 0x160 then some (cellNo 6 (128 * b + (o - 0x0E0)), 2, false)
  else if o < 0x180 then some (cellNo 5 (8 * b + (o - 0x160) / 4), k, false)
  else if o < 0x184 then some (cellNo 0x12 (1 + b), k, false)
  else if o < 0x190 then some (cellNo 0x16 b, k, false)
  else if o < 0x198 then some (cellModule, 2, false)
  else if o = 0x198 then some (cellTansy, 2, true)
  else if b = 1 then none
  else if o < 0x1A0 then none
  else if o < 0x1A4 then some (cellVixia, k, false)
  else if o = 0x1A4 then some (cellVixia, 4, false)
  else if o < 0x1A8 then some (cellModule, 2, false)
  else if o < 0x1AA then some (cellModule, 4, false)
  else if o = 0x1AA then some (cellModule, 2, false)
  else if o = 0x1AB then some (cellMembership, 2, false)
  else if o < 0x1AE then some (cellTansy, 4, true)
  else none

end Sys2Proof.Machine
end

