-- ==== Sys2Proof/Machine/Ops.lean ====
section
/-! DEFINITION. The named operations over the state that every family uses: reading and writing each table,
recording an event at its source (R441, R442), reporting a fault to Tansy (R596), writing a log record
(R623), and taking an open value. -/

namespace Sys2Proof.Machine

/-! ### The tables of the state -/

def State.cell (s : State) (c : Nat) : Cell := tabGet Cell.reset s.cells c
def State.ring (s : State) (r : Nat) : Ring := tabGet Ring.reset s.rings r
def State.core (s : State) (c : Nat) : Core := tabGet Core.reset s.cores c
def State.pair (s : State) (p : Nat) : Pair := tabGet Pair.reset s.pairs p
def State.slice (s : State) (d : Nat) : Slice := tabGet (Slice.reset d) s.caches.slices d
def State.chan (s : State) (i : Nat) : Chan := tabGet Chan.reset s.mem.chans i
def State.tier (s : State) (t : Nat) : Tier := tabGet Tier.reset s.mem.tiers t
def State.ctx (s : State) (x : Nat) : Ctx := tabGet Ctx.reset s.io.ctxs x
def State.run (s : State) (x : Nat) : Run := tabGet (Run.start 0) s.io.runs x
def State.staging (s : State) (p : Nat) : Staging := tabGet Staging.reset s.io.staging p
def State.ioDie (s : State) (d : Nat) : IoDie := tabGet IoDie.reset s.io.dies d
def State.entry (s : State) (j : Nat) : JEntry := tabGet JEntry.free s.io.journal j
def State.copy (s : State) (d : Nat) : JCopy := tabGet JCopy.reset s.io.copies d
def State.classDef (s : State) (n : Nat) : ClassDef := tabGet ClassDef.none s.io.classes n
def State.bucket (s : State) (x : Nat) : Bucket := tabGet ⟨0, 0⟩ s.io.buckets x
def State.port (s : State) (p : Nat) : Port := tabGet Port.reset s.io.ports p
def State.conv (s : State) (x : Nat) : Conv := tabGet Conv.reset s.io.convs x
def State.queue (s : State) (q : Nat) : Queue := tabGet Queue.reset s.queues q
def State.source (s : State) (r : Nat) : Source := tabGet Source.reset s.sources r
def State.timer (s : State) (n : Nat) : Timer := tabGet Timer.reset s.timers n
def State.part (s : State) (n : Nat) : Part := tabGet Part.reset s.parts.parts n
def State.engine (s : State) (e : Nat) : Engine := tabGet Engine.reset s.engines e
def State.member (s : State) (m : Nat) : Member := tabGet Member.reset s.bundle.members m
def State.rep (s : State) (r : Nat) : Reporter := tabGet Reporter.reset s.tansy.reps r
def State.sensor (s : State) (n : Nat) : Sensor := tabGet (Sensor.reset n) s.vixia.sensors n

def State.modCell (s : State) (c : Nat) (f : Cell → Cell) : State :=
  { s with cells := tabMod Cell.reset s.cells c f }
def State.modRing (s : State) (r : Nat) (f : Ring → Ring) : State :=
  { s with rings := tabMod Ring.reset s.rings r f }
def State.modCore (s : State) (c : Nat) (f : Core → Core) : State :=
  { s with cores := tabMod Core.reset s.cores c f }
def State.modPair (s : State) (p : Nat) (f : Pair → Pair) : State :=
  { s with pairs := tabMod Pair.reset s.pairs p f }
def State.modCaches (s : State) (f : Caches → Caches) : State := { s with caches := f s.caches }
def State.modSlice (s : State) (d : Nat) (f : Slice → Slice) : State :=
  s.modCaches fun c => { c with slices := tabMod (Slice.reset d) c.slices d f }
def State.modMem (s : State) (f : Mem → Mem) : State := { s with mem := f s.mem }
def State.modChan (s : State) (i : Nat) (f : Chan → Chan) : State :=
  s.modMem fun m => { m with chans := tabMod Chan.reset m.chans i f }
def State.modTier (s : State) (t : Nat) (f : Tier → Tier) : State :=
  s.modMem fun m => { m with tiers := tabMod Tier.reset m.tiers t f }
def State.modIo (s : State) (f : Io → Io) : State := { s with io := f s.io }
def State.modCtx (s : State) (x : Nat) (f : Ctx → Ctx) : State :=
  s.modIo fun i => { i with ctxs := tabMod Ctx.reset i.ctxs x f }
def State.modRun (s : State) (x : Nat) (f : Run → Run) : State :=
  s.modIo fun i => { i with runs := tabMod (Run.start 0) i.runs x f }
def State.modStaging (s : State) (p : Nat) (f : Staging → Staging) : State :=
  s.modIo fun i => { i with staging := tabMod Staging.reset i.staging p f }
def State.modIoDie (s : State) (d : Nat) (f : IoDie → IoDie) : State :=
  s.modIo fun i => { i with dies := tabMod IoDie.reset i.dies d f }
def State.modEntry (s : State) (j : Nat) (f : JEntry → JEntry) : State :=
  s.modIo fun i => { i with journal := tabMod JEntry.free i.journal j f }
def State.modCopy (s : State) (d : Nat) (f : JCopy → JCopy) : State :=
  s.modIo fun i => { i with copies := tabMod JCopy.reset i.copies d f }
def State.modPort (s : State) (p : Nat) (f : Port → Port) : State :=
  s.modIo fun i => { i with ports := tabMod Port.reset i.ports p f }
def State.modConv (s : State) (x : Nat) (f : Conv → Conv) : State :=
  s.modIo fun i => { i with convs := tabMod Conv.reset i.convs x f }
def State.modQueue (s : State) (q : Nat) (f : Queue → Queue) : State :=
  { s with queues := tabMod Queue.reset s.queues q f }
def State.modSource (s : State) (r : Nat) (f : Source → Source) : State :=
  { s with sources := tabMod Source.reset s.sources r f }
def State.modTimer (s : State) (n : Nat) (f : Timer → Timer) : State :=
  { s with timers := tabMod Timer.reset s.timers n f }
def State.modParts (s : State) (f : Parts → Parts) : State := { s with parts := f s.parts }
def State.modPart (s : State) (n : Nat) (f : Part → Part) : State :=
  s.modParts fun p => { p with parts := tabMod Part.reset p.parts n f }
def State.modEngine (s : State) (e : Nat) (f : Engine → Engine) : State :=
  { s with engines := tabMod Engine.reset s.engines e f }
def State.modBundle (s : State) (f : Bundle → Bundle) : State := { s with bundle := f s.bundle }
def State.modMember (s : State) (m : Nat) (f : Member → Member) : State :=
  s.modBundle fun b => { b with members := tabMod Member.reset b.members m f }
def State.modTansy (s : State) (f : Tansy → Tansy) : State := { s with tansy := f s.tansy }
def State.modRep (s : State) (r : Nat) (f : Reporter → Reporter) : State :=
  s.modTansy fun t => { t with reps := tabMod Reporter.reset t.reps r f }
def State.modVixia (s : State) (f : Vixia → Vixia) : State := { s with vixia := f s.vixia }
def State.modSensor (s : State) (n : Nat) (f : Sensor → Sensor) : State :=
  s.modVixia fun v => { v with sensors := tabMod (Sensor.reset n) v.sensors n f }
def State.modPins (s : State) (f : Pins → Pins) : State := { s with pins := f s.pins }

/-- The state of a cell (R49). -/
def State.cst (s : State) (c : Nat) : CState := (s.cell c).st

/-- Put a cell into a state. -/
def State.setCst (s : State) (c : Nat) (st : CState) : State := s.modCell c fun x => { x with st := st }

/-- The current heartbeat tick. -/
def State.now (s : State) : Nat := s.clock.ticks

/-- Work reaches a cell: an ASLEEP one wakes (R28), and the idle delay of a RUNNING one begins anew. -/
def State.touchCell (s : State) (c : Nat) : State :=
  s.modCell c fun x => if x.st = .asleep then { x with waking := true } else { x with idleFrom := s.now }

/-- The wake-hold count of a cell (R26). -/
def Cell.holds (x : Cell) : Nat := x.cmdHold + x.bindHold

/-- The wake-hold count that keeps a cell awake: a hold on the cell of a split pair holds both of its cores (R25, R27). -/
def State.holdsOf (s : State) (c : Nat) : Nat :=
  (s.cell c).holds + if cellKind c = 2 then (s.cell (cellNo 1 (cellIndex c / 2))).holds else 0

/-- Traffic or a hold abandons the sleep that a port group has begun to enter: the lanes that were asked to go QUIET are
no longer (R25, R29, R30). -/
def State.abandonSleep (s : State) (g : Nat) : State :=
  (((List.range 16).map fun l => 16 * g + l).filter fun p => (s.port p).quietAsked).foldl (fun s p =>
    s.modPort p fun x => { x with quietAsked := false }) s

/-- A wake-hold count of a cell becomes non-zero: it does not enter ASLEEP (R25). -/
def State.heldAwake (s : State) (c : Nat) : State :=
  let s := if cellKind c = 5 then s.abandonSleep (cellIndex c) else s
  s.modCell c fun x => { x with sleepAsked := false }

/-- A fresh open value and the state that has used it (log entry 3). -/
def State.fresh (s : State) : Word × State := (Config.freeValue s.free, { s with free := s.free + 1 })

/-- Step 5 of power-up has begun (R17, R637): EN_CMP has been asserted. -/
def State.step5Begun (s : State) : Bool :=
  s.clock.loadClosed || s.pins.enCmp || decide (5 ≤ s.vixia.bootStep) || (s.vixia.bootStep == 4 && s.vixia.stepFailed)

/-! ### Contexts and ports -/

/-- The channel processor that serves a context, 0 to 3 as 2d + n (R364, R366, R409). -/
def State.ctxCp (s : State) (x : Nat) : Nat := Nat.xor (2 * (x / 65536) + x % 2) (s.ctx x).shift

/-- The bytes in a port's inbound and outbound staging queues (R370). -/
def Staging.inFill (g : Staging) : Nat := g.inq.foldl (fun n c => n + c.bytes.length) 0
def Staging.outFill (g : Staging) : Nat := g.outq.foldl (fun n c => n + c.2.length) 0

/-- A mover serves the port's inbound queue (R375). -/
def State.inGranted (s : State) (p : Nat) : Bool := (s.ioDie (p / 128)).serving.any fun e => e.2 == .drain p

/-! ### Faults -/

/-- A unit drives its reporter to report one fault (R596). A fault that is already on the wire folds into it. -/
def State.report (s : State) (r : Nat) : State := s.modRep r fun x => { x with fault := true }

/-- Report a fault of a level on the reporter of a cell's unit (R595). -/
def State.reportCell (s : State) (c level : Nat) : State := s.report (reporterOf c level)

/-! ### Logs -/

/-- The ring log holds 32,768 records; the newest overwrites the oldest (R623). -/
def pushRing (l : List LogRec) (r : LogRec) : List LogRec :=
  if l.length < 32768 then l ++ [r] else l.drop 1 ++ [r]

/-- Write a record to the ring log, and to the buffer of the persistent log for levels 2 to 4 and KINDs 3 to
7 (R623, R624). Vixia writes nothing while it is stopped (R639). -/
def State.log (s : State) (kind level code cell : Nat) (data : Word) : State :=
  if s.vixia.up then
    let r : LogRec := { tb := s.clock.tb, seq := s.vixia.nextSeq, kind := BitVec.ofNat 8 kind,
                        level := BitVec.ofNat 8 level, code := BitVec.ofNat 16 code,
                        cell := BitVec.ofNat 32 cell, data := data }
    s.modVixia fun v =>
      let v := { v with nextSeq := v.nextSeq + 1, ringLog := pushRing v.ringLog r }
      if (kind = 1 ∧ 2 ≤ level ∧ level ≤ 4) ∨ (3 ≤ kind ∧ kind ≤ 7) then
        if v.buffer.length < 256 then { v with buffer := v.buffer ++ [r] }
        else { v with dropped := satAdd v.dropped 1, droppedDue := v.droppedDue + 1, logDroppedSeen := true }
      else v
  else s

/-! ### Events -/

/-- Add two counts that saturate at 0xFFFF. -/
def sat16 (a b : Nat) : Nat := min 0xFFFF (a + b)

/-- How a source's unpushed event and a further one become one payload (R441). -/
def mergePayload (src : Nat) (old new : BitVec 48) : BitVec 48 :=
  if src < 0x800 then (old &&& 0x70000000000#48) ||| new
  else if src < 0x880 then BitVec.ofNat 48 (sat16 old.toNat new.toNat)
  else if src < 0x8C0 then
    BitVec.ofNat 48 (sat16 (bits old 47 32 + 1) (bits new 47 32) * 2 ^ 32 + bits new 31 0)
  else if src < 0x900 then
    ((new ||| old) &&& 0x3000000000#48) ||| (new &&& 0xFFC000000000#48) |||
      BitVec.ofNat 48 (sat16 (bits old 15 0) (bits new 15 0))
  else if src < 0x940 then new ||| (old &&& 0x2000000000#48)
  else if src < 0x9C0 then new
  else if src < 0x9F1 then new ||| (old &&& 0xF#48)
  else if src = 0x9F1 then new ||| old
  else if src < 0x9F4 then new
  else new ||| old

/-- The sources that keep a backlog and do not merge: ring completions, the journal's (R441). -/
def isBacklog (src : Nat) : Bool := src < 0x400 || (0x9D0 ≤ src && src ≤ 0x9D2)

/-- Tier-pressure sources keep one item of each KIND, in order of occurrence (R441). -/
def isTierSource (src : Nat) : Bool := 0x9C0 ≤ src && src ≤ 0x9CF

/-- A source's unpushed events after one more (R441, R442). -/
def addEvent (src : Nat) (l : List SrcItem) (i : SrcItem) : List SrcItem :=
  if isBacklog src then l ++ [i]
  else if isTierSource src then
    l.filter (fun j => bits j.payload 43 40 != bits i.payload 43 40) ++ [i]
  else
    match l with
    | [] => [i]
    | j :: _ => [{ i with payload := mergePayload src j.payload i.payload }]

/-- A source records an event; the mirror role and the cross-member channels accumulate theirs (R589). -/
def State.eventItem (s : State) (src : Nat) (i : SrcItem) : State :=
  s.modSource src fun x =>
    { x with backlog := addEvent src x.backlog i
             acc := if 0x9F2 ≤ src ∧ src < 0x9F8 then some (mergePayload src (x.acc.getD 0) i.payload) else x.acc }

/-- A source records an event that goes to its routed queue. -/
def State.event (s : State) (src payload : Nat) : State :=
  s.eventItem src { payload := BitVec.ofNat 48 payload, queue := 0, prio := 0, entry := none }

/-! ### Partitions and processors -/

/-- The partition to which a granule is assigned, if any (R468). -/
def State.owner (s : State) (granule : Nat) : Option Nat := tabGet none s.parts.owner granule

/-- The processor that a core runs (R465). The leader of a checked pair runs its one processor. -/
def State.proc (s : State) (core : Nat) : Option ProcShare := s.parts.procs.find? fun p => p.core = core

/-- The processors that a partition holds. -/
def State.procsOf (s : State) (n : Nat) : List ProcShare := s.parts.procs.filter fun p => p.part = n

/-- The core that runs a processor of a partition, by its number (PROCID). -/
def State.procCore (s : State) (n num : Nat) : Option Nat :=
  ((s.procsOf n).find? fun p => p.num = num).map ProcShare.core

/-- A core of a pair: its leader or its shadow. -/
def leaderOf (p : Nat) : Nat := if p < 52 then 2 * p else 104 + (p - 52)

/-- The pair to which a core belongs. -/
def pairOfCore (c : Nat) : Nat := if c < 104 then c / 2 else 52 + (c - 104)

/-- The pair is split (PAIR_CHK MODE 1, R221). -/
def State.isSplit (s : State) (p : Nat) : Bool := (s.pair p).mode == 1

/-- The cell that carries a core: its pair, or the core itself while the pair is split (R48). -/
def State.cellOfCore (s : State) (c : Nat) : Nat :=
  let p := pairOfCore c
  if p < 52 ∧ s.isSplit p then cellNo 2 c else cellOfPair p

/-- The partition of a core: its processor's. Channel processors and Vixia, which no partition holds (R465), act for partition
0: DESIGN CHOICE (log entry 92), which the spec leaves open for their SEV and SEVT (R120, R121). -/
def State.partOfCore (s : State) (c : Nat) : Nat := ((s.proc c).map ProcShare.part).getD 0

/-- The ready items of a queue (R434). -/
def Queue.ready (q : Queue) : Nat := q.items.length

/-- The queue drives its interrupt line (R448). -/
def Queue.drives (q : Queue) : Bool := q.cfg.intrEn && (decide (q.cfg.thresh ≤ q.ready) || q.stale)

/-- IPEND of a processor (R448): bit `i` is the OR of the queues that drive its line `i`. -/
def State.ipend (s : State) (core : Nat) : Word :=
  match s.proc core with
  | none => 0
  | some p =>
    s.queues.foldl (fun w e =>
      if e.2.drives ∧ e.2.owner = some p.part ∧ e.2.cfg.proc.toNat = p.num then w ||| 1#64 <<< e.2.cfg.line.toNat
      else w) 0

/-- Report a processor check of level 3 on the pair of a core, whose processor it stops (R275, R606). -/
def State.reportStop (s : State) (core : Nat) : State :=
  s.modRep (reporterOf (cellOfPair (pairOfCore core)) 3) fun x =>
    { x with fault := true,
             stopped := if (s.proc core).isSome then x.stopped ++ [(s.partOfCore core, s.cellOfCore core)] else x.stopped }

end Sys2Proof.Machine
end

