-- ==== Sys2Proof/Machine/CpuCore.lean ====
section
/-! DEFINITION. What an instruction commits (R187) and what that does to a processor: registers, the exposed
product (R127), the signature of the window in progress (R185), the end of a window, and waits (R119, R122). -/

namespace Sys2Proof.Machine

/-- A committed item (R187). `product` is a MUL's result, `quotient` a division's, `landing` the product that
ERET makes pending (R130), `bank` what exception entry leaves in PH and PL (R129), `divide` the start of a
floating operation in the divide unit, `finish` the wait for that unit (R128). -/
inductive Item where
  | g (d : Reg) (v : Word)
  | sp (level : Nat) (v : Word)
  | f (d : Reg) (v : Quad)
  | ph (v : Word)
  | pl (v : Word)
  | product (hi lo : Word)
  | quotient (hi lo : Word) (plan : DivPlan)
  | divide (plan : DivPlan)
  | finish
  | landing (left : Nat) (hi lo : Word)
  | bank (hi lo : Word)
  | store (va : Word) (size : Nat) (data : Quad) (gs : GStore)
  | ps (v : Word)
  | fs (v : Word)
  | k (n : Nat) (v : Word)
  | event (e : HeldEvent) (ga gb : Word)
  | target (v : Word)
  deriving DecidableEq, Repr

/-! ### Registers -/

/-- The current level (R86). -/
def Arch.level (a : Arch) : Nat := bits a.ps 1 0

/-- The stack pointer of a level (R83). -/
def Arch.sp (a : Arch) (level : Nat) : Word :=
  if level = 0 then a.usp else if level = 1 then a.ssp else a.hsp

def Arch.setSp (a : Arch) (level : Nat) (v : Word) : Arch :=
  if level = 0 then { a with usp := v } else if level = 1 then { a with ssp := v } else { a with hsp := v }

/-- A general register (R82, R83). -/
def Arch.gr (a : Arch) (r : Reg) : Word :=
  if r = 0 then 0 else if r = 31 then a.sp a.level else tabGet 0 a.g r.toNat

/-- Write a general register (R82, R83). -/
def Arch.setG (a : Arch) (r : Reg) (v : Word) : Arch :=
  if r = 0 then a else if r = 31 then a.setSp a.level v else { a with g := tabPut 0 a.g r.toNat v }

/-- A floating register (R84). -/
def Arch.fr (a : Arch) (r : Reg) : Quad := tabGet 0 a.f r.toNat

/-- PS.MSH: the instructions for which a pending product stays hidden (R86, R127). -/
def Arch.msh (a : Arch) : Nat := a.products.foldl (fun n p => if p.hi.isSome ∨ p.lo.isSome then max n p.left else n) 0

/-- PS as it reads. -/
def Arch.psRead (a : Arch) : Word := a.ps ||| BitVec.ofNat 64 (min 3 a.msh * 4096)

/-- Write PS; MSH is not stored. -/
def Arch.setPs (a : Arch) (v : Word) : Arch := { a with ps := v &&& ~~~0x3000#64 }

/-- The flags of PS. -/
def Arch.flagV (a : Arch) : Bool := bitOf a.ps 4
def Arch.flagC (a : Arch) : Bool := bitOf a.ps 5
def Arch.flagZ (a : Arch) : Bool := bitOf a.ps 6
def Arch.flagN (a : Arch) : Bool := bitOf a.ps 7

/-- PS.EV. -/
def Arch.ev (a : Arch) : Bool := bitOf a.ps 9

/-- A stored control register (R91). -/
def Arch.kr (a : Arch) (n : Nat) : Word :=
  if n = 12 then a.usp else if n = 13 then a.ssp else tabGet 0 a.k n

def Arch.setK (a : Arch) (n : Nat) (v : Word) : Arch :=
  if n = 12 then { a with usp := v } else if n = 13 then { a with ssp := v } else { a with k := tabPut 0 a.k n v }

/-- A later writer of PH takes that half of every pending product away (R127). -/
def Arch.setPh (a : Arch) (v : Word) : Arch :=
  { a with ph := v, products := a.products.map fun p => { p with hi := none } }

def Arch.setPl (a : Arch) (v : Word) : Arch :=
  { a with pl := v, products := a.products.map fun p => { p with lo := none } }

/-- One instruction has retired: products come one nearer, and those that reach their place land (R127). -/
def Arch.advance (a : Arch) : Arch :=
  let land (x : Arch) (p : Product) : Arch :=
    if p.left ≤ 1 then { x with ph := p.hi.getD x.ph, pl := p.lo.getD x.pl } else x
  let b := a.products.foldl land a
  { b with products := (a.products.filter fun p => 1 < p.left).map fun p => { p with left := p.left - 1 } }

/-- An unfinished division finishes: it writes its results (R151). -/
def Core.finish (c : Core) : Core :=
  match c.divUnit with
  | some ⟨some (hi, lo), _⟩ => { c with arch := { c.arch with ph := hi, pl := lo }, divUnit := none }
  | some ⟨none, _⟩ => { c with divUnit := none }
  | none => c

/-- What an item does to a processor's registers. -/
def Item.apply (c : Core) : Item → Core
  | .g d v => { c with arch := c.arch.setG d v }
  | .sp l v => { c with arch := c.arch.setSp l v }
  | .f d v => { c with arch := { c.arch with f := tabPut 0 c.arch.f d.toNat v } }
  | .ph v => { c.finish with arch := c.finish.arch.setPh v }
  | .pl v => { c.finish with arch := c.finish.arch.setPl v }
  | .product hi lo =>
    let c := c.finish
    { c with arch := { c.arch with products := c.arch.products ++ [⟨3, some hi, some lo⟩] } }
  | .quotient hi lo n =>
    let c := c.finish
    { c with arch := { c.arch with products := c.arch.products.map fun p => { p with hi := none, lo := none } }
             divUnit := some ⟨some (hi, lo), n⟩ }
  | .divide n => { c.finish with divUnit := some ⟨none, n⟩ }
  | .finish => c.finish
  | .landing n hi lo =>
    { c with arch := { c.arch with products := c.arch.products ++ [⟨n + 1, some hi, some lo⟩] } }
  | .bank hi lo => { c with arch := { c.arch with ph := hi, pl := lo, products := [] }, divUnit := none }
  | .store _ _ _ _ => c
  | .ps v => { c with arch := c.arch.setPs v }
  | .fs v => { c with arch := { c.arch with fs := v } }
  | .k n v => { c with arch := c.arch.setK n v }
  | .event _ _ _ => c
  | .target v => { c with arch := { c.arch with pc := v } }

/-- An address as PC holds it: a multiple of 3 (R85). Where VBAR + 48 × vector passes the top of the address space, it is
rounded down: DESIGN CHOICE (log entry 100). -/
def pcOf (w : Word) : Word := w - BitVec.ofNat 64 (w.toNat % 3)

/-- The items of an instruction take effect, and PC moves to the next instruction unless one of them is a branch
target. -/
def Core.take (c : Core) (items : List Item) (len : Nat) : Core :=
  let c := { c with arch := { c.arch with pc := c.arch.pc + BitVec.ofNat 64 (3 * len) } }
  items.foldl Item.apply c

/-! ### Signatures -/

/-- Fold one word (R185). -/
def foldWord (s w : Word) : Word :=
  let x := (s <<< 1) ^^^ w
  if s.getLsbD 63 then x ^^^ 0x42F0E1EBA9EA3693#64 else x

/-- The descriptor word of an item (R187). -/
def descriptor (kind index : Nat) (iaddr : Word) : Word :=
  BitVec.ofNat 64 (kind * 2 ^ 56 + index * 2 ^ 48) ||| (iaddr &&& 0xFFFFFFFFFFFF#64)

/-- The words that an item folds (R187); a write to G0 folds none. -/
def Item.words (iaddr : Word) : Item → List Word
  | .g d v => if d = 0 then [] else [descriptor 1 d.toNat iaddr, v]
  | .sp _ v => [descriptor 1 31 iaddr, v]
  | .f d v => [descriptor 2 d.toNat iaddr, (v >>> 64).setWidth 64, v.setWidth 64]
  | .ph v => [descriptor 3 0 iaddr, v]
  | .pl v => [descriptor 3 1 iaddr, v]
  | .product hi lo => [descriptor 3 0 iaddr, hi, descriptor 3 1 iaddr, lo]
  | .quotient hi lo _ => [descriptor 3 0 iaddr, hi, descriptor 3 1 iaddr, lo]
  | .divide _ => []
  | .finish => []
  | .landing _ _ _ => []
  | .bank _ _ => []
  | .store va size v _ =>
    [descriptor 4 size iaddr, va] ++
      (if size = 16 then [(v >>> 64).setWidth 64, v.setWidth 64] else [v.setWidth 64])
  | .ps v => [descriptor 6 64 iaddr, v]
  | .fs v => [descriptor 6 65 iaddr, v]
  | .k n v => [descriptor 6 n iaddr, v]
  | .event e ga gb =>
    match e with
    | .sev _ _ => [descriptor 7 0 iaddr, 0, 0]
    | .sevt _ _ _ => [descriptor 7 1 iaddr, ga, gb]
  | .target v => [descriptor 5 0 iaddr, v]

/-- The place of an item in the order of R187. -/
def Item.rank : Item → Nat
  | .g _ _ => 0 | .sp _ _ => 0 | .f _ _ => 0 | .ph _ => 1 | .pl _ => 2 | .product _ _ => 1
  | .quotient _ _ _ => 1 | .divide _ => 9 | .finish => 9 | .landing _ _ _ => 9 | .bank _ _ => 9 | .store _ _ _ _ => 3 | .ps _ => 4
  | .fs _ => 5 | .k _ _ => 6 | .event _ _ _ => 7 | .target _ => 8

/-- Items in the order of R187. -/
def orderItems (l : List Item) : List Item :=
  (List.range 10).flatMap fun n => l.filter fun i => i.rank == n

/-- The gated stores of items. -/
def storesOf (l : List Item) : List GStore :=
  l.filterMap fun i => match i with
    | .store _ _ _ gs => some gs
    | _ => none

/-- The events of items. -/
def eventsOf (l : List Item) : List HeldEvent :=
  l.filterMap fun i => match i with
    | .event e _ _ => some e
    | _ => none

/-- `n` instructions that committed these items retire in a window. -/
def Window.take (w : Window) (n : Nat) (iaddr : Word) (items : List Item) : Window :=
  { w with
    count := w.count + n
    sig := ((orderItems items).flatMap (Item.words iaddr)).foldl foldWord w.sig
    stores := w.stores ++ storesOf items
    events := w.events ++ eventsOf items }

/-- A window that has folded nothing (R188). -/
def Window.isEmpty (w : Window) : Bool := w.count == 0 && w.sig == 0 && w.stores.isEmpty

/-- The window in progress closes; its end state includes the results of a division (R128, R201). One window less is left of
cycle-compare mode (R206, R221). -/
def State.closeWindow (s : State) (core : Nat) : State :=
  let a := (s.core core).finish.arch
  s.modPair (pairOfCore core) fun p =>
    { p with closed := p.closed ++ [{ p.opened with endArch := some a }],
             opened := Window.empty (p.opened.number + 1), ccLeft := p.ccLeft - 1 }

/-- A window of the pair may close (R190). -/
def State.canClose (s : State) (core : Nat) : Bool :=
  s.isSplit (pairOfCore core) || decide ((s.pair (pairOfCore core)).closed.length < 2)

/-- An instruction retires: its items take effect and, in a checked pair, are folded; its window closes where
`close` says so, and after its 128th instruction (R188). -/
def State.retired (s : State) (core n : Nat) (items : List Item) (len : Nat) (close : Bool) : State :=
  let iaddr := (s.core core).arch.pc
  let s := s.modCore core fun c =>
    let c := c.take items len
    if n = 0 then c else { c with arch := c.arch.advance }
  let p := pairOfCore core
  if s.isSplit p then s
  else
    let s := s.modPair p fun x => { x with opened := x.opened.take n iaddr items }
    if close ∨ 128 ≤ (s.pair p).opened.count then s.closeWindow core else s

/-! ### Interrupt lines -/

/-- The interrupt line that a core takes at its next boundary and the level it goes to (R139): a line routed to
host goes before one routed to system, and the lowest number before the others. -/
def State.takeLine (s : State) (core : Nat) : Option (Nat × Nat) :=
  let a := (s.core core).arch
  let on := s.ipend core &&& a.kr 21
  let route := a.kr 22
  let im := bitOf a.ps 8
  let low (w : Word) : Option Nat := (List.range 64).find? fun i => bitOf w i
  let host := if a.level < 2 ∨ !im then low (on &&& route) else none
  let sys := if a.level < 2 ∧ !im then low (on &&& ~~~route) else none
  match host, sys with
  | some i, _ => some (i, 2)
  | none, some i => some (i, 1)
  | none, none => none

/-! ### Waits and events -/

/-- A WFE or WAITC ends, with the result code of R122 for WAITC; its window closes (R140). -/
def State.endWait (s : State) (core code : Nat) : State :=
  let c := s.core core
  let clear : List Item := if code = 2 ∨ code = 3 then [.ps (c.arch.psRead &&& ~~~0x200#64)] else []
  let s := s.modCore core fun c => { c with wait := .none, first := none }
  match c.wait with
  | .none => s
  | .wfe _ => s.retired core 1 clear 1 true
  | .waitc d _ _ => s.retired core 1 (.g d (BitVec.ofNat 64 code) :: clear) 1 true

/-- TB reached the target of a WAITC, and did so before this tick. -/
def State.reached (s : State) (target : Word) : Bool := decide (target.toNat ≤ s.clock.tb.toNat)
def State.reachedBefore (s : State) (target : Word) : Bool :=
  s.reached target && decide (target.toNat ≤ s.clock.tbBefore.toNat)

/-- The code with which a wait can end now (R119, R122), by what came first: none where it goes on. -/
def State.waitCode (s : State) (core : Nat) : Option Nat :=
  let c := s.core core
  let now : Option Nat :=
    match c.wait with
    | .none => none
    | .wfe _ => if c.arch.ev then some 2 else none
    | .waitc _ ga _ =>
      if s.reached ga && c.arch.ev then some 3 else if c.arch.ev then some 2 else if s.reached ga then some 1 else none
  match c.wait, c.first with
  | .none, _ => none
  | _, some (code, _) => if code = 4 then now else some code
  | _, none => now

/-- What ends a wait came in an earlier tick, before any interrupt (R122). -/
def State.endedBefore (s : State) (core : Nat) : Bool :=
  let c := s.core core
  match c.first with
  | some (code, t) => code != 4 && decide (t < s.now)
  | none =>
    match c.wait with
    | .waitc _ ga _ => s.reachedBefore ga
    | _ => false

/-- End a wait that can end, where the clock runs and a window may close. Where an interrupt can be taken that did not come
later, it is the interrupt that ends the wait (R122). -/
def State.tryEndWait (s : State) (core : Nat) : State :=
  match s.waitCode core with
  | some code =>
    if (s.core core).clockOff ∨ !s.canClose core ∨ ((s.takeLine core).isSome ∧ !s.endedBefore core) then s
    else s.endWait core code
  | none => s

/-- The core executes for itself: the shadow of a checked pair executes as its leader. -/
def State.leads (s : State) (core : Nat) : Bool :=
  decide (104 ≤ core) || decide (core % 2 = 0) || s.isSplit (pairOfCore core)

/-- A core whose clock is stopped begins to wake (R125). -/
def State.wakeCore (s : State) (core : Nat) : State := s.modCell (s.cellOfCore core) fun c => { c with waking := true }

/-- An event ends a wait first, unless something else did before it (R122): with TB in the same tick, or after TB. An
interrupt that was noted and cannot be taken any more counts no longer. -/
def State.noteEvent (s : State) (core : Nat) : State :=
  let c := s.core core
  let noted : Bool := match c.first with
    | some (code, _) => code != 4
    | none => false
  if noted ∨ c.arch.ev ∨ (s.takeLine core).isSome then s
  else
    match c.wait with
    | .none => s
    | .wfe _ => s.modCore core fun c => { c with first := some (2, s.now) }
    | .waitc _ ga _ =>
      let first := if s.reachedBefore ga then (1, s.now - 1) else (if s.reached ga then 3 else 2, s.now)
      s.modCore core fun c => { c with first := some first }

/-- An interrupt that can be taken reaches a core that waits: unless something else has ended the wait in an earlier tick, it
is the interrupt that ends it (R122), and a core whose clock is stopped wakes (R126, R139). -/
def State.noteLine (s : State) (core : Nat) : State :=
  if (s.core core).wait ≠ .none ∧ (s.takeLine core).isSome then
    let s := if s.endedBefore core then s
      else s.modCore core fun c =>
        { c with first := some (4, match c.first with
            | some (4, t) => t
            | _ => s.now) }
    if (s.core core).clockOff then s.wakeCore core else s
  else s

/-- The interrupts of every core that waits. -/
def State.noteLines (s : State) : State := (s.cores.map Prod.fst).foldl State.noteLine s

/-- Set EV in the processor that a core runs (R120): the window in progress remembers that the event arrived
(R202), a waiting processor goes on, and one whose clock is stopped begins to wake (R125). -/
def State.setEv (s : State) (core : Nat) : State :=
  if !s.leads core then s else
  let s := s.noteEvent core
  let s := s.modCore core fun c => { c with arch := { c.arch with ps := c.arch.ps ||| 0x200#64 } }
  let p := pairOfCore core
  let s := if s.isSplit p then s else s.modPair p fun x => { x with opened := { x.opened with ev := true } }
  if (s.core core).clockOff then s.wakeCore core else s.tryEndWait core

/-- Set EV in every processor of a partition (R120). -/
def State.sevPart (s : State) (n : Nat) : State := (s.procsOf n).foldl (fun s p => s.setEv p.core) s

/-- SEV by a core: every processor of its partition, and the core itself (R120). -/
def State.sevFrom (s : State) (n core : Nat) : State :=
  let t := s.sevPart n
  if (s.procsOf n).any fun p => p.core = core then t else t.setEv core

/-- Set EV in the processors that SEVT names (R121). -/
def State.sevtPart (s : State) (n : Nat) (ga gb : Word) : State :=
  (s.procsOf n).foldl (fun s p =>
    if p.num / 64 = bits gb 0 0 ∧ bitOf ga (p.num % 64) then s.setEv p.core else s) s

/-- A held event takes effect (R141). -/
def State.doEvent (s : State) : HeldEvent → State
  | .sev n core => s.sevFrom n core
  | .sevt n ga gb => s.sevtPart n ga gb

end Sys2Proof.Machine
end

