-- ==== Sys2Proof/Machine/Saffron.lean ====
section
/-! DEFINITION. Saffron, the fixed-ratio line code of the compressed tier: the modes of R313 to R317. -/

namespace Sys2Proof.Machine

/-- The 32 words of a line (R312). -/
def lineWords (line : Bytes) : List Nat := (List.range 32).map fun k => numAt line (8 * k) 8

/-- Pack fields, given as (width, value), from the top bit of a slot of `size` bits downwards (R312). -/
def packSlot (size : Nat) (fields : List (Nat × Nat)) : Bytes :=
  let used := fields.foldl (fun n f => n + f.1) 0
  let v := fields.foldl (fun n f => n * 2 ^ f.1 + f.2 % 2 ^ f.1) 0
  beBytes (size / 8) (v * 2 ^ (size - used))

/-- The width of a list of fields. -/
def fieldBits (fields : List (Nat × Nat)) : Nat := fields.foldl (fun n f => n + f.1) 0

/-- The deltas of elements of `e` bits from the first, when each fits `d` bits as a signed number (R314). -/
def deltas (e d : Nat) (els : List Nat) : Option (List Nat) :=
  let base := els.headD 0
  els.foldr (fun x acc =>
    match acc with
    | none => none
    | some l =>
      let v := toSigned e (x + 2 ^ e - base)
      if -(2 ^ (d - 1) : Int) ≤ v ∧ v < 2 ^ (d - 1) then some (BitVec.toNat (BitVec.ofInt d v) :: l) else none)
    (some [])

/-- The distinct words of a list, in order of first appearance. -/
def distinct (ws : List Nat) : List Nat :=
  ws.foldl (fun d w => if d.contains w then d else d ++ [w]) []

/-- The place of a word in a dictionary. -/
def indexIn (d : List Nat) (w : Nat) : Option Nat := d.findIdx? (· == w)

/-- The fields of BD8, BD16 and BD32 (R313). -/
def bdFields (mode e d : Nat) (els : List Nat) : Option (List (Nat × Nat)) :=
  (deltas e d els).map fun ds => (4, mode) :: (e, els.headD 0) :: ds.map fun x => (d, x)

/-- The 16 elements of BD32 (R314). -/
def wide : List Nat → List Nat
  | a :: b :: l => (a * 2 ^ 64 + b) :: wide l
  | _ => []

/-- The fields of WORD-DICT (R313, R315). -/
def dictFields (ws : List Nat) : Option (List (Nat × Nat)) :=
  let d := distinct ws
  if d.length ≤ 8 then
    some ((4, 5) :: (3, d.length - 1) :: d.map (fun w => (64, w)) ++
      ws.map fun w => (3, (indexIn d w).getD 0))
  else none

/-- The words that MIXED puts in its dictionary (R315). -/
def mixedDict (ws : List Nat) : List Nat := ((distinct ws).filter fun w => 2 ≤ ws.count w).take 8

/-- The fields of MIXED (R313). Its dictionary size must be at least 1. -/
def mixedFields (ws : List Nat) : Option (List (Nat × Nat)) :=
  let d := mixedDict ws
  if d.isEmpty then none
  else
    some ((4, 6) :: (3, d.length - 1) :: d.map (fun w => (64, w)) ++
      ws.flatMap fun w =>
        match indexIn d w with
        | some i => [(1, 0), (3, i)]
        | none => [(1, 1), (64, w)])

/-- The first mode that codes a line in a slot of `size` bits (R316); none where the line overflows. -/
def encodeLine (size : Nat) (line : Bytes) : Option Bytes :=
  let ws := lineWords line
  let w0 := ws.headD 0
  let tries : List (Option (List (Nat × Nat))) :=
    [ if ws.all (· == 0) then some [(4, 0)] else none,
      if ws.all (· == w0) then some [(4, 1), (64, w0)] else none,
      bdFields 2 64 8 ws, bdFields 3 64 16 ws, bdFields 4 128 32 (wide ws), dictFields ws, mixedFields ws ]
  (tries.findSome? fun t => t.bind fun f => if fieldBits f ≤ size then some f else none).map (packSlot size)

/-- The number in `n` bits at bit offset `off` from the top of a slot. -/
def slotBits (slot : Bytes) (off n : Nat) : Nat :=
  (beNat slot >>> (8 * slot.length - off - n)) % 2 ^ n

/-- The words of a MIXED slot from bit offset `off` (R313). -/
def mixedWords (slot : Bytes) (dict : List Nat) : Nat → Nat → Option (List Nat)
  | 0, _ => some []
  | n + 1, off =>
    if 8 * slot.length < off + (if slotBits slot off 1 = 0 then 4 else 65) then none
    else if slotBits slot off 1 = 0 then
      match dict[slotBits slot (off + 1) 3]? with
      | some w => (mixedWords slot dict n (off + 4)).map (w :: ·)
      | none => none
    else (mixedWords slot dict n (off + 65)).map (slotBits slot (off + 1) 64 :: ·)

/-- The elements of a BD slot. -/
def bdWords (slot : Bytes) (e d n : Nat) : List Nat :=
  let base := slotBits slot 4 e
  (List.range n).map fun k =>
    BitVec.toNat (BitVec.ofInt e ((base : Int) + toSigned d (slotBits slot (4 + e + d * k) d)))

/-- What a slot holds. -/
inductive SlotVal where
  | line (bytes : Bytes)
  | overflow (frame : Nat)
  | bad
  deriving DecidableEq, Repr

/-- Read a slot (R313 to R317). A field that lies beyond the slot cannot be read, so the slot is bad. -/
def decodeSlot (slot : Bytes) : SlotVal :=
  let words (ws : List Nat) : SlotVal := .line (ws.flatMap (beBytes 8))
  let n := slotBits slot 4 3 + 1
  let dict := (List.range n).map fun k => slotBits slot (7 + 64 * k) 64
  let size := 8 * slot.length
  match slotBits slot 0 4 with
  | 0x0 => .line (zeros 256)
  | 0x1 => words (List.replicate 32 (slotBits slot 4 64))
  | 0x2 => words (bdWords slot 64 8 32)
  | 0x3 => if 580 ≤ size then words (bdWords slot 64 16 32) else .bad
  | 0x4 =>
    if 644 ≤ size then words ((bdWords slot 128 32 16).flatMap fun x => [x / 2 ^ 64, x % 2 ^ 64]) else .bad
  | 0x5 =>
    if 103 + 64 * n ≤ size then
      match (List.range 32).mapM fun k => dict[slotBits slot (7 + 64 * n + 3 * k) 3]? with
      | some ws => words ws
      | none => .bad
    else .bad
  | 0x6 =>
    match mixedWords slot dict 32 (7 + 64 * n) with
    | some ws => words ws
    | none => .bad
  | 0xF => .overflow (slotBits slot 4 40)
  | _ => .bad

/-- The slot of an overflowing line (R319). -/
def overflowSlot (size frame : Nat) : Bytes := packSlot size [(4, 0xF), (40, frame)]

end Sys2Proof.Machine
end

