-- ==== Sys2Proof/Machine/MemOps.lean ====
section
/-! DEFINITION. Main memory below the caches: the address map (R283), the placement of lines (R287), lost
channels (R301), what a DRAM block holds (R291 to R294, R305), poison (R275, R294), the compressed tier (R308 to R327),
and the current value of a line. -/

namespace Sys2Proof.Machine

/-- The line of an address, and the granule of an address. -/
def lineOf (pa : Nat) : Nat := pa / 256
def granuleOf (pa : Nat) : Nat := pa / 2 ^ 30

/-- Where an address lies in the map of R283. -/
inductive Place where
  | direct (set : MemSet)
  | unmapped
  /-- line `line` of enabled tier region `t` -/
  | tier (t line : Nat)
  | pcie
  | control
  deriving DecidableEq, Repr

/-- The interleave set that holds an address (R285). -/
def State.memSet (s : State) (pa : Nat) : Option MemSet :=
  s.mem.sets.find? fun m => m.baseGib * 2 ^ 30 ≤ pa ∧ pa < (m.limitGib + 1) * 2 ^ 30

def tierBase : Nat := 0x0008000000000000
def tierWindow : Nat := 0x0000400000000000
def pcieBase : Nat := 0x000C000000000000
def controlBase : Nat := 0x000FFF0000000000

/-- The place of a physical address (R283, R284). -/
def State.place (s : State) (pa : Nat) : Place :=
  if pa < tierBase then
    match s.memSet pa with
    | some m => .direct m
    | none => .unmapped
  else if pa < pcieBase then
    let t := (pa - tierBase) / tierWindow
    let off := (pa - tierBase) % tierWindow
    if (s.tier t).enabled ∧ off < (s.tier t).size then .tier t (off / 256) else .unmapped
  else if pa < controlBase then .pcie
  else .control

/-- The redundant groups of a set, in ascending order (R287, R297). -/
def MemSet.groups (m : MemSet) : List Nat := distinct (m.channels.map (· / 6))

/-- The channel, the local line and the parity channel of an address of a set (R287). -/
def MemSet.line (m : MemSet) (pa : Nat) : Nat × Nat × Option Nat :=
  let l := (pa - m.baseGib * 2 ^ 30) / 256
  if m.redundant then
    let g := m.groups.getD (l % m.groups.length) 0
    let q := l / m.groups.length
    let p := q / 5 % 6
    (6 * g + ((List.range 6).filter (· != p)).getD (q % 5) 0, q / 5, some (6 * g + p))
  else (m.channels.getD (l % m.channels.length) 0, l / m.channels.length, none)

/-- The interleave set that a channel belongs to (R282). -/
def State.setOfChan (s : State) (i : Nat) : Option MemSet := s.mem.sets.find? fun m => m.channels.contains i

/-- A channel cannot be read at a local line: it is lost, and no rebuild has come past the line (R302). -/
def State.lostAt (s : State) (i line : Nat) : Bool :=
  (s.chan i).lost && match (s.chan i).rebuild with
    | some done => decide (done < 256 * (line + 1))
    | none => true

/-- The lost channels of a redundant group, and those that cannot be read at a local line. -/
def State.lostIn (s : State) (g : Nat) : List Nat :=
  ((List.range 6).map (6 * g + ·)).filter fun i => (s.chan i).lost

def State.lostInAt (s : State) (g line : Nat) : List Nat :=
  ((List.range 6).map (6 * g + ·)).filter fun i => s.lostAt i line

/-- A line of a set that cannot be read: its channel is lost, and no group rebuilds it (R299, R301, R302). While a channel
of a set that is not redundant is written poisoned, every line of it stays so (R302). -/
def State.lineLost (s : State) (m : MemSet) (pa : Nat) : Bool :=
  let p := m.line pa
  if m.redundant then s.lostAt p.1 p.2.1 && decide (2 ≤ (s.lostInAt (p.1 / 6) p.2.1).length) else (s.chan p.1).lost

/-- The block lies on a channel that is written poisoned on its return, at a line that the loss concerns, and has not been
written since (R302). -/
def State.blockWiped (s : State) (m : MemSet) (pa : Nat) : Bool :=
  let p := m.line pa
  (s.chan p.1).wiped.any fun w => decide (w.2 < 256 * (p.2.1 + 1)) &&
    !((s.mem.fresh.drop w.1).any fun r => decide (r.1 ≤ pa / 64 ∧ pa / 64 ≤ r.2))

/-- The channels that an access to a line of a set uses (R666): its own, with the parity channel for a write, or the five
others of its group where its own cannot be read. -/
def State.lineChans (s : State) (m : MemSet) (pa : Nat) (write : Bool) : List Nat :=
  match m.line pa with
  | (c, line, some p) =>
    if s.lostAt c line then ((List.range 6).map (6 * (c / 6) + ·)).filter (· != c)
    else if write then [c, p] else [c]
  | (c, _, none) => [c]

/-- An access reaches channels (R28, R29): an ASLEEP one begins to wake, a RUNNING one is not idle. -/
def State.touchChans (s : State) (cs : List Nat) : State := cs.foldl (fun s c => s.touchCell (cellNo 4 c)) s

/-- The channels that a long write to a range of direct memory uses (R666): the first 64 lines of a set's part meet every
channel that the part meets. -/
def State.rangeChans (s : State) (base len : Nat) : List Nat :=
  distinct (s.mem.sets.flatMap fun m =>
    let lo := max base (m.baseGib * 2 ^ 30)
    let hi := min (base + len) ((m.limitGib + 1) * 2 ^ 30)
    (List.range (min 64 ((hi + 255) / 256 - lo / 256))).flatMap fun i => s.lineChans m (256 * (lo / 256 + i)) true)

/-- The ASLEEP ones among some channels. -/
def State.sleeping (s : State) (cs : List Nat) : List Nat := cs.filter fun c => s.cst (cellNo 4 c) == .asleep

/-- The bytes of a region's store. -/
def Tier.storeLen (t : Tier) : Nat := if t.class4 then t.size / 4 else t.size / 2

/-- The bytes of a region's descriptor table (R308). -/
def Tier.descLen (t : Tier) : Nat := t.size / 4096 * 8

/-- The region whose store, descriptor table or pool holds an address (R310). -/
def State.backing (s : State) (pa : Nat) : Option Nat :=
  (List.range 16).find? fun i =>
    let t := s.tier i
    t.enabled &&
      (decide (t.store ≤ pa ∧ pa < t.store + t.storeLen) || decide (t.desc ≤ pa ∧ pa < t.desc + t.descLen) ||
        t.pools.any fun p => decide (p.base ≤ pa ∧ pa < p.base + p.frames * 4096))

/-- The reporter of a tier region (R595). -/
def tierReporter (t : Nat) : Nat := 0x200 * (t / 8) + 0x190 + t % 8

/-- The I/O fabric reporter of level 1 of an I/O die (R284). -/
def fabricReporter (d : Nat) : Nat := 0x200 * d + 0x189

/-! ### Bytes of direct memory -/

/-- A byte as memory stores it: zero where none has been written (log entry 4). -/
def State.storedByte (s : State) (pa : Nat) : Byte := tabGet 0 s.mem.cells pa

/-- The 64 bytes that memory stores for an ECC block, before encryption. -/
def State.storedBlock (s : State) (b : Nat) : Bytes := (List.range 64).map fun i => s.storedByte (64 * b + i)

/-- A value of a memory key: an AES-XTS-256 key pair, its two halves in turn, which the DRBG of one of the two I/O dies gives
and the dies share (R303). -/
def memoryKey (key gen : Nat) : Bytes :=
  let d := Config.keyDraw key gen
  beBytes 64 (Config.ioDieDrbg (d.1 % 2) d.2).toNat

/-- AES-XTS-256 of an ECC block: the tweak is its physical address divided by 64 (R305). -/
def blockCrypt (decrypt : Bool) (key gen b : Nat) (data : Bytes) : Bytes :=
  xts decrypt (memoryKey key gen) (leBytes 16 b) data 64

/-- The key of a granule in the key map (R304). -/
def State.granuleKey (s : State) (pa : Nat) : Nat := tabGet 64 s.mem.keyMap (granuleOf pa)

/-- The present count of a key's values. -/
def State.gen (s : State) (key : Nat) : Nat := tabGet 0 s.mem.keyGen key

/-- The range of other keys that holds an address. -/
def State.keyed (s : State) (pa : Nat) : Option Keyed :=
  s.mem.scrambled.find? fun r => decide (r.first ≤ pa ∧ pa < r.first + r.len)

/-- A byte as it is read under its granule's key (R305): one that another key wrote decrypts to what AES-XTS makes of it. -/
def State.rawByte (s : State) (pa : Nat) : Byte :=
  match s.keyed pa with
  | none => s.storedByte pa
  | some r =>
    let key := s.granuleKey pa
    if r.key = key ∧ r.gen = s.gen key then s.storedByte pa
    else
      (blockCrypt true key (s.gen key) (pa / 64)
        (blockCrypt false r.key r.gen (pa / 64) (s.storedBlock (pa / 64)))).getD (pa % 64) 0

def State.rawBytes (s : State) (pa n : Nat) : Bytes := (List.range n).map fun i => s.rawByte (pa + i)

/-- The numbers of a list rise strictly. -/
def rising : List Nat → Bool
  | x :: y :: l => decide (x < y) && rising (y :: l)
  | _ => true

/-- Memory is in its canonical form: addresses strictly rising, no byte listed that equals what an unlisted address reads as,
and the poisoned lines strictly rising. -/
def Memory.wf (m : Mem) : Bool := tabWf 0 m.cells && rising m.poison

/-- Write bytes into the cells of memory. -/
def putCells (cells : List Host.Cell) : Nat → Bytes → List Host.Cell
  | _, [] => cells
  | pa, b :: bs => putCells (tabPut 0 cells pa b) (pa + 1) bs

/-- What is left of ranges when `n` bytes from `pa` are taken out. -/
def cutRange (rs : List (Nat × Nat)) (pa n : Nat) : List (Nat × Nat) :=
  rs.flatMap fun r =>
    if r.1 + r.2 ≤ pa ∨ pa + n ≤ r.1 then [r]
    else
      ((r.1, pa - r.1) :: [(pa + n, r.1 + r.2 - (pa + n))]).filter fun x => decide (0 < x.2)

/-- The same of ranges that other keys wrote. -/
def cutKeyed (rs : List Keyed) (pa n : Nat) : List Keyed :=
  rs.flatMap fun r => (cutRange [(r.first, r.len)] pa n).map fun x => { r with first := x.1, len := x.2 }

def State.rawWrite (s : State) (pa : Nat) (bs : Bytes) : State :=
  s.modMem fun m => { m with cells := putCells m.cells pa bs, scrambled := cutKeyed m.scrambled pa bs.length }

/-- Zero a range of memory. -/
def State.rawZero (s : State) (pa len : Nat) : State :=
  s.modMem fun m =>
    { m with cells := m.cells.filter fun c => decide (c.1 < pa ∨ pa + len ≤ c.1)
             scrambled := cutKeyed m.scrambled pa len }

/-- A range last written under a key: where its granule has another, it reads as AES-XTS makes of it (R305). -/
def State.leaveKey (s : State) (pa len key : Nat) : State :=
  let first := granuleOf pa
  let last := granuleOf (pa + len - 1)
  let pieces := (List.range (last - first + 1)).filterMap fun i =>
    let g := first + i
    let lo := max pa (g * 2 ^ 30)
    let hi := min (pa + len) ((g + 1) * 2 ^ 30)
    if tabGet 64 s.mem.keyMap g = key then none else some ⟨lo, hi - lo, key, s.gen key⟩
  s.modMem fun m => { m with scrambled := pieces ++ m.scrambled }

/-- Remove the poison marks of a range of ECC blocks; on a wiped channel the blocks count as written (R302). -/
def State.clearPoison (s : State) (first last : Nat) : State :=
  let wiped := s.mem.chans.any fun e => !e.2.wiped.isEmpty
  s.modMem fun m =>
    { m with
      poison := m.poison.filter fun l => decide (l < first ∨ last < l)
      fresh := if wiped then m.fresh ++ [(first, last)] else m.fresh }

/-- Mark an ECC block poisoned. -/
def State.setPoison (s : State) (b : Nat) : State :=
  s.modMem fun m => { m with poison := insertNat m.poison b }

/-- Mark every ECC block of a range poisoned (R294). -/
def State.poisonRange (s : State) (pa n : Nat) : State :=
  (List.range (n / 64)).foldl (fun s i => s.setPoison (pa / 64 + i)) s

/-- An ECC block of direct memory that reads as poisoned (R294, R301, R302). -/
def State.blockBad (s : State) (pa : Nat) : Bool :=
  s.mem.poison.contains (pa / 64) || match s.memSet pa with
    | some m => s.lineLost m pa || s.blockWiped m pa
    | none => true

/-- Some ECC block of a range reads as poisoned. -/
def State.rangeBad (s : State) (pa n : Nat) : Bool := (List.range (n / 64)).any fun i => s.blockBad (pa + 64 * i)

/-- A redundant group keeps a write until its data and its parity are written (R298): 64 entries, of which the oldest goes
when a further one comes. -/
def State.addIntent (s : State) (g pa : Nat) (bs : Bytes) : State :=
  s.modMem fun m =>
    let mine := m.intents.filter fun x => x.group = g
    let kept := match mine with
      | x :: _ => if 64 ≤ mine.length then m.intents.erase x else m.intents
      | [] => m.intents
    { m with intents := kept ++ [⟨g, pa, bs⟩] }

/-- Write bytes inside one line of direct memory: to a lost line they are discarded (R301), and a redundant group keeps
them until data and parity are written (R298). -/
def State.dramWrite (s : State) (pa : Nat) (bs : Bytes) : State :=
  match s.memSet pa with
  | none => s
  | some m =>
    if s.lineLost m pa then s
    else
      let s := (s.touchChans (s.lineChans m pa true)).rawWrite pa bs
      if m.redundant then s.addIntent ((m.line pa).1 / 6) pa bs else s

/-- Write whole ECC blocks inside one line of direct memory: their marks go. -/
def State.blockWrite (s : State) (pa : Nat) (bs : Bytes) : State :=
  (s.dramWrite pa bs).clearPoison (pa / 64) ((pa + bs.length - 1) / 64)

/-! ### What a DRAM block holds -/

/-- Multiplication in GF(2^8) with the polynomial 0x11D (R292). -/
def eccMul : Nat → Byte → Byte → Byte
  | 0, _, _ => 0
  | n + 1, a, b =>
    (if b.getLsbD 0 then a else 0) ^^^ eccMul n ((a <<< 1) ^^^ (if a.getLsbD 7 then 0x1D else 0)) (b >>> 1)

/-- α^i, α being the element 2 of the field. -/
def eccAlpha (i : Nat) : Byte := (List.replicate i (2#8)).foldl (eccMul 8) 1

/-- The generator, of the roots α^0 to α^15, without its leading 1: the highest power first (R292). -/
def eccGenerator : Bytes :=
  ((List.range 16).foldl (fun (g : Bytes) i =>
    List.zipWith (· ^^^ ·) (g ++ [0]) (0 :: g.map fun x => eccMul 8 x (eccAlpha i))) [1]).drop 1

/-- The 16 check symbols of 64 data symbols: the remainder of the division by the generator, the first data symbol being
the highest power (R292). -/
def eccCheck (data : Bytes) : Bytes :=
  data.foldl (fun r x =>
    let f := r.headD 0 ^^^ x
    List.zipWith (· ^^^ ·) (r.drop 1 ++ [0]) (eccGenerator.map fun g => eccMul 8 g f)) (zeros 16)

/-- The key under which a block of direct memory stands, with the count of its values (R304, R305, R309): a region's key for
its store and the lines of its pool that have been written, the module key for its descriptors and bitmaps, else the
granule's. -/
def State.keyAt (s : State) (pa : Nat) : Nat × Nat :=
  let own (t : Tier) : Option Nat :=
    if !t.enabled then none
    else if t.store ≤ pa ∧ pa < t.store + t.storeLen then some t.key
    else if t.desc ≤ pa ∧ pa < t.desc + t.descLen then some 64
    else (t.pools.find? fun p => decide (p.base ≤ pa ∧ pa < p.base + p.frames * 4096)).bind fun p =>
      if pa < p.base + (p.frames + 32767) / 32768 * 4096 then some 64
      else if p.lines.contains (pa / 256) then some t.key else none
  match (List.range 16).findSome? fun i => own (s.tier i), s.keyed pa with
  | some k, _ => (k, s.gen k)
  | none, some r => (r.key, r.gen)
  | none, none => (s.granuleKey pa, s.gen (s.granuleKey pa))

/-- An ECC block as the DRAM holds it (R292, R294, R305): the ciphertext and its check symbols, which a poisoned block holds
XORed with 0x5A. -/
def State.dramBlock (s : State) (b : Nat) : Bytes :=
  let k := s.keyAt (64 * b)
  let data := blockCrypt false k.1 k.2 b (s.storedBlock b)
  let check := eccCheck data
  data ++ if s.mem.poison.contains b then check.map (· ^^^ 0x5A) else check

/-- The parity of a stripe (R287, R305): the XOR, over ciphertext, of the lines at the addresses given. -/
def State.stripeParity (s : State) (lines : List Nat) : Bytes :=
  lines.foldl (fun x pa => xorBytes x ((List.range 4).flatMap fun i => (s.dramBlock (pa / 64 + i)).take 64)) (zeros 256)

/-! ### The tier -/

def Tier.slotLen (t : Tier) : Nat := if t.class4 then 64 else 128

/-- The slot and the descriptor of a line index (R309). -/
def Tier.slotAddr (t : Tier) (i : Nat) : Nat := t.store + t.slotLen * i
def Tier.descAddr (t : Tier) (i : Nat) : Nat := t.desc + 8 * (i / 16)

/-- What a tier line's slot and pool hold: its bytes and whether they read as poisoned (R294, R317). -/
def State.tierLine (s : State) (t i : Nat) : Bytes × Bool :=
  let r := s.tier t
  if s.rangeBad (r.slotAddr i) r.slotLen then (zeros 256, true)
  else
    match decodeSlot (s.rawBytes (r.slotAddr i) r.slotLen) with
    | .line b => (b, false)
    | .overflow f =>
      (s.rawBytes (f * 4096 + 256 * (i % 16)) 256, s.rangeBad (f * 4096 + 256 * (i % 16)) 256)
    | .bad => (zeros 256, true)

/-- A slot can be read and does not decode (R317). -/
def State.codeError (s : State) (t i : Nat) : Bool :=
  let r := s.tier t
  !s.rangeBad (r.slotAddr i) r.slotLen && decodeSlot (s.rawBytes (r.slotAddr i) r.slotLen) == .bad

/-- The lowest free frame of the lowest pool range that has one (R322), by its base address. The frames of the
bitmap are never free. -/
def freeFrame (pools : List PoolRange) : Option (Nat × Nat) :=
  let free (p : PoolRange) : Option Nat :=
    let first := (p.frames + 32767) / 32768
    (List.range (p.used.length + 1)).map (first + ·) |>.find? fun f =>
      decide (f < p.frames) && !p.used.contains f
  (minBy PoolRange.base (pools.filter fun p => (free p).isSome)).bind fun p => (free p).map fun f => (p.base, f)

def allocFrame (pools : List PoolRange) (base f : Nat) : List PoolRange :=
  pools.map fun p => if p.base = base then { p with used := insertNat p.used f } else p

/-- Release the frame at an address. -/
def releaseFrame (pools : List PoolRange) (pa : Nat) : List PoolRange :=
  pools.map fun p =>
    if p.base ≤ pa ∧ pa < p.base + p.frames * 4096 then
      { p with used := p.used.filter (· != (pa - p.base) / 4096) }
    else p

/-- Usable and allocated frames of a region (R335). -/
def Tier.framesTotal (t : Tier) : Nat :=
  t.pools.foldl (fun n p => n + (p.frames - (p.frames + 32767) / 32768)) 0
def Tier.framesUsed (t : Tier) : Nat := t.pools.foldl (fun n p => n + p.used.length) 0

/-- A tier-pressure item (R324). -/
def State.pressure (s : State) (t kind : Nat) : State :=
  let r := s.tier t
  let free := min 0xFFFFFFFF (r.framesTotal - r.framesUsed)
  s.event (0x9C0 + t) (t * 2 ^ 44 + kind * 2 ^ 40 + free)

/-- Used frames stand at a threshold or above: they have risen to it, and have not fallen below it since (R323). -/
def stands (was : Bool) (used thr : Nat) : Bool :=
  if was then decide (thr ≤ used) else decide (0 < used ∧ thr ≤ used)

/-- Compare the used frames with the thresholds at the end of a tick (R323): KIND 1 and KIND 2 for a rise, KIND 4 for a
fall below THRESH_A, which arms KIND 2 again. -/
def State.pressureEval (s : State) (t : Nat) : State :=
  let r := s.tier t
  let u := r.framesUsed
  if r.enabled then
    let a := stands r.aboveA u r.threshA
    let b := stands r.aboveB u r.threshB
    let fell := r.aboveA && !a
    let riseB := r.armedB && !r.aboveB && b
    let s := s.modTier t fun r => { r with aboveA := a, aboveB := b, armedB := (r.armedB && !riseB) || fell }
    let s := if !r.aboveA ∧ a then s.pressure t 1 else s
    let s := if riseB then s.pressure t 2 else s
    if fell then s.pressure t 4 else s
  else s

/-- Set or clear a frame's bit in the bitmap of its pool range (R322): frame `f` is bit f mod 8 of byte f div 8. -/
def State.setFrameBit (s : State) (base f : Nat) (on : Bool) : State :=
  let pa := base + f / 8
  let old := (s.storedByte pa).toNat
  let new := if on then old ||| 2 ^ (f % 8) else if old.testBit (f % 8) then old - 2 ^ (f % 8) else old
  s.dramWrite pa [BitVec.ofNat 8 new]

/-- Take a frame of a pool range (R322). -/
def State.takeFrame (s : State) (t base f : Nat) : State :=
  (s.setFrameBit base f true).modTier t fun r => { r with pools := allocFrame r.pools base f }

/-- Release the frame at an address (R320, R322). -/
def State.dropFrame (s : State) (t pa : Nat) : State :=
  let s := match (s.tier t).pools.find? fun p => decide (p.base ≤ pa ∧ pa < p.base + p.frames * 4096) with
    | some p => s.setFrameBit p.base ((pa - p.base) / 4096) false
    | none => s
  s.modTier t fun r => { r with pools := releaseFrame r.pools pa }

/-- Write a pool line of a region, which then stands under the region's key (R305, R319). -/
def State.poolWrite (s : State) (t pa : Nat) (line : Bytes) : State :=
  (s.blockWrite pa line).modTier t fun r =>
    { r with pools := r.pools.map fun p =>
        if p.base ≤ pa ∧ pa < p.base + p.frames * 4096 then { p with lines := insertNat p.lines (pa / 256) } else p }

/-- Write a page descriptor (R318). -/
def State.setDesc (s : State) (t i frame mask : Nat) : State :=
  s.dramWrite ((s.tier t).descAddr i) (beBytes 8 (mask * 2 ^ 48 + frame))

/-- What a write-back finds in a line's slot (R320): where the slot cannot be read, the page's mask bit says whether the
line is in the pool. -/
def State.slotHeld (s : State) (t i frame mask : Nat) : SlotVal :=
  let r := s.tier t
  if s.rangeBad (r.slotAddr i) 64 then if mask.testBit (i % 16) then .overflow frame else .bad
  else decodeSlot (s.rawBytes (r.slotAddr i) 64 ++ zeros (r.slotLen - 64))

/-- Store a line in a tier region (R320); none where it needs a frame and none is free. -/
def State.tierStore (s : State) (t i : Nat) (line : Bytes) : Option State :=
  let r := s.tier t
  let d := numAt (s.rawBytes (r.descAddr i) 8) 0 8
  let frame := d % 2 ^ 40
  let mask := d / 2 ^ 48
  let bit := 2 ^ (i % 16)
  match encodeLine (8 * r.slotLen) line, s.slotHeld t i frame mask with
  | some code, .overflow _ =>
    let s := s.blockWrite (r.slotAddr i) code
    let mask := if mask.testBit (i % 16) then mask - bit else mask
    let s := s.setDesc t i frame mask
    some (if mask = 0 then s.dropFrame t (frame * 4096) else s)
  | some code, _ => some (s.blockWrite (r.slotAddr i) code)
  | none, .overflow f => some (s.poolWrite t (f * 4096 + 256 * (i % 16)) line)
  | none, _ =>
    let store (s : State) (frame : Nat) : State :=
      let s := s.poolWrite t (frame * 4096 + 256 * (i % 16)) line
      let s := s.setDesc t i frame (if mask.testBit (i % 16) then mask else mask + bit)
      s.blockWrite (r.slotAddr i) (overflowSlot (8 * r.slotLen) frame)
    if mask ≠ 0 then some (store s frame)
    else
      match freeFrame r.pools with
      | some (base, f) => some (store (s.takeFrame t base f) (base / 4096 + f))
      | none => none

/-- A poisoned line keeps its mark where it is stored (R275, R294): in its slot, and in the pool line of an overflowing
one. -/
def State.poisonTier (s : State) (t i : Nat) : State :=
  let r := s.tier t
  let u := match decodeSlot (s.rawBytes (r.slotAddr i) r.slotLen) with
    | .overflow f => s.poisonRange (f * 4096 + 256 * (i % 16)) 256
    | _ => s
  u.poisonRange (r.slotAddr i) r.slotLen

/-- The home slice of a line (R240). -/
def homeSlice (pa : Nat) : Nat :=
  ((pa >>> 8) % 4) ^^^ ((pa >>> 24) % 4) ^^^ ((pa >>> 32) % 4) ^^^ ((pa >>> 40) % 4)

/-- The pinned lines whose home is a slice (R326). -/
def State.pinsOf (s : State) (d : Nat) : Nat :=
  (List.range 16).foldl (fun n t =>
    n + ((s.tier t).pins.filter fun i => decide (homeSlice (tierBase + t * tierWindow + 256 * i) = d)).length) 0

/-- The address of a tier line. -/
def tierAddr (t i : Nat) : Nat := tierBase + t * tierWindow + 256 * i

/-- A line that its home slice holds pinned (R325). -/
def State.isPinned (s : State) (l : Nat) : Bool :=
  match s.place (256 * l) with
  | .tier t i => (s.tier t).pins.contains i
  | _ => false

/-- Some slice would hold a further pinned line beyond 512 (R326), in the state that `s` would go to. -/
def State.overPins (s t : State) : Bool := (List.range 4).any fun d => decide (512 < t.pinsOf d ∧ s.pinsOf d < t.pinsOf d)

/-- Pin a line that finds no frame: its data stays in the home slice (R325). -/
def State.pinLine (s : State) (t i : Nat) (line : Bytes) : State :=
  let new := !(s.tier t).pins.contains i
  let s := s.modCaches fun c => { c with dirty := tabInsert c.dirty (lineOf (tierAddr t i)) line }
  if new then
    ((s.modTier t fun r => { r with pins := r.pins ++ [i], exhaustedSeen := true }).pressure t 3).report
      (tierReporter t)
  else s

/-- A pinned line has been written or discarded; with the last one the exhaustion ends (R327). -/
def State.unpin (s : State) (t i : Nat) : State :=
  if (s.tier t).pins.contains i then
    let s := s.modTier t fun r => { r with pins := r.pins.filter (· != i) }
    let s := s.modCaches fun c => { c with dirty := tabErase c.dirty (lineOf (tierAddr t i)) }
    if (s.tier t).pins.isEmpty then s.pressure t 5 else s
  else s

/-! ### Where a cache holds a line -/

def setL1 (core pa : Nat) : Nat := core * 64 + (pa >>> 8) % 64
def setL2 (p pa : Nat) : Nat := p * 2048 + (pa >>> 8) % 2048
def setSlice (pa : Nat) : Nat := homeSlice pa * 16384 + (pa >>> 10) % 16384

/-- A line in a set. -/
def inSet (set : List CLine) (l : Nat) : Option CLine := set.find? fun c => c.line = l

def Caches.l2Line (c : Caches) (p l : Nat) : Option CLine := inSet (tabGet [] c.l2 (setL2 p (256 * l))) l
def Caches.sliceLine (c : Caches) (l : Nat) : Option CLine := inSet (tabGet [] c.slice (setSlice (256 * l))) l

/-- Some cache holds the line. -/
def State.cached (s : State) (l : Nat) : Bool :=
  (tabFind s.caches.dirty l).isSome || (s.caches.sliceLine l).isSome ||
    (List.range 52).any fun p => (s.caches.l2Line p l).isSome

/-! ### A line below the caches, and its current value -/

/-- The bytes that memory holds for a line, and whether they read as poisoned (R275, R284, R301, R310,
R317). -/
def State.memLine (s : State) (l : Nat) : Bytes × Bool :=
  let pa := 256 * l
  match s.place pa with
  | .direct _ => (s.rawBytes pa 256, s.rangeBad pa 256 || (s.backing pa).isSome)
  | .tier t i => s.tierLine t i
  | .pcie => (zeros 256, false)
  | _ => (zeros 256, true)

/-- The current bytes of a line, and whether it is poisoned: a copy in the caches keeps its bytes and the mark that it came
with (R275), whatever becomes of memory. -/
def State.lineVal (s : State) (l : Nat) : Bytes × Bool :=
  match tabFind s.caches.dirty l with
  | some b => (b, s.caches.bad.contains l)
  | none =>
    if s.cached l then ((tabFind s.caches.kept l).getD (s.memLine l).1, s.caches.bad.contains l) else s.memLine l

/-- The clean copies of a line hold these bytes: they are noted where memory holds others. -/
def State.keepAs (s : State) (l : Nat) (b : Bytes) : State :=
  if s.cached l then
    s.modCaches fun c =>
      { c with kept := if (tabFind c.dirty l).isSome || (s.memLine l).1 == b then tabErase c.kept l else tabInsert c.kept l b }
  else s

/-- Set or clear the poison mark of a line's copies in the caches. -/
def State.setBad (s : State) (l : Nat) (bad : Bool) : State :=
  s.modCaches fun c => { c with bad := if bad then insertNat c.bad l else c.bad.filter (· != l) }

/-- A line comes into the caches: its copy has the mark of what it was filled from. -/
def State.comesIn (s : State) (l : Nat) : State :=
  if s.cached l then s
  else (s.setBad l (s.memLine l).2).modCaches fun c => { c with kept := tabErase c.kept l }

/-- The channels that an access to a line of memory uses (R666): of a tier line those of its slot, and of its pool line
where it overflows. -/
def State.chansOf (s : State) (pa : Nat) (write : Bool) : List Nat :=
  let direct (pa : Nat) : List Nat := match s.memSet pa with
    | some m => s.lineChans m pa write
    | none => []
  match s.place pa with
  | .direct m => s.lineChans m pa write
  | .tier t i =>
    let r := s.tier t
    direct (r.slotAddr i) ++ match decodeSlot (s.rawBytes (r.slotAddr i) r.slotLen) with
      | .overflow f => direct (f * 4096 + 256 * (i % 16))
      | _ => []
  | _ => []

/-- The effects of reading a line from memory: its channels are used (R29), and a slot that does not decode sets CODE_ERR
(R317). -/
def State.noteRead (s : State) (l : Nat) : State :=
  let s := s.touchChans (s.chansOf (256 * l) false)
  match s.place (256 * l) with
  | .tier t i =>
    if s.codeError t i then (s.modTier t fun r => { r with codeErr := true }).report (tierReporter t) else s
  | _ => s

/-- The ASLEEP channels that an access to a line of memory needs (R28, R666). -/
def State.asleepChans (s : State) (l : Nat) (write : Bool) : List Nat :=
  s.sleeping (s.chansOf (256 * l) write)

/-- Write bytes inside one line to memory for a request that I/O die `d` receives (R275, R284, R301, R310,
R320, R325). A write of the whole line clears its poison; any other to a tier line reads it first (R317). -/
def State.memWrite (s : State) (d pa : Nat) (bs : Bytes) : State :=
  let l := lineOf pa
  let whole := decide (pa % 256 = 0 ∧ bs.length = 256)
  match s.place pa with
  | .direct _ =>
    match s.backing pa with
    | some t => (s.modTier t fun r => { r with directAccess := true }).report (tierReporter t)
    | none => if whole then (s.blockWrite pa bs).setBad l false else s.dramWrite pa bs
  | .tier t i =>
    let s := if whole ∨ s.cached l then s.touchChans (s.chansOf pa true) else (s.touchChans (s.chansOf pa true)).noteRead l
    let v := s.lineVal l
    let bad := v.2 && !whole
    let line := overlay v.1 (pa % 256) bs
    match s.tierStore t i line with
    | some s =>
      let s := (s.unpin t i).setBad l bad
      if bad then s.poisonTier t i else s
    | none => (s.pinLine t i line).setBad l bad
  | .unmapped => s.report (fabricReporter d)
  | _ => s

/-- A poisoned line that goes back to memory keeps its mark (R275, R294). -/
def State.markMemory (s : State) (l : Nat) : State :=
  match s.place (256 * l) with
  | .direct m => if (s.backing (256 * l)).isSome ∨ s.lineLost m (256 * l) then s else s.poisonRange (256 * l) 256
  | .tier t i => if (s.tier t).pins.contains i then s else s.poisonTier t i
  | _ => s

end Sys2Proof.Machine
end

