-- ==== Sys2Proof/Machine/Cache.lean ====
section
/-! DEFINITION. The caches (chapter 06): attributes of an address, replacement, fills and write-backs, and the
accesses of privileged and ordinary requesters. A line has one current value: the entry of `dirty` where some
cache holds it and memory does not, else what memory holds. -/

namespace Sys2Proof.Machine

/-- The attributes of an access (R252). POLICY 0 WB, 1 WT, 2 UNCACHED. `frozen` says that a REGION_SET is under way, during
which nothing allocates (R256). -/
structure Attr where
  policy : Nat
  allocR : Bool
  allocW : Bool
  stream : Bool
  frozen : Bool
  deriving DecidableEq, Repr

/-- An address lies in the range of a region entry (R253). -/
def Region.covers (r : Region) (pa : Nat) : Bool :=
  r.valid && decide (r.base ≤ pa / 2 ^ 21 ∧ pa / 2 ^ 21 ≤ r.limit)

/-- The attributes of a privileged access to an address (R252, R255, R256). -/
def State.attr (s : State) (pa : Nat) : Attr :=
  let changing := s.caches.jobs.any fun j =>
    match j with
    | .region e new _ => (tabGet Region.reset s.caches.regions e).covers pa || new.covers pa
    | _ => false
  if controlBase ≤ pa then ⟨2, false, false, false, false⟩
  else if changing then ⟨1, false, false, false, true⟩
  else
    match s.caches.regions.find? fun e => e.2.covers pa with
    | some (_, r) =>
      if r.policy = 2 then ⟨2, false, false, false, false⟩ else ⟨r.policy.toNat, r.allocR, r.allocW, r.stream, false⟩
    | none => ⟨0, true, true, false, false⟩

/-! ### Replacement -/

/-- Choose a victim by age among the ways the filler may use (R243): the way, and the set with its ages. -/
def nruPick (ways : List Nat) : Nat → List CLine → Option (Nat × List CLine)
  | 0, _ => none
  | n + 1, set =>
    match ways.find? fun w => !(set.any fun c => c.way = w) with
    | some w => some (w, set)
    | none =>
      match ways.find? fun w => set.any fun c => c.way = w ∧ c.age = 3 with
      | some w => some (w, set)
      | none => nruPick ways n (set.map fun c => { c with age := min 3 (c.age + 1) })

/-- One step of a slice's LFSR (R245). -/
def lfsrStep (l : BitVec 32) : BitVec 32 :=
  if l.getLsbD 0 then (l >>> 1) ^^^ 0x80200003#32 else l >>> 1

/-- The victim of a slice's set (R245): the lowest invalid eligible way, else the first eligible way from
L[4:0] upwards. -/
def slicePick (ok : List Nat) (set : List CLine) (l : BitVec 32) : Option Nat :=
  match ok.find? fun w => !(set.any fun c => c.way = w) with
  | some w => some w
  | none => ((List.range 32).map fun i => (l.toNat + i) % 32).find? fun w => ok.contains w

/-- Change a line of a set. -/
def modLine (set : List CLine) (l : Nat) (f : CLine → CLine) : List CLine :=
  set.map fun c => if c.line = l then f c else c

def dropLine (set : List CLine) (l : Nat) : List CLine := set.filter fun c => c.line != l

def Caches.modL1 (t : Tab (List CLine)) (core l : Nat) (f : List CLine → List CLine) : Tab (List CLine) :=
  tabMod [] t (setL1 core (256 * l)) f

def Caches.modL2 (c : Caches) (p l : Nat) (f : List CLine → List CLine) : Caches :=
  { c with l2 := tabMod [] c.l2 (setL2 p (256 * l)) f }

def Caches.modSliceSet (c : Caches) (l : Nat) (f : List CLine → List CLine) : Caches :=
  { c with slice := tabMod [] c.slice (setSlice (256 * l)) f }

/-- Take a line out of the L1s of a pair (R241). -/
def Caches.dropL1 (c : Caches) (p l : Nat) : Caches :=
  let drop (t : Tab (List CLine)) : Tab (List CLine) :=
    Caches.modL1 (Caches.modL1 t (2 * p) l fun x => dropLine x l) (2 * p + 1) l fun x => dropLine x l
  { c with l1i := drop c.l1i, l1d := drop c.l1d }

/-! ### The current value of a line -/

/-- The current byte at an address. -/
def State.byteAt (s : State) (pa : Nat) : Byte :=
  let l := lineOf pa
  match (tabFind s.caches.dirty l).or ((tabFind s.caches.kept l).filter fun _ => s.cached l) with
  | some b => b.getD (pa % 256) 0
  | none =>
    match s.place pa with
    | .direct _ => s.rawByte pa
    | .tier t i => (s.tierLine t i).1.getD (pa % 256) 0
    | .pcie => Config.deviceByte s.free pa
    | _ => 0

/-- The current bytes of a range. -/
def State.bytesAt (s : State) (pa n : Nat) : Bytes := (List.range n).map fun i => s.byteAt (pa + i)

/-- The lines of a range. -/
def linesOf (pa n : Nat) : List Nat :=
  if n = 0 then [] else (List.range ((pa + n - 1) / 256 - pa / 256 + 1)).map (pa / 256 + ·)

/-- Some byte of the range lies in a poisoned line. -/
def State.poisoned (s : State) (pa n : Nat) : Bool := (linesOf pa n).any fun l => (s.lineVal l).2

/-- The I/O die that receives a compute die's requests (R284). -/
def dieOfPair (p : Nat) : Nat := if p < 26 then 0 else if p < 52 then 1 else if p < 56 then (p - 52) / 2 else 0

/-- Write bytes of a whole line to memory, with the poison mark that they have (R275). -/
def State.putBack (s : State) (l : Nat) (b : Bytes) (bad : Bool) : State :=
  let s := s.memWrite (homeSlice (256 * l) / 2) (256 * l) b
  if bad then (s.markMemory l).setBad l true else s

/-- Write a dirty line back to memory: memory then holds it, unless it stays pinned (R325). Where memory discards it, the
copies in the caches keep their bytes (R301). -/
def State.writeBack (s : State) (l : Nat) : State :=
  match tabFind s.caches.dirty l with
  | none => s
  | some b =>
    let s := s.putBack l b (s.caches.bad.contains l)
    let pinned := s.isPinned l
    let s := s.modCaches fun c =>
      { c with dirty := if pinned then c.dirty else tabErase c.dirty l, under := tabErase c.under l }
    s.keepAs l b

/-- The home slice's dirty copy goes to memory. Where an L2 has modified the line since, its data stays dirty there. -/
def State.evictSlice (s : State) (l : Nat) : State :=
  match tabFind s.caches.under l, tabFind s.caches.dirty l with
  | some old, some new =>
    let bad := s.caches.bad.contains l
    ((s.putBack l old bad).modCaches fun c =>
      { c with dirty := tabInsert c.dirty l new, under := tabErase c.under l }).setBad l bad
  | _, _ => s.writeBack l

/-- Put new bytes into a line that a cache holds and memory does not. -/
def State.putDirty (s : State) (pa : Nat) (bs : Bytes) : State :=
  let l := lineOf pa
  let v := s.lineVal l
  let s := s.modCaches fun c =>
    { c with dirty := tabInsert c.dirty l (overlay v.1 (pa % 256) bs), kept := tabErase c.kept l }
  s.setBad l (v.2 && !decide (pa % 256 = 0 ∧ bs.length = 256))

/-! ### Fills and victims -/

/-- The ways of a slice that a filler may use for an address (R245, R259): not one whose line is pinned (R325), and not one
retired in the set (R274). -/
def State.sliceWays (s : State) (filler pa : Nat) : List Nat :=
  let d := homeSlice pa
  let v := s.slice d
  let set := tabGet [] s.caches.slice (setSlice pa)
  let mine := s.caches.locks.find? fun k => k.owner = filler ∧ k.base ≤ pa ∧ pa < k.base + k.len
  (List.range 32).filter fun w =>
    v.groupOn.getLsbD (w / 4) && !v.cleaning.getLsbD (w / 4) &&
      !s.caches.retiredSlice.contains (setSlice pa, w) &&
      !(set.any fun c => decide (c.way = w) && s.isPinned c.line) &&
      match mine with
      | some k => k.mask.getLsbD w
      | none => !(s.caches.locks.any fun k => k.mask.getLsbD w)

/-- Fill a line into one of some ways of its home slice (R245, R246): nothing where no way is eligible, where the data array
is disabled, or where the victim cannot leave (R326). -/
def State.sliceFillIn (s : State) (ways : List Nat) (l : Nat) (dirty pf : Bool) : State :=
  let pa := 256 * l
  let d := homeSlice pa
  let set := tabGet [] s.caches.slice (setSlice pa)
  let lf := lfsrStep (s.slice d).lfsr
  if s.cst (cellNo 3 d) = .running then
    match slicePick ways set lf with
    | none => s
    | some w =>
      let t := match set.find? fun c => c.way = w with
        | some v => if v.dirty then s.evictSlice v.line else s
        | none => s
      if s.overPins t then s
      else
        let t := (t.comesIn l).modSlice d fun v => { v with lfsr := lf }
        t.modCaches fun c => c.modSliceSet l fun set =>
          set.filter (fun c => c.way != w) ++
            [{ way := w, line := l, age := 0, dirty := dirty, exclusive := false, touched := 0, pf := pf }]
  else s

/-- Fill a line into its home slice for a filler (R245, R259). -/
def State.sliceFill (s : State) (filler l : Nat) (dirty pf : Bool) : State :=
  s.sliceFillIn (s.sliceWays filler (256 * l)) l dirty pf

/-- The home slice holds the line; `draining` says that its data array is being emptied (R272). -/
def State.inSlice (s : State) (l : Nat) : Bool := (s.caches.sliceLine l).isSome
def State.sliceState (s : State) (l : Nat) : CState := s.cst (cellNo 3 (homeSlice (256 * l)))

/-- The line leaves its home slice. -/
def State.leaveSlice (s : State) (l : Nat) : State := s.modCaches fun c => c.modSliceSet l fun set => dropLine set l

/-- The home slice's copy of a line becomes dirty. -/
def State.dirtySlice (s : State) (l : Nat) : State :=
  s.modCaches fun c => c.modSliceSet l fun set => modLine set l fun x => { x with dirty := true }

/-- Dirty data leaves an L2 (R254): into the home slice where it holds the line or may take it, else to
memory. A slice that drains updates memory and gives the line up (R272). -/
def State.toSlice (s : State) (filler l : Nat) : State :=
  let run := s.sliceState l = .running
  let a := s.attr (256 * l)
  let mark (s : State) : State := (s.dirtySlice l).modCaches fun c => { c with under := tabErase c.under l }
  if run ∧ s.inSlice l then mark s
  else
    let s := if a.allocW then s.sliceFill filler l true false else s
    if s.inSlice l ∧ run then s else (s.writeBack l).leaveSlice l

/-- A line leaves the L2 of a pair, with its L1 copies (R241). -/
def State.dropL2 (s : State) (p l : Nat) : State :=
  match s.caches.l2Line p l with
  | none => s
  | some v =>
    let s := s.modCaches fun c => (c.modL2 p l fun set => dropLine set l).dropL1 p l
    if v.dirty then s.toSlice (cellNo 1 p) l else s

/-- The line leaves every L2 but that of one pair. -/
def State.dropOthers (s : State) (keep l : Nat) : State :=
  (List.range 52).foldl (fun s p => if p = keep then s else s.dropL2 p l) s

/-- A modified copy in another pair's L2 becomes shared and its data goes to the home slice. -/
def State.shareOthers (s : State) (keep l : Nat) : State :=
  (List.range 52).foldl (fun s p =>
    if p = keep then s
    else
      match s.caches.l2Line p l with
      | none => s
      | some v =>
        let s := s.modCaches fun c => c.modL2 p l fun set =>
          modLine set l fun x => { x with dirty := false, exclusive := false }
        if v.dirty then s.toSlice (cellNo 1 p) l else s) s

/-- The L2 ways into which a core allocates (R257): not one retired in the set (R274). -/
def State.l2Ways (s : State) (core l : Nat) : List Nat :=
  let p := pairOfCore core
  let sh := (s.pair p).shadowWays.toNat
  let mine := if s.isSplit p then
      (List.range 16).filter fun w => if core % 2 = 1 then decide (16 - sh ≤ w) else decide (w < 16 - sh)
    else List.range 16
  mine.filter fun w => !s.caches.retiredL2.contains (setL2 p (256 * l), w)

/-- Fill a line into the L2 of a core's pair: nothing where no way is eligible (R246) or where the victim cannot leave
(R326). -/
def State.l2Fill (s : State) (core l age : Nat) (dirty pf : Bool) : State :=
  let p := pairOfCore core
  let key := setL2 p (256 * l)
  match nruPick (s.l2Ways core l) 4 (tabGet [] s.caches.l2 key) with
  | none => s
  | some (w, set) =>
    let t := s.modCaches fun c => { c with l2 := tabPut [] c.l2 key set }
    let t := match set.find? fun c => c.way = w with
      | some v => t.dropL2 p v.line
      | none => t
    if s.overPins t then s
    else
      let t := t.comesIn l
      let alone := (List.range 52).all fun q => q = p ∨ (t.caches.l2Line q l).isNone
      t.modCaches fun c => c.modL2 p l fun set =>
        set ++ [{ way := w, line := l, age := age, dirty := dirty, exclusive := dirty || alone, touched := 0,
                  pf := pf }]

/-- Fill a line into a core's L1 (R239). -/
def l1Fill (t : Tab (List CLine)) (core l age : Nat) (touched : Nat) : Tab (List CLine) :=
  let key := setL1 core (256 * l)
  match nruPick (List.range 8) 4 (tabGet [] t key) with
  | none => t
  | some (w, set) =>
    tabPut [] t key (set.filter (fun c => c.way != w) ++
      [{ way := w, line := l, age := age, dirty := false, exclusive := false, touched := touched, pf := false }])

/-- A hit in a set: the age becomes 0 (R243). -/
def hitLine (set : List CLine) (l : Nat) (touched : Nat) : List CLine :=
  modLine set l fun x => { x with age := 0, touched := max x.touched touched, pf := false }

/-! ### Accesses -/

/-- The mark of the lines that the window in progress fills or writes (R198). -/
def State.windowMark (s : State) (core : Nat) : Nat :=
  if s.isSplit (pairOfCore core) then 0 else (s.pair (pairOfCore core)).opened.number + 1

/-- The L2 of a pair answers a line (R273): while it is DRAINING only dirty lines hit. -/
def State.l2Hits (s : State) (p l : Nat) : Bool :=
  match s.caches.l2Line p l with
  | some v => decide ((s.pair p).l2State = 0) || (decide ((s.pair p).l2State = 1) && v.dirty)
  | none => false

/-- A core of a compute pair reads or fetches a line (R243, R254). L1I allocates on every fetch miss, and the L2 then holds
the line too (R241). The result also says whether the load missed the L2 or hit a prefetched line there (R247). -/
def State.coreTouch (s : State) (core l : Nat) (fetch : Bool) : State × Bool :=
  let p := pairOfCore core
  let a := s.attr (256 * l)
  let age := if a.stream then 3 else 0
  let on := if fetch then (s.pair p).l1iOn else (s.pair p).l1dOn
  let tab := if fetch then s.caches.l1i else s.caches.l1d
  let setTab (s : State) (t : Tab (List CLine)) : State :=
    s.modCaches fun c => if fetch then { c with l1i := t } else { c with l1d := t }
  let l1Alloc := a.allocR || (fetch && !a.frozen)
  if a.policy = 2 then (s.noteRead l, false)
  else if on ∧ (inSet (tabGet [] tab (setL1 core (256 * l))) l).isSome then
    (setTab s (Caches.modL1 tab core l fun set => hitLine set l 0), false)
  else
    let pfHit := ((s.caches.l2Line p l).map CLine.pf).getD false
    let hit := s.l2Hits p l
    let s :=
      if hit then s.modCaches fun c => c.modL2 p l fun set => hitLine set l 0
      else
        let s := s.shareOthers p l
        let s := if s.cached l then s else s.noteRead l
        let s := if a.allocR ∧ !s.inSlice l then s.sliceFill (cellNo 1 p) l false false else s
        if l1Alloc ∧ (s.pair p).l2State = 0 then s.l2Fill core l age false false else s
    let s :=
      if on ∧ l1Alloc ∧ (s.caches.l2Line p l).isSome then
        setTab s (l1Fill (if fetch then s.caches.l1i else s.caches.l1d) core l age (s.windowMark core))
      else s
    (s, !hit || pfHit)

/-- Split bytes at line boundaries. -/
def splitLines : Nat → Nat → Bytes → List (Nat × Bytes)
  | 0, _, _ => []
  | n + 1, pa, bs =>
    let k := 256 - pa % 256
    if bs.isEmpty then [] else (pa, bs.take k) :: splitLines n (pa + k) (bs.drop k)

/-- A write reaches a slice that drains and holds the line (R272): memory is updated and the line invalidated. -/
def State.throughSlice (s : State) (d pa : Nat) (bs : Bytes) : State :=
  let l := lineOf pa
  if (tabFind s.caches.dirty l).isSome then ((s.putDirty pa bs).writeBack l).leaveSlice l
  else
    let new := overlay (s.lineVal l).1 (pa % 256) bs
    ((s.memWrite d pa bs).leaveSlice l).keepAs l new

/-- Bytes written to a line at its home slice and to memory: the value of a copy there changes with it. -/
def State.writeThrough (s : State) (d pa : Nat) (bs : Bytes) : State :=
  let l := lineOf pa
  let held := (tabFind s.caches.dirty l).isSome
  let new := overlay (s.lineVal l).1 (pa % 256) bs
  match s.place pa with
  | .tier _ _ =>
    let s := s.memWrite d pa bs
    if s.isPinned l then s
    else
      let s := s.modCaches fun c =>
        { (c.modSliceSet l fun set => modLine set l fun x => { x with dirty := false }) with
          dirty := tabErase c.dirty l, under := tabErase c.under l }
      s.keepAs l new
  | _ =>
    let s := if held then s.putDirty pa bs else s
    let bad := s.caches.bad.contains l
    let s := s.memWrite d pa bs
    if held then s.setBad l bad else s.keepAs l new

/-- Bytes of one line written by an ordinary requester (R251): every L2 copy is invalidated, a line present in
the home slice is updated, and memory is written. -/
def State.dmaLine (s : State) (d pa : Nat) (bs : Bytes) : State :=
  let l := lineOf pa
  let s := s.dropOthers 52 l
  if s.inSlice l ∧ s.sliceState l = .draining then s.throughSlice d pa bs else s.writeThrough d pa bs

/-- Bytes written by an ordinary requester of I/O die `d`. -/
def State.dmaWrite (s : State) (d pa : Nat) (bs : Bytes) : State :=
  (splitLines (bs.length + 1) pa bs).foldl (fun s x => s.dmaLine d x.1 x.2) s

/-- Bytes of one line written at its home slice by a privileged requester of I/O die `d` whose own caches do not take them
(R254, R272). -/
def State.homeWrite (s : State) (filler d pa : Nat) (bs : Bytes) : State :=
  let l := lineOf pa
  let a := s.attr pa
  if s.inSlice l ∧ s.sliceState l = .draining then s.throughSlice d pa bs
  else
    let s := if a.allocW ∧ !s.inSlice l then (if s.cached l then s else s.noteRead l).sliceFill filler l false false else s
    if a.policy = 0 ∧ s.inSlice l then (s.dirtySlice l).putDirty pa bs else s.writeThrough d pa bs

/-- A core's L2 takes bytes of a line that it holds (R254): under WT they go to memory as well, and a slice that drains gives
the line up (R272). -/
def State.l2Write (s : State) (core pa : Nat) (bs : Bytes) (wb : Bool) : State :=
  let p := pairOfCore core
  let l := lineOf pa
  let slice := ((s.caches.sliceLine l).map CLine.dirty).getD false
  let mine := ((s.caches.l2Line p l).map CLine.dirty).getD false
  let s := if wb ∧ (slice ∨ s.isPinned l) ∧ !mine then
      match tabFind s.caches.dirty l with
      | some b => s.modCaches fun c => { c with under := tabInsert c.under l b }
      | none => s
    else s
  let s := s.modCaches fun c => c.modL2 p l fun set =>
    modLine set l fun x => { x with age := 0, exclusive := true, dirty := x.dirty || wb, pf := false }
  if wb then s.putDirty pa bs
  else if s.inSlice l ∧ s.sliceState l = .draining then s.throughSlice (dieOfPair p) pa bs
  else s.writeThrough (dieOfPair p) pa bs

/-- Bytes of one line written by a compute core (R254). While its L2 drains, a write to a clean line goes to the home slice
(R273). -/
def State.coreWrite (s : State) (core pa : Nat) (bs : Bytes) : State :=
  let p := pairOfCore core
  let l := lineOf pa
  let a := s.attr pa
  if a.policy = 2 then s.dmaLine (dieOfPair p) pa bs
  else
    let wb := decide (a.policy = 0)
    let s := s.dropOthers p l
    let other := if core % 2 = 0 then core + 1 else core - 1
    let s := s.modCaches fun c =>
      { c with l1d := Caches.modL1 (Caches.modL1 c.l1d core l fun set => hitLine set l 0) other l
                        fun set => dropLine set l }
    if s.l2Hits p l then s.l2Write core pa bs wb
    else
      let s := s.dropL2 p l
      let s := if a.allocW ∧ (s.pair p).l2State = 0 then
          let s := if s.cached l then s else s.noteRead l
          let s := if s.inSlice l then s else s.sliceFill (cellNo 1 p) l false false
          s.l2Fill core l (if a.stream then 3 else 0) false false
        else s
      if (s.caches.l2Line p l).isSome then s.l2Write core pa bs wb
      else s.homeWrite (cellNo 1 p) (dieOfPair p) pa bs

/-- Bytes of one line written by a privileged requester without an L2, of I/O die `d`: a journal engine or Vixia (R251). -/
def State.privLine (s : State) (filler d pa : Nat) (bs : Bytes) : State :=
  if (s.attr pa).policy = 2 then s.dmaLine d pa bs
  else (s.dropOthers 52 (lineOf pa)).homeWrite filler d pa bs

/-- A privileged requester without an L2 reads a line (R251, R254). -/
def State.privTouch (s : State) (filler l : Nat) : State :=
  let a := s.attr (256 * l)
  let s := s.shareOthers 52 l
  let s := if s.cached l then s else s.noteRead l
  if a.policy != 2 ∧ a.allocR ∧ !s.inSlice l then s.sliceFill filler l false false else s

/-- An ordinary requester reads a line (R251): a modified copy in an L2 is served, and nothing allocates. -/
def State.dmaTouch (s : State) (l : Nat) : State :=
  let s := s.shareOthers 52 l
  if s.cached l then s else s.noteRead l

/-- It reads a range. -/
def State.dmaRead (s : State) (pa n : Nat) : State := (linesOf pa n).foldl (fun s l => s.dmaTouch l) s

/-- A line is written poisoned by an ordinary requester (R275, R382). -/
def State.poisonLine (s : State) (l : Nat) : State :=
  let s := (s.dropOthers 52 l).markMemory l
  if s.cached l then s.setBad l true else s

/-- A line goes out of every cache: dirty data is discarded (R260, R268, R329), pins included. -/
def State.discardLine (s : State) (l : Nat) : State :=
  let s := s.modCaches fun c =>
    let c := (List.range 52).foldl (fun c p => (c.modL2 p l fun set => dropLine set l).dropL1 p l) c
    { (c.modSliceSet l fun set => dropLine set l) with dirty := tabErase c.dirty l, under := tabErase c.under l, kept := tabErase c.kept l }
  match s.place (256 * l) with
  | .tier t i => s.unpin t i
  | _ => s

/-! ### Accesses that must wait -/

/-- Any access to the granule waits (R306). -/
def State.granuleBusy (s : State) (pa : Nat) : Bool :=
  s.mem.jobs.any fun j =>
    match j with
    | .granuleKey g _ _ => g == granuleOf pa
    | .assign _ _ gs _ => gs.contains (granuleOf pa)
    | _ => false

/-- The entries of a pair's gated-store buffer, the oldest first (R194). -/
def Pair.gated (p : Pair) : List GStore := p.committed ++ p.closed.flatMap Window.stores ++ p.opened.stores

/-- The location is reserved for an atomic of another pair (R142). -/
def State.reservedFor (s : State) (p pa n : Nat) : Bool :=
  s.pairs.any fun e =>
    e.1 != p && e.2.gated.any fun g =>
      g.atomic && g.pieces.any fun x => decide (x.1 < pa + n ∧ pa < x.1 + x.2.length)

/-- A requester outside the pairs must wait for the location (R142). -/
def State.reserved (s : State) (pa n : Nat) : Bool := s.reservedFor 57 pa n

/-- The ASLEEP memory channels that an access to a range waits for (R28, R666): what a cache holds needs none, unless the
access goes to memory all the same, as UNCACHED accesses and writes under WT do. -/
def State.asleepIn (s : State) (pa n : Nat) (write : Bool) : List Nat :=
  (linesOf pa n).flatMap fun l =>
    let policy := (s.attr (256 * l)).policy
    if s.cached l && decide (policy = 0 ∨ (policy = 1 ∧ write = false)) then [] else s.asleepChans l write

/-- An access to memory by a requester outside the pairs waits for a granule operation (R306) or an atomic (R142). -/
def State.blocked (s : State) (ps : List (Nat × Nat)) : Bool :=
  ps.any fun p => decide (p.1 < pcieBase) && (s.granuleBusy p.1 || s.reserved p.1 p.2)

/-- The ASLEEP channels that such an access needs (R28, R666): a write of a requester outside the pairs goes to memory,
whatever the caches hold (R251). -/
def State.asleepOf (s : State) (ps : List (Nat × Nat)) (write : Bool) : List Nat :=
  ps.flatMap fun p =>
    if pcieBase ≤ p.1 then []
    else if write then (linesOf p.1 p.2).flatMap fun l => s.asleepChans l true
    else s.asleepIn p.1 p.2 false

/-- A requester outside the pairs makes an access, or waits: for a granule operation (R306), an atomic (R142), an ASLEEP
channel, which then begins to wake (R28), or a slice that can hold no further pinned line (R326). The first component says
that the access was made. -/
def State.reach {α : Type} (s : State) (ps : List (Nat × Nat)) (write : Bool) (act : State → α × State) : Option α × State :=
  if s.blocked ps then (none, s)
  else
    let cs := s.asleepOf ps write
    if cs.isEmpty then
      let r := act s
      if s.overPins r.2 then (none, s) else (some r.1, r.2)
    else (none, s.touchChans cs)

/-- The table entries that translate an access cannot be reached yet: an atomic reserves one, a granule operation holds it, or
its channel is ASLEEP, which then begins to wake. The state is none where the access may go on. -/
def State.tablesWait (s : State) (tables : List (Nat × Nat)) : Option State :=
  if s.blocked tables then some s
  else
    let cs := s.asleepOf tables false
    if cs.isEmpty then none else some (s.touchChans cs)

/-- Such an access, with the table entries that translate it. -/
def State.reachVia {α : Type} (s : State) (tables ps : List (Nat × Nat)) (write : Bool) (act : State → α × State) :
    Option α × State :=
  match s.tablesWait tables with
  | some t => (none, t)
  | none => s.reach ps write act

end Sys2Proof.Machine
end

