-- ==== Sys2Proof/Machine/Packet.lean ====
section
/-! DEFINITION. Command packets (R58 to R64): reading one from a ring slot, the checks that apply to every
packet, executing an opcode, and the status replies. -/

namespace Sys2Proof.Machine

/-- What executing a command answers: the status, the detail word and results of its reply, and the state
after it. -/
structure Res where
  status  : Nat
  detail  : Nat
  results : Bytes
  state   : State
  deriving DecidableEq, Repr

/-- DONE without results. -/
def done (s : State) : Res := ⟨0, 0, [], s⟩

/-- DONE with results, padded to whole words. -/
def doneWith (bs : Bytes) (s : State) : Res := ⟨0, 0, pad8 bs, s⟩

/-- ACCEPTED: a completion follows. -/
def accepted (s : State) : Res := ⟨1, 0, [], s⟩

/-- The status that stands for a reply still to be formed, at a FORWARD that another member executes (R577). -/
def later : Nat := 0x10000

/-- A refusal with a detail word; nothing changes. -/
def refuse (status detail : Nat) (s : State) : Res := ⟨status, detail, [], s⟩

/-- A request as an opcode's handler sees it: the packet, the cell it addresses, and the opcode. -/
structure Req where
  pk   : Pkt
  cell : Nat
  op   : Nat
  deriving DecidableEq, Repr

/-- Who is owed the completion of an ACCEPTED request (R63). -/
def Req.who (r : Req) : Asker :=
  { ring := r.pk.ring.val, tag := r.pk.tag, op := BitVec.ofNat 16 r.op, partition := r.pk.partition }

/-- The partition on whose behalf a request acts (R58). -/
def Req.part (r : Req) : Nat := r.pk.partition.toNat

/-- Parameter word `i` of a request. -/
def Req.word (r : Req) (i : Nat) : Word := wordAt r.pk.params i

/-- The number in `n` parameter bytes at an offset. -/
def Req.num (r : Req) (off n : Nat) : Nat := numAt r.pk.params off n

/-- An opcode: its code, the parameter lengths in 8-byte units that it takes (for the cell, where the cell is
known), the cells it may address, the classes each cell allows, and its effect. -/
structure Op where
  code    : Nat
  len     : Option Nat → Pkt → Bool
  on      : State → Nat → Bool
  classes : Nat → List Nat
  run     : Req → State → Res

/-- The parameter length in 8-byte units. -/
def pktUnits (pk : Pkt) : Nat := pk.params.length / 8

/-- An opcode that takes exactly `n` parameter words. -/
def exactly (n : Nat) (_ : Option Nat) (pk : Pkt) : Bool := pktUnits pk == n

/-- What is wrong with the reserved bits of a parameter word of which `used` are the fields: 0x0105 where a whole
reserved byte is not zero, 0x0109 where a bit beside a field is not, else 0 (R10; log entry 60). -/
def badWord (w : Word) (used : Nat) : Nat :=
  let whole := (List.range 8).foldl (fun n i =>
    if used / 2 ^ (8 * i) % 256 = 0 then n + 255 * 2 ^ (8 * i) else n) 0
  if w.toNat &&& whole ≠ 0 then 0x0105
  else if w.toNat &&& used ≠ w.toNat then 0x0109
  else 0

/-- A cell of one of the kinds. -/
def kindIn (ks : List Nat) (_ : State) (c : Nat) : Bool := ks.contains (cellKind c)

/-- Classes 1 and 2. -/
def mgr (_ : Nat) : List Nat := [1, 2]

/-- Classes 0, 1 and 2. -/
def any012 (_ : Nat) : List Nat := [0, 1, 2]

/-- Class 0 on a partition cell only, classes 1 and 2 everywhere. -/
def tenantOnPart (c : Nat) : List Nat := if cellKind c = 0x14 then [0, 1, 2] else [1, 2]

/-- The cell that a path names in the module (R43); a core is a cell only while its pair is split. -/
def State.findCell (s : State) (path : Bytes) : Option Nat :=
  match cellOfPath path with
  | some c => if cellKind c = 2 ∧ !s.isSplit (cellIndex c / 2) then none else some c
  | none => none

/-- A cell that a tenant may address: one assigned to its partition, or its own partition cell (R61, R62). -/
def State.visible (s : State) (n c : Nat) : Bool :=
  let i := cellIndex c
  match cellKind c with
  | 0x01 => s.parts.procs.any fun p => p.part = n ∧ p.whole ∧ p.core = 2 * i
  | 0x02 => s.parts.procs.any fun p => p.part = n ∧ !p.whole ∧ p.core = i
  | 0x06 => s.parts.ports.any fun u => u.part = n ∧ u.unit = i
  | 0x07 => s.parts.engines.any fun u => u.part = n ∧ u.unit = i
  | 0x08 => s.parts.engines.any fun u => u.part = n ∧ u.unit = 4 + i
  | 0x0C => (s.queue i).owner == some n
  | 0x0D => (s.ctx i).owner == some n
  | 0x0E => (tabGet none s.io.classOwner i) == some n
  | 0x0F => (s.timer i).owner == some n
  | 0x14 => i == n
  | _ => false

/-- The highest class a ring may carry (R61, R68, R69): Vixia's internal ring carries class 2, the bundle ports
class 3. -/
def State.authMax (s : State) (ring : Nat) : Nat :=
  if ring = 1024 then 2 else if ring = 1025 then 3 else (s.ring ring).authMax

/-- The checks that apply to every packet, in the order of R64, then the opcode's own. -/
def Op.judge (o : Op) (pk : Pkt) (s : State) : Res :=
  let auth := pk.auth.toNat
  let owner := pk.ring.val / 16
  let found := s.findCell pk.path
  let seen := match found with
    | some c => if auth = 0 ∧ !s.visible owner c then none else some c
    | none => none
  let known := match seen with
    | some c => if o.on s c then some c else none
    | none => none
  if 14 < pk.path.length then refuse 0x0103 0 s
  else if 508 < pktUnits pk ∨ pk.params.length % 8 ≠ 0 ∨ !o.len known pk then refuse 0x0104 0 s
  else if 4 ≤ auth ∨ s.authMax pk.ring < auth ∨ (auth = 2 ∧ pk.ring.val ≠ 1024) then refuse 0x010A 0 s
  else if auth = 0 ∧ pk.partition.toNat ≠ owner then refuse 0x010B 0 s
  else
    match seen with
    | none => refuse 0x0107 0 s
    | some c =>
      if !o.on s c then refuse 0x0108 0 s
      else if !(o.classes c).contains auth then refuse 0x010A 0 s
      else o.run ⟨pk, c, o.code⟩ s

/-- Put a reply into a ring's outbox. -/
def State.reply (s : State) (ring : Nat) (r : Reply) : State :=
  s.modRing ring fun x => { x with outbox := x.outbox ++ [r] }

/-- The status that a reply gives: with CHECK_ONLY, DONE in place of ACCEPTED (R60). -/
def replyStatus (checkOnly : Bool) (status : Nat) : Nat := if checkOnly ∧ status = 1 then 0 else status

/-- The immediate reply to a packet (R63). -/
def immediate (op : Nat) (pk : Pkt) (r : Res) : Reply :=
  { op := BitVec.ofNat 16 op, tag := pk.tag, status := BitVec.ofNat 16 (replyStatus pk.checkOnly r.status),
    detail := BitVec.ofNat 32 r.detail, partition := pk.partition, completion := false,
    checkOnly := pk.checkOnly, results := r.results.take 4064, entry := none }

/-- Answer a packet: with CHECK_ONLY nothing changes but the reply (R60); an ACCEPTED command counts as
outstanding until its completion is written (R71), and so does one whose reply is still to be formed. The reply
precedes what the command has posted. -/
def answer (op : Nat) (pk : Pkt) (r : Res) (s : State) : State :=
  let t := if pk.checkOnly ∧ r.status ≠ later then s else r.state
  let status := replyStatus pk.checkOnly r.status
  let t := if status = 1 ∨ status = later then
    t.modRing pk.ring fun x => { x with outstanding := x.outstanding + 1 } else t
  if status = later then t else
  let n := (s.ring pk.ring).outbox.length
  t.modRing pk.ring fun x =>
    { x with outbox := x.outbox.take n ++ [immediate op pk r] ++ x.outbox.drop n }

/-- Execute a packet with one opcode and answer it. -/
def submit (o : Op) (pk : Pkt) (s : State) : State := answer o.code pk (o.judge pk s) s

/-- Post the completion of an ACCEPTED command (R63). -/
def State.complete (s : State) (who : Asker) (status detail : Nat) (results : Bytes) : State :=
  s.reply who.ring
    { op := who.op, tag := who.tag, status := BitVec.ofNat 16 status, detail := BitVec.ofNat 32 detail,
      partition := who.partition, completion := true, checkOnly := false, results := pad8 results,
      entry := none }

/-- A cell fails (R51): it is FAULTED, and every STOP and START that it still owes completes with 0x0503. -/
def State.failCell (s : State) (c : Nat) : State :=
  let x := s.cell c
  let s := s.modCell c fun x => { x with st := .faulted, waking := false, stops := [] }
  x.stops.foldl (fun s w => s.complete w 0x0503 0 []) s

/-- A cell becomes STOPPED (R51): every STOP that it still owes completes. -/
def State.cellStops (s : State) (c : Nat) : State :=
  let x := s.cell c
  let s := s.modCell c fun x => { x with st := .stopped, waking := false, sleepAsked := false, stops := [] }
  x.stops.foldl (fun s w => s.complete w 0 0 []) s

/-- The bytes of a reply written at timebase `tb` (R63). -/
def replyBytes (tb : Word) (r : Reply) : Bytes :=
  let head : Bytes :=
    [BitVec.ofNat 8 (0x10 + b1 r.completion + 2 * b1 r.checkOnly), 0] ++ beBytes 2 r.op.toNat ++
      beBytes 4 r.tag.toNat ++ beBytes 2 r.status.toNat ++ beBytes 2 (r.results.length / 8) ++
      beBytes 4 r.detail.toNat ++ wordBytes tb ++ [r.partition] ++ zeros 5
  head ++ beBytes 2 (crc16 head) ++ r.results

/-- A packet read from a slot: its opcode, and the first header check that it fails (0 for none), in the order
of R64. -/
def parsePacket (ring : Fin 1026) (bs : Bytes) : Nat × Nat × Pkt :=
  let plen := numAt bs 1 1
  let units := numAt bs 22 2
  let flags := bs.getD 0 0
  let pk : Pkt :=
    { ring := ring, tag := BitVec.ofNat 32 (numAt bs 4 4), path := slice bs 8 (min plen 14),
      partition := bs.getD 24 0, auth := bs.getD 25 0, checkOnly := flags.getLsbD 0,
      params := slice bs 32 (8 * units) }
  let status :=
    if crc16 (bs.take 30) ≠ numAt bs 30 2 then 0x0102
    else if bits flags 7 4 ≠ 1 then 0x0101
    else if bits flags 3 1 ≠ 0 ∨ !allZero (slice bs 26 4) ∨ (plen ≤ 14 ∧ !allZero (slice bs (8 + plen) (14 - plen)))
    then 0x0105
    else if 14 < plen then 0x0103
    else if 508 < units then 0x0104
    else 0
  (numAt bs 2 2, status, pk)

end Sys2Proof.Machine
end

