-- ==== Sys2Proof/Machine/Translate.lean ====
section
/-! DEFINITION. Address translation (R96 to R100, R665) and the owner check (R469), for a processor and for
what acts on behalf of a partition (a ring, a mover, an engine). -/

namespace Sys2Proof.Machine

/-- What an access does. -/
inductive Acc where
  | read | write | fetch
  deriving DecidableEq, Repr

/-- Where a translation ends: the physical address with the bounds of its page, or the failure: at stage 1 (a
failed walk or a permission) or at the host stage, whose fault address is the partition-stage address. A refused permission
still gives the physical address. -/
inductive Xlate where
  | ok (pa lo hi : Nat)
  | walk1 (va : Nat)
  | perm1 (va pa : Nat)
  | host (gpa : Nat) (table : Bool) (pa : Option Nat)
  deriving DecidableEq, Repr

/-- The physical address to which a translation leads, whether or not it is permitted. -/
def Xlate.pa : Xlate → Option Nat
  | .ok pa _ _ => some pa
  | .walk1 _ => none
  | .perm1 _ pa => some pa
  | .host _ _ pa => pa

/-- A table level: the lowest bit it indexes, how many bits it indexes, and whether it allows leaves. -/
structure WalkLevel where
  shift : Nat
  width : Nat
  leaf  : Bool
  deriving DecidableEq, Repr

/-- The geometry of R97. -/
def stage1Levels : List WalkLevel :=
  [⟨57, 7, false⟩, ⟨48, 9, false⟩, ⟨39, 9, false⟩, ⟨30, 9, true⟩, ⟨21, 9, true⟩, ⟨12, 9, true⟩]

def hostLevels : List WalkLevel := [⟨48, 4, false⟩, ⟨39, 9, false⟩, ⟨30, 9, true⟩, ⟨21, 9, true⟩, ⟨12, 9, true⟩]

/-- The ADDR field of an entry (R98). -/
def entryAddr (e : Nat) : Nat := e / 4096 % 2 ^ 40 * 4096

/-- The log2 of the page size of a leaf entry (R97, R98). -/
def leafShift (l : WalkLevel) (e : Nat) : Nat := if l.shift = 12 ∧ e.testBit 9 then 16 else l.shift

/-- A walk's end: the physical address and bounds of the page, the leaf entry and the address it lies at. -/
structure Leaf where
  addr  : Nat
  shift : Nat
  entry : Nat
  at_   : Nat
  deriving DecidableEq, Repr

/-- Walk tables whose entries are read by `read`; the walk fails where the entry is not VALID, is a leaf where
none is allowed, points further at the last level, or has ADDR bits below its page size (R97, R98, R665). -/
def walk (read : Nat → Option Nat) (a : Nat) : List WalkLevel → Nat → Option Leaf
  | [], _ => none
  | l :: ls, table =>
    let at_ := table + 8 * (a / 2 ^ l.shift % 2 ^ l.width)
    match read at_ with
    | none => none
    | some e =>
      if !e.testBit 0 then none
      else if e.testBit 1 then
        let sh := leafShift l e
        if l.leaf ∧ entryAddr e % 2 ^ sh = 0 then some ⟨entryAddr e + a % 2 ^ sh, sh, e, at_⟩ else none
      else walk read a ls (entryAddr e)

/-- An 8-byte entry in memory. -/
def State.entryAt (s : State) (pa : Nat) : Nat := beNat (s.bytesAt pa 8)

/-- What a partition may reach of the address map (R469): its granules, the windows of the root ports it owns
(R563), and control space, whose own rules are R77's. -/
def State.owned (s : State) (n pa : Nat) : Bool :=
  if pa < pcieBase then s.owner (granuleOf pa) == some n
  else if pa < controlBase then
    let k := (pa - pcieBase) / 2 ^ 43
    decide (k < 64) && (s.port (4 * k)).cfg.owner == n
  else true

/-- Whether the host stage permits an access (R98). -/
def Leaf.mayHost (f : Leaf) (acc : Acc) : Bool :=
  match acc with
  | .read => f.entry.testBit 2
  | .write => f.entry.testBit 3
  | .fetch => f.entry.testBit 4

/-- The host stage of a partition: from a partition-stage address to a physical one, with its permission
check (R96, R98) and the owner check (R469). -/
def State.hostWalk (s : State) (n root gpa : Nat) (acc : Acc) : Option Leaf :=
  match walk (fun a => some (s.entryAt a)) gpa hostLevels root with
  | some f => if f.mayHost acc && s.owned n f.addr then some f else none
  | none => none

/-- The entries that a walk reads, in order, each with its address. -/
def walkPath (read : Nat → Option Nat) (a : Nat) : List WalkLevel → Nat → List (Nat × Nat)
  | [], _ => []
  | l :: ls, table =>
    let at_ := table + 8 * (a / 2 ^ l.shift % 2 ^ l.width)
    match read at_ with
    | none => []
    | some e => (at_, e) :: (if e.testBit 0 ∧ !e.testBit 1 then walkPath read a ls (entryAddr e) else [])

/-- The host-stage entries for a partition-stage address. -/
def State.hostPath (s : State) (root gpa : Nat) : List (Nat × Nat) :=
  walkPath (fun a => some (s.entryAt a)) gpa hostLevels root

/-- An entry with ACC, and DIRTY on a write (R99). -/
def markedEntry (e : Nat) (acc : Acc) : Nat := e ||| 0x80 ||| (if acc = .write then 0x100 else 0)

/-- Set ACC, and DIRTY on a write, in an entry (R99). -/
def State.markAt (s : State) (pa e : Nat) (acc : Acc) : State :=
  if markedEntry e acc = e then s else s.dmaWrite 0 pa (beBytes 8 (markedEntry e acc))

/-- Mark the entries of a walk: ACC in the tables, and in the leaf what the access asks for (R98, R99). -/
def State.markPath (s : State) (path : List (Nat × Nat)) (acc : Acc) : State :=
  let s := path.dropLast.foldl (fun s p => s.markAt p.1 p.2 .read) s
  match path.getLast? with
  | some p => s.markAt p.1 p.2 acc
  | none => s

/-- Mark the host-stage entries for a partition-stage address. -/
def State.markHost (s : State) (root gpa : Nat) (acc : Acc) : State := s.markPath (s.hostPath root gpa) acc

/-- The host-stage root in force for a partition: none before its first START (R667). -/
def State.hostRoot (s : State) (n : Nat) : Option Nat :=
  if (s.part n).hostStage then some (entryAddr (s.part n).cfg.htroot.toNat) else none

/-- A partition-stage address of partition `n` as the module reaches it for the partition (R469, R663). -/
def State.partAddr (s : State) (n gpa : Nat) (acc : Acc) : Option Leaf :=
  match s.hostRoot n with
  | none => none
  | some root => if gpa < 2 ^ 52 then (s.hostWalk n root gpa acc).filter fun f => decide (f.addr < controlBase) else none

/-- The physical address to which the host stage of a partition maps an address that is assigned to it, whatever its leaf
permits (R267, R344, R468). -/
def State.assignedAddr (s : State) (n gpa : Nat) : Option Nat :=
  match s.hostRoot n with
  | none => none
  | some root =>
    if gpa < 2 ^ 52 then
      ((walk (fun a => some (s.entryAt a)) gpa hostLevels root).map Leaf.addr).filter fun pa => s.owned n pa
    else none

/-- The 4 KiB pieces of a range. -/
def pagePieces : Nat → Nat → Nat → List (Nat × Nat)
  | 0, _, _ => []
  | k + 1, a, n =>
    if n = 0 then []
    else
      let m := min n (4096 - a % 4096)
      (a, m) :: pagePieces k (a + m) (n - m)

/-- Mark the host-stage entries through which a partition's access at an address passes. -/
def State.markPart (s : State) (n gpa : Nat) (acc : Acc) : State :=
  match s.hostRoot n with
  | some root => s.markHost root gpa acc
  | none => s

/-- The host-stage entries that a partition's range is translated by, as pieces of memory. -/
def State.partTables (s : State) (n gpa len : Nat) : List (Nat × Nat) :=
  match s.hostRoot n with
  | some root => (pagePieces (len / 4096 + 2) gpa len).flatMap fun p => (s.hostPath root p.1).map fun e => (e.1, 8)
  | none => []

/-- The physical pieces of a partition-stage range, and the state with its table entries marked; none where the
range fails translation or the owner check. -/
def State.partRange (s : State) (n gpa len : Nat) (acc : Acc) : Option (List (Nat × Nat) × State) :=
  (pagePieces (len / 4096 + 2) gpa len).foldl (fun r p =>
    match r with
    | none => none
    | some (l, s) =>
      match s.partAddr n p.1 acc with
      | some f => some (l ++ [(f.addr, p.2)], s.markPart n p.1 acc)
      | none => none) (some ([], s))

/-! ### The translations of a processor -/

/-- What a processor is to a translation: its core, its level, PTROOT, HTROOT and ASID, and its partition. -/
structure Viewer where
  core   : Nat
  level  : Nat
  asid   : Nat
  ptroot : Nat
  root   : Nat
  part   : Nat
  deriving DecidableEq, Repr

/-- A kept translation serves an access: its stage, partition, page and, unless it is GLOBAL, ASID are those of the
access, and a write needs DIRTY in it (R98, R99). -/
def TlbEntry.serves (e : TlbEntry) (v : Viewer) (host : Bool) (a : Nat) (acc : Acc) : Bool :=
  e.host == host && e.part == v.part && (host || e.entry.testBit 6 || e.asid == v.asid) &&
    a / 2 ^ e.shift * 2 ^ e.shift == e.page && (acc != .write || e.entry.testBit 8)

/-- Where a kept translation leads. Its entry carries the marks that R99 asks for, so that it marks none in memory. -/
def TlbEntry.leaf (e : TlbEntry) (a : Nat) : Leaf := ⟨entryAddr e.entry + a % 2 ^ e.shift, e.shift, e.entry, 0⟩

/-- A leaf entry with ACC, and DIRTY on a write (R99). -/
def Leaf.marked (f : Leaf) (acc : Acc) : Nat := markedEntry f.entry acc

/-- Two translations have one effect: the same frame, page size and permissions, and no mark to set. -/
def Leaf.agrees (f g : Leaf) (acc : Acc) : Bool :=
  f.addr == g.addr && f.shift == g.shift && f.entry % 128 == g.entry % 128 && f.marked acc == f.entry

/-- The translations that a processor keeps for an address. -/
def State.keptFor (s : State) (v : Viewer) (host : Bool) (a : Nat) (acc : Acc) : List Leaf :=
  ((s.core v.core).tlb.filter fun e => e.serves v host a acc).map fun e => e.leaf a

/-- The kept translations for an address with which the tables do not agree. -/
def State.keptElse (s : State) (v : Viewer) (host : Bool) (a : Nat) (acc : Acc) (walked : Option Leaf) : List Leaf :=
  (s.keptFor v host a acc).filter fun g =>
    match walked with
    | some f => !f.agrees g acc
    | none => true

/-- The tables may serve an access: no kept translation does, or one does with which they do not agree. -/
def State.mayWalk (s : State) (v : Viewer) (host : Bool) (a : Nat) (acc : Acc) (walked : Option Leaf) : Bool :=
  (s.keptFor v host a acc).isEmpty || !(s.keptElse v host a acc walked).isEmpty

/-- What a translation uses: what the tables say now, or any translation that the processor still keeps for the address
(R101, R665). Where they differ, an open value chooses. The flag says that the tables were used, and their entries are to be
marked (R99). -/
def State.recall (s : State) (v : Viewer) (host : Bool) (a : Nat) (acc : Acc) (walked : Option Leaf) :
    Option Leaf × Bool × State :=
  let other := s.keptElse v host a acc walked
  if other.isEmpty then (walked, (s.keptFor v host a acc).isEmpty, s)
  else
    let (w, s) := s.fresh
    let k := w.toNat % (other.length + 1)
    ((if k = 0 then walked else other[k - 1]?), decide (k = 0), s)

/-- Keep a translation that has served an access. -/
def State.keep (s : State) (v : Viewer) (host : Bool) (a : Nat) (acc : Acc) (f : Leaf) : State :=
  let e : TlbEntry :=
    { host := host, part := v.part, asid := if host then 0 else v.asid, page := a / 2 ^ f.shift * 2 ^ f.shift
      shift := f.shift, entry := f.marked acc }
  if (s.core v.core).tlb.contains e then s else s.modCore v.core fun c => { c with tlb := c.tlb ++ [e] }

/-- Drop the translations of every processor that meet a condition (R101). -/
def State.dropTlb (s : State) (p : TlbEntry → Bool) : State :=
  (List.range 109).foldl (fun s k => s.modCore k fun c => { c with tlb := c.tlb.filter fun e => !p e }) s

/-- A stage-1 entry as the walk reads it: its address passes through the host stage (R96, R100). -/
def State.entry1 (s : State) (v : Viewer) (a : Nat) : Option Nat :=
  (s.hostWalk v.part v.root a .read).map fun f => s.entryAt f.addr

/-- The stage-1 entries for an address, by their partition-stage addresses. -/
def State.path1 (s : State) (v : Viewer) (va : Nat) : List (Nat × Nat) :=
  walkPath (s.entry1 v) va stage1Levels (entryAddr v.ptroot)

/-- The tables of stage 1: where the walk for an address ends, none where it fails, and the table entry whose address fails
the host stage (R100). -/
def State.walk1 (s : State) (v : Viewer) (va : Nat) : Except Nat (Option Leaf) :=
  let rec bad : List WalkLevel → Nat → Option Nat
    | [], _ => none
    | l :: ls, table =>
      let at_ := table + 8 * (va / 2 ^ l.shift % 2 ^ l.width)
      match s.entry1 v at_ with
      | none => some at_
      | some e => if e.testBit 0 ∧ !e.testBit 1 then bad ls (entryAddr e) else none
  match bad stage1Levels (entryAddr v.ptroot) with
  | some a => .error a
  | none => .ok (walk (s.entry1 v) va stage1Levels (entryAddr v.ptroot))

/-- Mark one stage-1 entry and the host-stage entries through which it is reached: where the mark changes the entry, its page
is written (R98, R99). Whether that write needs WR in the host stage is left open, and the model asks for RD alone: DESIGN
CHOICE (log entry 101). -/
def State.markEntry1 (s : State) (v : Viewer) (a e : Nat) (acc : Acc) : State :=
  match s.hostWalk v.part v.root a .read with
  | some h => (s.markHost v.root a (if markedEntry e acc = e then .read else .write)).markAt h.addr e acc
  | none => s

/-- Mark the stage-1 entries for an address. -/
def State.mark1 (s : State) (v : Viewer) (va : Nat) (acc : Acc) : State :=
  let path := s.path1 v va
  let s := path.dropLast.foldl (fun s p => s.markEntry1 v p.1 p.2 .read) s
  match path.getLast? with
  | some p => s.markEntry1 v p.1 p.2 acc
  | none => s

/-- The table entries that a processor's access may read or mark, as pieces of memory: none of a stage for which it keeps a
translation that the tables agree with. -/
def State.tablesOf (s : State) (v : Viewer) (va : Nat) (acc : Acc) : List (Nat × Nat) :=
  if v.level = 2 then []
  else
    let host (gpa : Nat) : List (Nat × Nat) := (s.hostPath v.root gpa).map fun e => (e.1, 8)
    let last (gpa : Nat) : List (Nat × Nat) :=
      if s.mayWalk v true gpa acc (walk (fun a => some (s.entryAt a)) gpa hostLevels v.root) then host gpa else []
    if !v.ptroot.testBit 0 then last va
    else
      let walked := walk (s.entry1 v) va stage1Levels (entryAddr v.ptroot)
      let own := if s.mayWalk v false va acc walked then
          (s.path1 v va).flatMap fun p => host p.1 ++ ((s.hostWalk v.part v.root p.1 .read).map fun h => (h.addr, 8)).toList
        else []
      own ++ (distinct ((walked.toList ++ s.keptFor v false va acc).map Leaf.addr)).flatMap last

/-- Whether stage 1 permits an access (R98). -/
def Leaf.permits (f : Leaf) (level : Nat) (acc : Acc) : Bool :=
  let user := f.entry.testBit 5
  match acc with
  | .read => f.entry.testBit 2 && (user || level != 0)
  | .write => f.entry.testBit 3 && (user || level != 0)
  | .fetch => f.entry.testBit 4 && (user == (level == 0))

/-- Stage 1 of a processor's access: the partition-stage address, the log2 of the page size, and the leaf with whether the
tables gave it; there is no leaf while PTROOT turns the stage off (R96). A kept translation is used before a table fails. -/
def State.stage1 (s : State) (v : Viewer) (va : Nat) (acc : Acc) :
    Except Xlate (Nat × Nat × Option (Leaf × Bool)) × State :=
  if !v.ptroot.testBit 0 then
    if va < 2 ^ 52 then (.ok (va, 52, none), s) else (.error (.walk1 va), s)
  else
    let found := s.walk1 v va
    let walked := match found with
      | .ok f => f
      | .error _ => none
    match s.recall v false va acc walked with
    | (some f, used, t) => (.ok (f.addr, f.shift, some (f, used)), t)
    | (none, _, t) =>
      match found with
      | .error a => (.error (.host a true none), t)
      | .ok _ => (.error (.walk1 va), t)

/-- The host stage of a processor's access: the walk, its permission and the owner check (R96, R98, R469). A failure gives the
physical address, where the walk reached one; a leaf says whether the tables gave it. -/
def State.hostStage (s : State) (v : Viewer) (gpa : Nat) (acc : Acc) : Except (Option Nat) (Leaf × Bool) × State :=
  match s.recall v true gpa acc (walk (fun a => some (s.entryAt a)) gpa hostLevels v.root) with
  | (some f, used, t) => (if f.mayHost acc && t.owned v.part f.addr then .ok (f, used) else .error (some f.addr), t)
  | (none, _, t) => (.error none, t)

/-- Translate an access of a processor (R96, R100, R469). At host level the address is physical. The order of
the failures is that of R134: the stage-1 walk, the host stage, then the stage-1 permission. A walk that fails, and one
whose permission is refused, sets ACC in none of the entries it has passed: DESIGN CHOICE (log entry 115). -/
def State.translate (s : State) (v : Viewer) (va : Nat) (acc : Acc) : Xlate × State :=
  if v.level = 2 then
    if va < 2 ^ 52 then (.ok va (va / 2 ^ 30 * 2 ^ 30) (va / 2 ^ 30 * 2 ^ 30 + 2 ^ 30), s) else (.walk1 va, s)
  else
    match s.stage1 v va acc with
    | (.error x, t) => (x, t)
    | (.ok (gpa, sh1, leaf), t) =>
      match t.hostStage v gpa acc with
      | (.error pa, u) => (.host gpa false pa, u)
      | (.ok (f, used), u) =>
        let denied := match leaf with
          | some g => !g.1.permits v.level acc
          | none => false
        if denied then (.perm1 va f.addr, u)
        else
          let page := 2 ^ min sh1 f.shift
          let u := (if used then u.markHost v.root gpa acc else u).keep v true gpa acc f
          let u := match leaf with
            | some g => (if g.2 then u.mark1 v va acc else u).keep v false va acc g.1
            | none => u
          (.ok f.addr (f.addr / page * page) (f.addr / page * page + page), u)

end Sys2Proof.Machine
end

