-- ==== Sys2Proof/Machine/Rings.lean ====
section
/-! DEFINITION. Command rings (R67 to R72, R663): doorbells, enabling, the reply slots, and the consumption of
posted completions (R392, R393). -/

namespace Sys2Proof.Machine

/-- The number of slots of a ring (R68). -/
def Ring.size (r : Ring) : Nat := 2 ^ r.log2.toNat

/-- The ring size is legal (R68). -/
def Ring.sized (r : Ring) : Bool := decide (1 ≤ r.log2.toNat ∧ r.log2.toNat ≤ 12)

/-- Reply slots that REPLY_CONS has passed (R71). -/
def Ring.freeSlots (r : Ring) : Nat := r.size - (r.replyProd - r.replyCons).toNat

/-- Immediate replies that are not yet written. -/
def Ring.unwritten (r : Ring) : Nat := (r.outbox.filter fun x => !x.completion).length

/-- Consumption is paused by R71 (REPLY_WAIT). -/
def Ring.replyWait (r : Ring) : Bool := decide (r.freeSlots ≤ r.outstanding + r.unwritten)

/-- A slot index that REPLY_CONS has passed. -/
def passed (cons slot : BitVec 16) : Bool := decide ((cons - slot - 1).toNat < 32768)

/-- The partition-stage address of a command or a reply slot. -/
def Ring.slotAddr (r : Ring) (base : Word) (index : BitVec 16) : Nat :=
  base.toNat + index.toNat % r.size * 4096

/-- Halt a ring (R68). -/
def State.haltRing (s : State) (r status : Nat) : State :=
  s.modRing r fun x => { x with halted := true, haltStatus := BitVec.ofNat 16 status }

/-! ### The journal's view of a completion -/

/-- Retire an entry to FREE (R393). -/
def State.retire (s : State) (j : Nat) : State :=
  let e := s.entry j
  if (e.state = 4 ∧ e.consumed) ∨ (e.state = 6 ∧ e.consumed ∧ e.lateAcked) then s.modEntry j fun _ => JEntry.free
  else s

/-- Set CONSUMED when both halves of R392 have happened, each for any copy of the completion (R408), and retire the entry
when it may be. -/
def State.checkConsumed (s : State) (j : Nat) : State :=
  let e := s.entry j
  if e.taken ∧ e.popped ∧ !e.consumed then (s.modEntry j fun e => { e with consumed := true }).retire j else s

/-- REPLY_CONS has passed the slot of the latest reply of an entry's completion. -/
def State.replyPassed (s : State) (e : JEntry) : Bool :=
  match e.slot with
  | some k => passed (s.ring e.ring).replyCons k
  | none => false

/-- The pop of a completion item has committed (R392). -/
def State.entryPopped (s : State) (entry : Option Nat) : State :=
  match entry with
  | some j =>
    if (s.entry j).state = 0 then s else (s.modEntry j fun e => { e with popped := true }).checkConsumed j
  | none => s

/-- REPLY_CONS of a ring takes a value, which may complete the consumption of posted completions (R392). -/
def State.setReplyCons (s : State) (r : Nat) (v : BitVec 16) : State :=
  let s := s.modRing r fun x => { x with replyCons := v }
  (s.io.journal.map Prod.fst).foldl (fun s j =>
    if (s.entry j).ring = r ∧ s.replyPassed (s.entry j) then
      (s.modEntry j fun e => { e with taken := true }).checkConsumed j
    else s) s

/-! ### Doorbell and control -/

/-- A doorbell store (R70). -/
def State.doorbell (s : State) (r : Nat) (v : Word) : State :=
  let x := s.ring r
  let new := v.setWidth 16
  let limit := (x.cmdCons + BitVec.ofNat 16 x.size - x.cmdProd).toNat
  if !x.enable ∨ x.halted then s
  else if v.toNat < 65536 ∧ (new - x.cmdProd).toNat ≤ limit then s.modRing r fun x => { x with cmdProd := new }
  else s.haltRing r 0x010C

/-- Writing RING_CTL.ENABLE and LOG2_SLOTS (R68). -/
def State.enableRing (s : State) (r : Nat) (on : Bool) (log2 : BitVec 4) : State :=
  let was := (s.ring r).enable
  let s := s.modRing r fun x => { x with enable := on, log2 := if was then x.log2 else log2 }
  if on ∧ !(s.ring r).sized then s.haltRing r 0x010D else s

/-- Clearing HALTED (R68). -/
def State.clearHalt (s : State) (r : Nat) : State :=
  if (s.ring r).halted then s.modRing r fun x => { x with halted := false, cmdProd := x.cmdCons, kept := false } else s

/-! ### Replies -/

/-- The status and tag of a written reply, from its slot (R441), with its COMPLETION flag and opcode. -/
def State.readReply (s : State) (r : Nat) (k : BitVec 16) : Option (Nat × Nat × Bool × Nat) :=
  let x := s.ring r
  (s.partAddr (r / 16) (x.slotAddr x.replyBase k) .read).map fun f =>
    let b := s.bytesAt f.addr 12
    (numAt b 8 2, numAt b 4 4, (b.getD 0 0).getLsbD 0, numAt b 2 2)

/-! ### Meanings -/

/-- DOORBELL (R70). -/
def execDoorbell (ring : Fin 1024) (v : Word) (s : State) : Host.Outcome State Fault Refusal :=
  .next (s.doorbell ring v)

/-- RING_ENABLE (R68). -/
def execRingEnable (ring : Fin 1024) (on : Bool) (log2 : BitVec 4) (s : State) :
    Host.Outcome State Fault Refusal :=
  .next (s.enableRing ring on log2)

/-- RING_HALT_CLEAR (R68). -/
def execRingHaltClear (ring : Fin 1024) (s : State) : Host.Outcome State Fault Refusal :=
  .next (s.clearHalt ring)

/-- REPLY_CONS_WRITE (R71, R392). -/
def execReplyConsWrite (ring : Fin 1024) (v : BitVec 16) (s : State) : Host.Outcome State Fault Refusal :=
  .next (s.setReplyCons ring v)

end Sys2Proof.Machine
end

