-- ==== Sys2Proof/Machine/Events.lean ====
section
/-! DEFINITION. Event queues, sources and timer compare units (chapter 10). -/

namespace Sys2Proof.Machine

/-- The PRIORITY of an item (R433). -/
def QItem.prio (i : QItem) : Nat := bits i.word 62 60

/-- The item that a pop returns: the ready item of highest PRIORITY, the oldest of equals (R434). -/
def Queue.next (q : Queue) : Option QItem := minBy (fun i => (7 - i.prio) * 2 ^ 64 + i.ord) q.items

/-- All items, with the pending ones (R434, R437). -/
def Queue.count (q : Queue) : Nat := q.items.length + q.pend.length

def Queue.full (q : Queue) : Bool := decide (q.cfg.capacity ≤ q.count)

/-- A queue's notice source records a KIND (R449, R450). -/
def State.notice (s : State) (q kindBit : Nat) : State :=
  if (s.queue q).cfg.noticeOn then s.event (0x400 + q) (2 ^ kindBit) else s

/-- Change a queue's items, noting when the ready count rises to THRESH: the notice follows with the end of the tick, unless a pop
has taken the count back below by then (R449, and the collisions of chapter 10). -/
def State.changeQueue (s : State) (q : Nat) (f : Queue → Queue) : State :=
  let old := (s.queue q).ready
  s.modQueue q fun x =>
    let y := f x
    { y with rose := y.rose || decide (old < y.cfg.thresh ∧ y.cfg.thresh ≤ y.ready) }

/-- The staleness timer after a consuming pop (R451, R452). -/
def Queue.consumed (q : Queue) (now : Nat) : Queue :=
  let q := { q with stale := false }
  if q.count = 0 then { q with staleAt := none, staleDone := false, heldExpiry := false, expiring := false }
  else if 0 < q.ready then
    { q with staleAt := if q.cfg.staleT = 0 then none else some (now + q.cfg.staleT), staleDone := false,
             heldExpiry := false, expiring := false }
  else q

/-- Arm the staleness timer when the queue gains its first ready item while it is disarmed (R451). -/
def Queue.arm (q : Queue) (now : Nat) : Queue :=
  if q.cfg.staleT ≠ 0 ∧ 0 < q.ready ∧ q.staleAt = none ∧ !q.staleDone ∧ !q.heldExpiry ∧ !q.expiring then
    { q with staleAt := some (now + q.cfg.staleT) }
  else q

/-- Set STALE and count the notice (R452). -/
def State.setStale (s : State) (q : Nat) : State :=
  (s.modQueue q fun x =>
    { x with stale := true, staleDone := true, staleAt := none, heldExpiry := false,
             staleNotices := satAdd x.staleNotices 1 }).notice q 41

/-! ### Pops -/

/-- The queue serves pops and peeks (R447). -/
def State.serves (s : State) (q : Nat) : Bool :=
  s.cst (cellNo 0x0C q) == .running || s.cst (cellNo 0x0C q) == .draining

/-- The word that a pop or peek returns (R434 to R436). -/
def State.peek (s : State) (q : Nat) : Word :=
  if s.serves q then (((s.queue q).next).map QItem.word).getD 0 else 0

/-- A pop that is consumed at once (R219). -/
def State.popNow (s : State) (q : Nat) : State :=
  match (if s.serves q then (s.queue q).next else none) with
  | none => s
  | some i =>
    (s.modQueue q fun x =>
      Queue.consumed { x with items := x.items.filter fun j => j.ord != i.ord } s.now).entryPopped i.entry

/-- A pop by a checked pair: the item moves to a pending slot tagged with the reader's cell (R216). -/
def State.popPend (s : State) (q reader : Nat) : State :=
  match (if s.serves q then (s.queue q).next else none) with
  | none => s
  | some i =>
    s.modQueue q fun x =>
      { x with items := x.items.filter fun j => j.ord != i.ord, pend := x.pend ++ [(reader, i)] }

/-- The window of a pending pop commits: the item is consumed (R216). -/
def State.popCommit (s : State) (q reader : Nat) : State :=
  match (s.queue q).pend.find? fun p => p.1 = reader with
  | none => s
  | some p =>
    (s.modQueue q fun x =>
      Queue.consumed { x with pend := x.pend.filter fun y => y.2.ord != p.2.ord } s.now).entryPopped p.2.entry

/-- The window of a pending pop is discarded: the item returns to its place (R216), and the queue that so gains its first
ready item arms its timer (R451). -/
def State.popReturn (s : State) (q reader : Nat) : State :=
  s.changeQueue q fun x =>
    let back := x.pend.filter fun p => p.1 = reader
    Queue.arm { x with pend := x.pend.filter (fun p => p.1 != reader), items := x.items ++ back.map Prod.snd } s.now

/-! ### Sources -/

/-- The partition to which a source is assigned (R443, R466): a ring's, a doorbell's and a partition check from the first START
of the partition. -/
def State.sourceOwner (s : State) (src : Nat) : Option Nat :=
  let from_ (n : Nat) : Option Nat := if (s.part n).started then some n else none
  if src < 0x400 then from_ (src / 16)
  else if src < 0x800 then (s.queue (src - 0x400)).owner
  else if src < 0x880 then if src % 2 = 0 then from_ ((src - 0x800) / 2) else some 0
  else if src < 0x8C0 then some ((s.timer (src - 0x880)).owner.getD 0)
  else if src < 0x8C5 then some 0
  else if src < 0x900 then none
  else if src < 0x940 then from_ (src - 0x900)
  else (s.source src).owner

/-- The partition of a source (R444): partition 0 where none holds it. -/
def State.sourcePart (s : State) (src : Nat) : Nat := (s.sourceOwner src).getD 0

/-- Source numbers that exist (R441, R589, R619). -/
def sourceExists (src : Nat) : Bool :=
  decide (src < 0x8C5) || decide (0x900 ≤ src ∧ src < 0x940) ||
  decide (0x940 ≤ src ∧ src < 0x998 ∧ (src < 0x980 ∨ src - 0x980 < 14)) ||
  decide (0x998 ≤ src ∧ src < 0x9B0 ∧ src - 0x998 < 14) || decide (src = 0x9B0) ||
  decide (0x9C0 ≤ src ∧ src ≤ 0x9D2) || decide (0x9E0 ≤ src ∧ src ≤ 0x9F7 ∧ src ≠ 0x9F3)

/-- Sensor sources that exist (R619). -/
def isSensor (src : Nat) : Bool := decide (0x940 ≤ src ∧ src ≤ 0x9B0) && sourceExists src

/-- Where an item of a source goes: the queue, the priority, and whether the source pushes (R443, R445). -/
def State.route (s : State) (src : Nat) (i : SrcItem) : Nat × Nat × Bool :=
  if src < 0x400 then
    let r := s.ring src
    (r.eventQueue.toNat, r.eventPrio.toNat, r.enable)
  else if src = 0x9D0 ∨ src = 0x9D1 then
    let r := s.ring i.queue
    (r.eventQueue.toNat, r.eventPrio.toNat, true)
  else if src = 0x9D2 then (i.queue, 7, true)
  else
    let x := s.source src
    (x.queue.toNat, x.prio.toNat, x.enable)

/-- The queue is assigned to the partition concerned (R444, R445). -/
def State.routeOwned (s : State) (src : Nat) (i : SrcItem) : Bool :=
  let q := (s.route src i).1
  if src = 0x9D0 ∨ src = 0x9D1 then (s.queue q).owner == some (i.queue / 16)
  else if src = 0x9D2 then (s.queue q).owner.isSome
  else (s.queue q).owner == some (s.sourcePart src)

/-- The item can be pushed but for room: the route is enabled and allowed, and the queue is RUNNING (R444,
R446, R447). -/
def State.canPush (s : State) (src : Nat) (i : SrcItem) : Bool :=
  let r := s.route src i
  r.2.2 && s.routeOwned src i && (s.cst (cellNo 0x0C r.1) == .running)

/-- The first item of each target queue. -/
def firstBy (queue : SrcItem → Nat) : List SrcItem → List SrcItem
  | [] => []
  | i :: l => i :: (firstBy queue l).filter fun j => queue j != queue i

/-- The items that a source may push next: the oldest for each target queue (R442, R445). -/
def State.heads (s : State) (src : Nat) : List SrcItem := firstBy (fun i => (s.route src i).1) (s.source src).backlog

/-- The place of a source in the order of R439 at a queue: those that wait for room, by tick and number; those that have lost their
cycle; the others. -/
def Source.place (x : Source) (src q : Nat) : Nat :=
  match tabFind x.fullAt q, tabFind x.lostAt q with
  | some t, _ => 4096 * t + src
  | none, some n => 2 ^ 128 + n
  | none, none => 2 ^ 192

/-- A source that waits at a queue goes before this one (R439, R440). -/
def State.waitsBefore (s : State) (q src : Nat) : Bool :=
  s.sources.any fun e =>
    decide (e.1 ≠ src ∧ e.2.place e.1 q < (s.source src).place src q) &&
      (s.heads e.1).any fun i => (s.route e.1 i).1 == q && s.canPush e.1 i

/-- A source no longer waits at queues to which none of its items goes. -/
def State.waitsHere (s : State) (src : Nat) : State :=
  let qs := (s.heads src).map fun i => (s.route src i).1
  s.modSource src fun x =>
    { x with fullAt := x.fullAt.filter fun e => qs.contains e.1, lostAt := x.lostAt.filter fun e => qs.contains e.1 }

/-- The payload of an item as it is pushed: a ring's is formed from its reply slot (R441), which may have to wait for memory; a
notice takes FILL (R450). -/
def State.itemPayload (s : State) (src : Nat) (i : SrcItem) : Option Nat × State :=
  if src < 0x400 then
    let n := src / 16
    let gpa := (s.ring src).slotAddr (s.ring src).replyBase (BitVec.ofNat 16 i.queue)
    match s.partAddr n gpa .read with
    | none => (some i.payload.toNat, s)
    | some f =>
      match s.reachVia (s.partTables n gpa 12) [(f.addr, 12)] false fun s =>
        (s.bytesAt f.addr 12, (s.markPart n gpa .read).dmaRead f.addr 12) with
      | (none, t) => (none, t)
      | (some b, t) => (some (numAt b 8 2 * 2 ^ 32 + numAt b 4 4), t)
  else if src < 0x800 then (some (i.payload.toNat + (s.queue (src - 0x400)).ready), s)
  else (some i.payload.toNat, s)

/-- A source pushes an item (R437 to R440). A push that a full queue refuses waits, and so does one that another source precedes,
which loses its cycle. The first component says that the item has been pushed. -/
def State.pushItem (s : State) (src : Nat) (i : SrcItem) : Bool × State :=
  let (q, prio, _) := s.route src i
  let x := s.source src
  if !s.canPush src i then (false, s)
  else if (s.queue q).full then
    if (tabFind x.fullAt q).isSome then (false, s)
    else
      (false, (s.modSource src fun x => { x with fullAt := tabInsert x.fullAt q s.now, lostAt := tabErase x.lostAt q }).modQueue q
        fun x => { x with fullSeen := true, fullWaits := satAdd x.fullWaits 1 })
  else if s.waitsBefore q src then
    if (tabFind x.fullAt q).isSome ∨ (tabFind x.lostAt q).isSome then (false, s)
    else
      (false, (s.modSource src fun x => { x with lostAt := tabInsert x.lostAt q (s.queue q).lostNext }).modQueue q fun x =>
        { x with lostNext := x.lostNext + 1 })
  else
    match s.itemPayload src i with
    | (none, t) => (false, t)
    | (some payload, s) =>
      let word := pack [(63, 1), (60, prio), (48, src), (0, payload)]
      let link := if src < 0x400 then i.entry else none
      let s := s.modSource src fun x =>
        { x with backlog := x.backlog.erase i, fullAt := tabErase x.fullAt q, lostAt := tabErase x.lostAt q }
      let s := s.changeQueue q fun x =>
        Queue.arm { x with items := x.items ++ [{ word := word, ord := x.ordNext, entry := link }],
                           ordNext := x.ordNext + 1 } s.now
      match link with
      | some j => (true, if (s.entry j).state = 0 then s else s.modEntry j fun e => { e with queue := q + 1 })
      | none => (true, s)

/-- A source pushes the first of its items that it can (R442, R445). -/
def State.pushNext (s : State) (src : Nat) : State :=
  ((s.heads src).foldl (fun (r : Bool × State) i => if r.1 then r else r.2.pushItem src i) (false, s.waitsHere src)).2

/-! ### Presenting again after a queue reset (R441, R455, R407) -/

/-- The replies of a ring that are pushed again: those between REPLY_CONS and REPLY_PROD whose item it does not hold, the
START_IO completions apart. -/
def State.againRing (s : State) (r : Nat) : List SrcItem :=
  let x := s.ring r
  let held := (s.source r).backlog.map SrcItem.queue
  ((List.range (x.replyProd - x.replyCons).toNat).map fun i => x.replyCons + BitVec.ofNat 16 i).filterMap fun k =>
    match s.readReply r k with
    | some (st, tag, comp, op) =>
      if (comp ∧ op = 0x0400) ∨ held.contains k.toNat then none
      else some { payload := BitVec.ofNat 48 (st * 2 ^ 32 + tag), queue := k.toNat, prio := 0, entry := none }
    | none => none

/-- The reporters that hold an unacknowledged fault of a level (R668), in the order of their latest record. -/
def State.unacked (s : State) (level : Nat) : List (Nat × Reporter) :=
  s.tansy.reps.filter fun r => r.2.esc != 0 && r.2.lastLevel == level

/-- The item that a level source presents (R668). -/
def State.levelItem (s : State) (level : Nat) : Option Nat :=
  let l := s.unacked level
  (minBy (fun r => s.tansy.orderNext - r.2.order) l).map fun last =>
    last.1 * 2 ^ 38 + b1 (l.any fun r => r.2.lastBroken) * 2 ^ 37 +
      b1 (l.any fun r => r.2.lastEsc) * 2 ^ 36 + min 0xFFFF l.length

/-- The item that a partition-check source presents (R668). -/
def State.checkItem (s : State) (n : Nat) : Option Nat :=
  let l := (s.unacked 3 ++ s.unacked 4).filter fun r => r.2.targets.contains n
  (minBy (fun r => s.tansy.orderNext - r.2.order) l).map fun last =>
    last.1 * 2 ^ 38 + b1 (l.any fun r => r.2.procStop) * 2 ^ 37 + last.2.cell

/-- What a source other than a ring's or the journal's presents for the conditions in force (R441). -/
def State.presents (s : State) (src : Nat) : Option Nat :=
  if src < 0x800 then
    let q := s.queue (src - 0x400)
    let v := b1 (decide (q.cfg.thresh ≤ q.ready)) * 2 ^ 40 + b1 q.stale * 2 ^ 41 + b1 q.resetSeen * 2 ^ 42
    if q.cfg.noticeOn ∧ v ≠ 0 then some v else none
  else if src < 0x880 then some 0
  else if src < 0x8C0 then
    let t := s.timer (src - 0x880)
    if t.expired then some t.lastCompare.toNat else none
  else if src < 0x900 then s.levelItem (src - 0x8C0)
  else if src < 0x940 then s.checkItem (src - 0x900)
  else if src < 0x9C0 then
    let x := s.sensor src
    if x.above ∨ x.below then some ((if x.above then 1 else 2) * 2 ^ 40 + x.reading.toNat) else none
  else if src < 0x9D0 then
    let t := s.tier (src - 0x9C0)
    let u := t.framesUsed
    let kind := if !t.pins.isEmpty then 3 else if 0 < u ∧ t.threshB ≤ u then 2 else if 0 < u ∧ t.threshA ≤ u then 1 else 4
    if t.enabled then
      some ((src - 0x9C0) * 2 ^ 44 + kind * 2 ^ 40 + min 0xFFFFFFFF (t.framesTotal - u))
    else none
  else none

/-- The accumulated state that a bundle source presents (R589). -/
def State.bundleItem (s : State) (src : Nat) : Option Nat :=
  let st (b : BState) : Nat := match b with
    | .standalone => 0 | .forming => 1 | .member => 2 | .fenced => 3
  if src < 0x9F0 then
    let m := s.member (src - 0x9E0)
    match m.manifest with
    | some bs =>
      let b := if m.fence ≠ 0 ∨ m.failed then 3 else if m.admitted then 2 else if m.refused then 0 else 1
      some (b * 2 ^ 40 + numAt bs 52 1 * 2 ^ 32 + m.fence.toNat)
    | none => none
  else if src = 0x9F0 then some (st s.bundle.bstate * 2 ^ 40 + s.bundle.fenceWhy.toNat)
  else if src = 0x9F1 then
    let mask := (List.range 16).foldl (fun n m => n + b1 (s.member m).failed * 2 ^ m) 0
    if mask = 0 then none else some mask
  else (s.source src).acc.map BitVec.toNat

/-- Announce again the completion of an entry that is not consumed, or its late outcome (R407). -/
def State.repostEntry (s : State) (q j : Nat) : State :=
  let e := s.entry j
  let st := e.posted
  let s :=
    match e.slot with
    | some k =>
      if e.queue = q + 1 ∧ !e.consumed then
        let s := s.modEntry j fun e => { e with reposted := true, queue := 0 }
        let s := [0, 1].foldl (fun s d => s.modCopy d fun c => { c with reposts := satAdd c.reposts 1 }) s
        if passed (s.ring e.ring).replyCons k then
          (s.modRing e.ring fun x => { x with outstanding := x.outstanding + 1 }).reply e.ring
            { op := 0x0400, tag := e.tag, status := st, detail := e.detail,
              partition := e.part, completion := true, checkOnly := false,
              results := e.results, entry := some j }
        else s.eventItem e.ring
          { payload := BitVec.ofNat 48 (st.toNat * 2 ^ 32 + e.tag.toNat), queue := k.toNat, prio := 0, entry := some j }
      else s
    | none => s
  if e.state = 6 ∧ !e.lateAcked ∧ (s.ring e.ring).eventQueue.toNat = q then
    let src := 0x9D0 + s.ctxCp e.ctx / 2
    let i : SrcItem :=
      { payload := BitVec.ofNat 48 (e.status.toNat * 2 ^ 32 + j), queue := e.ring, prio := 0, entry := some j }
    if (s.source src).backlog.any fun x => x.entry == some j then s else s.eventItem src i
  else s

/-- The sources whose items go to a queue present their events again (R455). -/
def State.represent (s : State) (q : Nat) : State :=
  let blank : SrcItem := { payload := 0, queue := 0, prio := 0, entry := none }
  let rings := (s.rings.map Prod.fst).filter fun r => r < 0x400 ∧ (s.ring r).eventQueue.toNat = q
  let s := rings.foldl (fun s r =>
    let again := s.againRing r
    s.modSource r fun x => { x with backlog := again ++ x.backlog }) s
  let routed := (s.sources.map Prod.fst).filter fun src =>
    0x400 ≤ src ∧ !(0x9D0 ≤ src ∧ src ≤ 0x9D2) ∧ (s.route src blank).1 = q
  let s := routed.foldl (fun s src =>
    -- an expiry that is not pushed yet is that of the unit's last one (R463)
    let timer := decide (0x880 ≤ src ∧ src < 0x8C0)
    match (if 0x9E0 ≤ src then s.bundleItem src
      else if timer ∧ !(s.source src).backlog.isEmpty then none else s.presents src) with
    | some p => s.event src p
    | none => s) s
  let s := (s.io.journal.map Prod.fst).foldl (fun s j => s.repostEntry q j) s
  match s.io.copyOf with
  | some c =>
    if c.queue = q then
      c.unread.foldl (fun s j =>
        if (s.source 0x9D2).backlog.any fun x => x.entry == some j then s
        else
          s.eventItem 0x9D2
            { payload := BitVec.ofNat 48 ((tabGet JEntry.free c.entries j).status.toNat * 2 ^ 32 + j),
              queue := q, prio := 7, entry := some j }) s
    else s
  | none => s

/-- A reset of a queue (R455). -/
def State.resetQueue (s : State) (q : Nat) : State :=
  let s := s.notice q 42
  let s := s.modQueue q fun x =>
    { x with items := [], pend := [], stale := false, staleAt := none, staleDone := false, heldExpiry := false,
             expiring := false, rose := false, resetSeen := true, resets := satAdd x.resets 1 }
  s.represent q

/-! ### Interrupt lines -/

/-- DRIVING of a queue: its target names a processor of its partition (R448, R460). -/
def State.driving (s : State) (q : Nat) : Bool :=
  let x := s.queue q
  x.drives && match x.owner with
    | some n => (s.procCore n x.cfg.proc.toNat).isSome
    | none => false

/-! ### Timer compare units -/

/-- A unit expires when TB has reached COMPARE (R457). -/
def State.timerExpire (s : State) (n : Nat) : State :=
  let t := s.timer n
  let tb := s.clock.tb.toNat
  if t.compare ≠ 0 ∧ t.compare.toNat ≤ tb then
    let k := if t.period = 0 then 1 else (tb - t.compare.toNat) / t.period + 1
    let s := s.modTimer n fun t =>
      { t with compare := if t.period = 0 then 0 else t.compare + BitVec.ofNat 64 (k * t.period),
               missed := satAdd t.missed (k - 1), expired := true, lastCompare := t.compare.setWidth 32 }
    s.event (0x880 + n) (min 0xFFFF (k - 1) * 2 ^ 32 + bits t.compare 31 0)
  else s

/-! ### Commands -/

/-- The SRC_ROUTE word of a source (R443). -/
def State.srcRoute (s : State) (src : Nat) : Word :=
  let x := s.source src
  let ring := s.ring src
  let journal := 0x9D0 ≤ src ∧ src ≤ 0x9D2
  let queue := if src < 0x400 then ring.eventQueue.toNat else if journal then 0 else x.queue.toNat
  let prio := if src < 0x400 then ring.eventPrio.toNat else if journal then 0 else x.prio.toNat
  let enable := if src < 0x400 then ring.enable else if journal then true else x.enable
  let held := !x.backlog.isEmpty
  let wait := (s.heads src).any fun i =>
    (tabFind x.fullAt (s.route src i).1).isSome || !enable || !s.routeOwned src i ||
      s.cst (cellNo 0x0C (s.route src i).1) != .running
  let owner := s.sourceOwner src
  pack [(0, queue), (12, prio), (15, b1 enable), (16, b1 held), (17, b1 wait), (32, owner.getD 0),
    (38, b1 owner.isSome)]

/-- The source is a class 0 packet's own (R462). -/
def State.sourceOf (s : State) (n src : Nat) : Bool :=
  bits (s.srcRoute src) 38 38 == 1 && bits (s.srcRoute src) 37 32 == n

/-- ROUTE_SET (R444, R462, R464). -/
def opRouteSet : Op where
  code := 0x0700
  len := exactly 1
  on := kindIn [0x18, 0x14]
  classes := tenantOnPart
  run r s :=
    let w := r.word 0
    let src := bits w 11 0
    let q := bits w 25 16
    if badWord w 0x173FF0FFF ≠ 0 then refuse (badWord w 0x173FF0FFF) 0 s
    else if !sourceExists src ∨ (r.pk.auth = 0 ∧ !s.sourceOf r.part src) then
      refuse 0x0109 0 s
    else if src < 0x400 ∨ (0x9D0 ≤ src ∧ src ≤ 0x9D2) then refuse 0x0271 src s
    else if (s.queue q).owner ≠ some (s.sourcePart src) then refuse 0x0270 (cellNo 0x0C q) s
    else
      done ((s.modSource src fun x =>
        { x with queue := BitVec.ofNat 10 q, prio := BitVec.ofNat 3 (bits w 30 28), enable := bitOf w 32 }).waitsHere src)

/-- QUEUE_TUNE (R451, R462). -/
def opQueueTune : Op where
  code := 0x0701
  len := exactly 1
  on := kindIn [0x0C]
  classes := any012
  run r s :=
    let w := r.word 0
    let q := cellIndex r.cell
    let t := bits w 8 0
    if badWord w 0x1FFFF01FF ≠ 0 then refuse (badWord w 0x1FFFF01FF) 0 s
    else if t = 0 ∨ 256 < t ∨ (s.queue q).cfg.capacity < t then refuse 0x0109 0 s
    else done (s.modQueue q fun x => { x with nextTune := some (t, bits w 31 16, bitOf w 32) })

/-- TIMER_SET (R456, R459, R462). -/
def opTimerSet : Op where
  code := 0x0702
  len := exactly 2
  on := kindIn [0x0F]
  classes := any012
  run r s :=
    let n := cellIndex r.cell
    let c := (r.word 0).toNat
    let p := (r.word 1).toNat
    if c % 10 ≠ 0 ∨ p % 10 ≠ 0 ∨ (p ≠ 0 ∧ p < 1000) ∨ 10 ^ 12 < p then refuse 0x0109 0 s
    else
      done ((s.timerExpire n).modTimer n fun t => { t with next := some (r.word 0, p) })

/-- SOURCE_QUERY (R462). -/
def opSourceQuery : Op where
  code := 0x0703
  len := exactly 1
  on := kindIn [0x18, 0x14]
  classes := tenantOnPart
  run r s :=
    let w := r.word 0
    let src := bits w 11 0
    if badWord w 0xFFF ≠ 0 then refuse (badWord w 0xFFF) 0 s
    else if !sourceExists src ∨ (r.pk.auth = 0 ∧ !s.sourceOf r.part src) then refuse 0x0109 0 s
    else doneWith (wordBytes (s.srcRoute src)) s

/-! ### Meanings -/

/-- A checked pair must wait before it pops (R215, R218): for its earlier windows, or for a free pending slot. -/
def State.popWaits (s : State) (q p : Nat) : Bool :=
  !(s.pair p).closed.isEmpty || (s.pair p).opened.pop.isSome ||
    (s.peek q != 0 && decide (8 ≤ (s.queue q).pend.length))

/-- QUEUE_POP (R434, R215 to R219): the value is what the load returns. A checked pair's pop waits for its earlier windows and
for a pending slot, and closes its window (R140); the shadow's request does not leave the pair (R182). -/
def execQueuePop (q : Fin 1024) (core : CoreId) (s : State) : Host.Outcome State Fault Refusal :=
  let p := pairOfCore core
  let v := s.peek q
  if !s.leads core then .next s
  else if s.isSplit p then .next { s.popNow q with bus := v }
  else if s.popWaits q p then .next s
  else if v = 0 then .next { if (s.pair p).opened.isEmpty then s else s.closeWindow core with bus := 0 }
  else
    let t := (s.popPend q (cellOfPair p)).modPair p fun x => { x with opened := { x.opened with pop := some q } }
    .next { t.closeWindow core with bus := v }

/-- QUEUE_PEEK (R436). -/
def execQueuePeek (q : Fin 1024) (s : State) : Host.Outcome State Fault Refusal :=
  .next { s with bus := s.peek q }

/-- EVENT_PUSH (R439, R440). -/
def execEventPush (source : SourceId) (s : State) : Host.Outcome State Fault Refusal :=
  .next (s.pushNext source)

/-- QUEUE_RESET (R455). -/
def execQueueReset (q : Fin 1024) (s : State) : Host.Outcome State Fault Refusal :=
  .next (s.resetQueue q)

/-- QUEUE_POINTER_FAULT (R454). -/
def execQueuePointerFault (q : Fin 1024) (itemUe : Bool) (s : State) : Host.Outcome State Fault Refusal :=
  .next (((s.resetQueue q).modQueue q fun x =>
    { x with ptrMismatch := x.ptrMismatch || !itemUe, itemUe := x.itemUe || itemUe }).reportCell (cellNo 0x0C q) 1)

/-- The staleness timer of a queue expires (R452, R453). What follows waits for the end of the tick, since a consuming pop of the
same tick wins (log entry 131). -/
def State.staleExpire (s : State) (q : Nat) : State :=
  let x := s.queue q
  match x.staleAt with
  | some t =>
    if s.now < t then s else s.modQueue q fun x => { x with staleAt := none, expiring := true }
  | none => s

/-- STALE_TIMER_EXPIRY (R452). -/
def execStaleTimerExpiry (q : Fin 1024) (s : State) : Host.Outcome State Fault Refusal :=
  .next (s.staleExpire q)

/-- TIMER_EXPIRY (R457). -/
def execTimerExpiry (unit : Fin 64) (s : State) : Host.Outcome State Fault Refusal :=
  .next (s.timerExpire unit)

/-- ROUTE_SET (R444). -/
def execRouteSet (pk : Pkt) (s : State) : Host.Outcome State Fault Refusal := .next (submit opRouteSet pk s)

/-- QUEUE_TUNE (R451). -/
def execQueueTune (pk : Pkt) (s : State) : Host.Outcome State Fault Refusal := .next (submit opQueueTune pk s)

/-- TIMER_SET (R456). -/
def execTimerSet (pk : Pkt) (s : State) : Host.Outcome State Fault Refusal := .next (submit opTimerSet pk s)

/-- SOURCE_QUERY (R462). -/
def execSourceQuery (pk : Pkt) (s : State) : Host.Outcome State Fault Refusal :=
  .next (submit opSourceQuery pk s)

/-! ### What the next tick does to queues -/

/-- The end of a tick settles a queue: a held expiry whose item has returned sets STALE (R453), and so does an expiry that no
consuming pop has met, with a ready item (R452); a ready count that has risen to THRESH is noticed (R449). -/
def State.settleQueue (s : State) (q : Nat) : State :=
  let s := if (s.queue q).heldExpiry ∧ 0 < (s.queue q).ready then s.setStale q else s
  let s := if (s.queue q).expiring then
      let s := s.modQueue q fun x => { x with expiring := false, heldExpiry := decide (x.ready = 0 ∧ 0 < x.pend.length) }
      if 0 < (s.queue q).ready then s.setStale q else s
    else s
  let x := s.queue q
  if x.rose then
    let s := s.modQueue q fun x => { x with rose := false }
    if x.cfg.thresh ≤ x.ready then s.notice q 40 else s
  else s

/-- TIMER_SET's values take effect (R459). -/
def State.timerTick (s : State) (n : Nat) : State :=
  match (s.timer n).next with
  | some (c, p) => s.modTimer n fun t => { t with compare := c, period := p, expired := false, next := none }
  | none => s

/-- What the next tick does to a queue: the one before ends, and QUEUE_TUNE's values take effect (R451, with the collision table
of chapter 10). -/
def State.queueTick (s : State) (q : Nat) : State :=
  let s := s.settleQueue q
  match (s.queue q).nextTune with
  | some (t, st, on) =>
      let old := s.queue q
      let s := s.modQueue q fun x =>
        Queue.arm
          { x with
            cfg := { x.cfg with thresh := t, staleT := st, noticeOn := on }
            nextTune := none
            stale := if st = 0 then false else x.stale
            staleDone := if st = 0 then false else x.staleDone
            heldExpiry := if st = 0 then false else x.heldExpiry
            staleAt := if st = 0 then none
              else if x.staleAt.isSome ∧ st ≠ x.cfg.staleT then some (s.now + st) else x.staleAt } s.now
      if old.ready < old.cfg.thresh ∧ t ≤ old.ready then s.notice q 40 else s
  | none => s

end Sys2Proof.Machine
end

