-- ==== Sys2Proof/Machine/Regs.lean ====
section
/-! DEFINITION. Module control space (R76, R77): the words of the module registers, what a store to each does by
its access codes (R7), the partition windows, the queue ports and the doorbells. -/

namespace Sys2Proof.Machine

/-! ### Words of the registers -/

/-- The MODE that a pair shows (R221): a FAULTED pair, and one that has given up its work, is out of service. -/
def State.pairMode (s : State) (p : Nat) : Nat :=
  if s.cst (cellOfPair p) = .faulted ∨ (s.pair p).sparedOut then 3 else (s.pair p).mode.toNat

/-- PAIR_CHK, PAIR_CNT, PAIR_LOC (R221 to R223) and PAIR_CACHE (R278). -/
def Pair.chk (p : Pair) (mode : Nat) : Word :=
  pack [(0, mode), (2, b1 (p.mode = 2 || 0 < p.ccLeft)), (3, p.ccLeft), (8, p.failRun),
    (10, b1 p.cloveFailed), (11, b1 p.buscmpFailed), (12, b1 p.mismatch), (13, b1 p.delayUe),
    (14, b1 p.ckptUe), (15, b1 p.hardFailed), (16, b1 p.sparedIn)]

def Pair.cnt (p : Pair) : Word :=
  pack [(0, p.retries.toNat), (16, p.delayCe.toNat), (32, p.ckptCe.toNat), (48, p.localised.toNat)]

def Pair.cacheWord (p : Pair) : Word :=
  pack [(0, p.l2State.toNat), (2, b1 p.l1iOn), (3, b1 p.l1dOn), (4, p.shadowWays.toNat), (8, p.pfDist.toNat),
    (12, b1 p.pfOn)]

/-- SLICE_STATUS (R277). -/
def State.sliceStatus (s : State) (d : Nat) : Word :=
  let v := s.slice d
  let locked := s.caches.locks.foldl (fun m k => m ||| k.mask) 0
  pack [(0, v.groupOn.toNat), (8, v.cleaning.toNat), (16, locked.toNat), (48, b1 v.lockedDiscard),
    (49, b1 v.dataUe), (50, b1 v.tagUe)]

/-- REGION_BASE and REGION_ATTR (R253). -/
def Region.baseWord (r : Region) : Word := pack [(0, b1 r.valid), (21, r.base)]
def Region.attrWord (r : Region) : Word :=
  pack [(0, r.policy.toNat), (2, b1 r.allocR), (3, b1 r.allocW), (4, b1 r.stream), (21, r.limit)]

/-- MEMSET_A and MEMSET_B (R288). -/
def MemSet.wordA (m : MemSet) : Word :=
  pack [(0, 1), (1, b1 m.redundant), (8, m.channels.foldl (fun n c => n + 2 ^ c) 0)]
def MemSet.wordB (m : MemSet) : Word := pack [(0, m.baseGib), (32, m.limitGib)]

/-- GROUP_STATE of a channel (R334). -/
def State.groupState (s : State) (i : Nat) : Nat :=
  match s.setOfChan i with
  | some m =>
    if m.redundant then
      let g := (List.range 6).map fun k => 6 * (i / 6) + k
      if g.any fun c => (s.chan c).rebuild.isSome then 2 else if (s.lostIn (i / 6)).isEmpty then 0 else 1
    else 0
  | none => 0

/-- CHAN_CFG, CHAN_ECC and CHAN_SCRUB (R334). -/
def State.chanWords (s : State) (i : Nat) : List Word :=
  let c := s.chan i
  [ pack [(0, c.rate.toNat), (4, c.dimms.toNat), (6, b1 c.x8), (8, c.capGib), (18, s.groupState i)],
    pack [(0, c.ce.toNat), (16, c.ue.toNat), (32, c.failedDevice.toNat), (40, b1 c.marked), (41, b1 c.ueSeen),
      (42, b1 c.linkRetry)],
    pack [(0, c.periodH), (8, c.devLimit), (32, c.passes.toNat)] ]

/-- TIER_CFG, TIER_POOL, TIER_STATUS and TIER_THRESH (R335). -/
def Tier.words (t : Tier) : List Word :=
  [ pack [(0, b1 t.enabled), (1, b1 t.class4), (2, t.key), (16, t.size / 2 ^ 30)],
    pack [(0, t.framesTotal), (32, t.framesUsed)],
    pack [(0, t.pins.length), (16, b1 (!t.pins.isEmpty)), (17, b1 t.exhaustedSeen), (18, b1 t.codeErr),
      (19, b1 t.directAccess), (20, t.pools.length)],
    pack [(0, t.threshA), (32, t.threshB)] ]

/-- DMA_CAP (R40). -/
def State.dmaCap (s : State) : Word := pack [(0, s.io.capLines), (16, s.io.share0)]

/-- STAGE_CFG and STAGE_STATUS (R375). -/
def State.stageWords (s : State) (p : Nat) : List Word :=
  let g := s.staging p
  [ pack [(0, g.high), (8, g.low), (16, g.tail)],
    pack [(0, g.inFill), (16, b1 (s.inGranted p)), (17, b1 g.tailAt.isSome), (18, b1 (decide (32768 ≤ g.inFill))),
      (32, g.outFill), (48, g.flushes.toNat)] ]

/-- IODIE_MOVER (R375). -/
def State.moverWord (s : State) (d : Nat) : Word :=
  let x := s.ioDie d
  let moves := (x.serving.filter fun e => match e.2 with
    | .move _ => true
    | _ => false).length
  let failed := ((List.range 32).filter fun m => s.cst (cellNo 0x0B (32 * d + m)) = .faulted).length
  pack [(0, x.moveMax), (8, moves), (16, x.serving.length - moves), (24, failed)]

/-- A copy of the journal serves (R395, R409). -/
def State.copyServes (s : State) (d : Nat) : Bool :=
  (s.copy d).inService && s.cst (cellNo 0x12 (1 + d)) != .faulted && s.cst (cellNo 0x16 d) != .faulted

/-- The I/O die whose journal engine serves: die 0 while its copy does. -/
def State.journalDie (s : State) : Nat := if !s.copyServes 0 && s.copyServes 1 then 1 else 0

/-- JRNL_STATUS and JRNL_CNT (R432). -/
def State.journalWords (s : State) (d : Nat) : List Word :=
  let c := s.copy d
  let late := (s.io.journal.filter fun e => e.2.state = 5).length
  let on := match s.io.mirror with
    | some m => m.on
    | none => false
  [ pack [(0, (s.io.journal.filter fun e => e.2.state != 0).length), (21, b1 (s.copyServes d)), (22, b1 on),
      (23, b1 c.fullSeen), (24, b1 c.copyUe), (25, b1 c.lateSeen), (26, b1 c.abandonSeen), (32, late)],
    pack [(0, c.redrives.toNat), (16, c.reposts.toNat), (32, c.latePosts.toNat), (48, c.abandons.toNat)] ]

/-- Q_CFG, Q_STATUS and Q_CNT (R460). -/
def State.queueWords (s : State) (q : Nat) : List Word :=
  let x := s.queue q
  let c := x.cfg
  [ pack [(0, c.capacity), (16, c.thresh), (32, c.staleT), (48, c.line.toNat), (54, b1 c.intrEn),
      (55, b1 c.noticeOn), (56, c.proc.toNat)],
    pack [(0, x.count), (12, x.pend.length), (16, b1 x.stale), (17, b1 (s.driving q)), (18, b1 x.resetSeen),
      (19, b1 x.ptrMismatch), (20, b1 x.itemUe), (21, b1 x.fullSeen), (32, x.owner.getD 0),
      (38, b1 x.owner.isSome)],
    pack [(0, x.resets.toNat), (16, x.staleNotices.toNat), (32, x.fullWaits.toNat)] ]

/-- TMR_CMP and TMR_PER (R461). -/
def Timer.words (t : Timer) : List Word := [t.compare, pack [(0, t.period), (48, t.missed.toNat)]]

/-- ENG_STATUS and ENG_CNT (R534). -/
def Engine.words (e : Engine) : List Word :=
  [ pack [(0, b1 e.startup), (1, b1 e.test), (2, b1 e.recovery), (8, min 2047 e.queue.length),
      (24, b1 e.checkSeen), (25, b1 e.limitSeen), (26, b1 e.addressSeen), (27, b1 e.entropyFail),
      (28, (e.slots.filter fun k => k.2.isSome).length)],
    pack [(0, e.requests.toNat), (32, e.checkFails.toNat), (48, e.limitStops.toNat)] ]

def Link.code : Link → Nat
  | .down => 0 | .training => 1 | .align => 2 | .init => 3 | .up => 4 | .quiet => 5

/-- PORT_STATE and PORT_CNT (R570). -/
def Port.words (p : Port) : List Word :=
  [ pack [(0, p.cfg.mode), (4, p.link.code), (8, p.width), (13, p.rate), (16, b1 p.flit), (17, b1 p.lost),
      (18, b1 p.refused), (19, b1 p.fecUncorr), (20, b1 p.exhausted), (32, p.credits)],
    pack [(0, p.fecCorr.toNat), (16, p.fecBad.toNat), (32, p.crcErrors.toNat), (48, p.resends.toNat)] ]

def BState.code : BState → Nat
  | .standalone => 0 | .forming => 1 | .member => 2 | .fenced => 3

/-- BND_STATUS, BND_EPOCH and BND_TIME (R593). MEMBER_MASK is the members in BSTATE MEMBER. -/
def State.bundleWords (s : State) : List Word :=
  let b := s.bundle
  let mask := (List.range 16).foldl (fun n m =>
    let x := s.member m
    n + b1 (x.admitted && x.fence == 0 && !x.failed) * 2 ^ m) 0
  [ pack [(0, b.bstate.code), (3, b1 b.coordinator), (4, b.index), (8, mask), (24, b.feature.toNat),
      (32, b.fenceWhy.toNat), (36, b1 b.refusedDigest), (37, b1 b.refusedVersion), (38, b1 b.portMismatch),
      (39, b1 b.fenceSeen)],
    b.epoch,
    pack [(0, (BitVec.ofInt 32 b.offset).toNat), (32, min 65535 b.adjLeft.natAbs)] ]

/-- TANSY_STATUS (R617). -/
def State.tansyStatus (s : State) : Word :=
  let t := s.tansy
  pack [(0, b1 t.errLatch), (1, b1 t.pulseEnd.isSome), (2, b1 t.mcHalt), (8, t.levelSeen.toNat),
    (16, b1 t.block0Lost), (17, b1 t.block1Lost), (32, (t.reps.filter fun r => r.2.active).length)]

/-- TANSY_ACTIVE word `i` (R617). -/
def State.tansyActive (s : State) (i : Nat) : Word :=
  pack [(0, s.tansy.reps.foldl (fun n r => if r.2.active ∧ r.1 / 64 = i then n + 2 ^ (r.1 % 64) else n) 0)]

/-- FLT_CFG and FLT_STAT (R618). -/
def State.fltWords (s : State) (r : Nat) : List Word :=
  let x := s.rep r
  let (unit, base, internal) := (reporterUnit r).getD (0, 0, false)
  [ pack [(0, base), (3, b1 internal), (16, x.quiet), (32, unit)],
    pack [(0, x.lastLevel), (3, b1 x.active), (4, x.esc), (8, b1 x.faultSeen), (9, b1 x.broken),
      (10, b1 x.brokenSeen), (11, b1 x.glitchSeen), (16, x.recoveries.toNat), (32, x.faults.toNat)] ]

/-- VX_STATUS, VX_FUSE, VX_SERIAL and VX_LOG (R642). -/
def State.vixiaWords (s : State) : List Word :=
  let v := s.vixia
  [ pack [(0, v.bootStep), (4, b1 v.slot), (5, b1 v.trial), (6, b1 v.recovery), (7, b1 s.clock.backup),
      (8, b1 s.clock.tbLoaded), (9, b1 v.imageRefused), (10, b1 v.rollbackSeen), (11, b1 v.logDroppedSeen),
      (16, v.restarts.toNat)],
    pack [(0, v.fuses.revoked.toNat), (4, v.fuses.svn), (11, b1 v.fuses.debugDisabled)],
    v.fuses.serial,
    pack [(0, v.nextSeq.toNat), (32, v.dropped.toNat)] ]

/-- SENS_VAL and SENS_THR (R642). -/
def Sensor.words (x : Sensor) : List Word :=
  [ pack [(0, x.reading.toNat), (32, b1 x.above), (33, b1 x.below), (34, b1 x.crossed), (35, b1 x.invalid)],
    pack [(0, x.high.toNat), (32, x.low.toNat)] ]

/-! ### The module registers -/

/-- Word `i` of a block, where it has that many. -/
def nth (l : List Word) (i : Nat) : Option Word := l[i]?

/-- Eight one-byte map entries from `g`, the first in the top byte (R6). -/
def mapWord (f : Nat → Nat) (g : Nat) : Word :=
  BitVec.ofNat 64 ((List.range 8).foldl (fun n i => n * 256 + f (g + i)) 0)

/-- The module register at an offset of 0x000F_FF60_0000_0000, a multiple of 8; none where the address is
reserved. -/
def State.regRead (s : State) (o : Nat) : Option Word :=
  let blk (base stride count : Nat) (f : Nat → Nat → Option Word) : Option Word :=
    if base ≤ o ∧ o < base + stride * count then f ((o - base) / stride) ((o - base) % stride / 8) else none
  if o < 0x30000 then
    blk 0x10000 0x40 57 fun p i =>
      nth [(s.pair p).chk (s.pairMode p), (s.pair p).cnt, (s.pair p).loc, (s.pair p).cacheWord] i
  else if o < 0x40000 then
    blk 0x30000 0x1000 4 fun d i => nth [s.sliceStatus d, (s.slice d).lfsr.setWidth 64] i
  else if o < 0x50000 then
    blk 0x40000 0x10 64 fun e i =>
      let r := tabGet Region.reset s.caches.regions e
      nth [r.baseWord, r.attrWord] i
  else if o < 0x60000 then
    blk 0x50000 0x10 8 fun n i =>
      match s.mem.sets[n]? with
      | some m => nth [m.wordA, m.wordB] i
      | none => nth [0, 0] i
  else if o < 0x70000 then blk 0x60000 0x40 24 fun c i => nth (s.chanWords c) i
  else if o < 0x80000 then blk 0x70000 0x20 16 fun t i => nth (s.tier t).words i
  else if o < 0x90000 then
    some (mapWord (fun g => tabGet 64 s.mem.keyMap g) (o - 0x80000))
  else if o < 0x92000 then blk 0x90000 0x10 256 fun p i => nth (s.stageWords p) i
  else if o < 0x92010 then blk 0x92000 8 2 fun d _ => some (s.moverWord d)
  else if o = 0x92010 then some s.dmaCap
  else if o < 0xB0000 then blk 0xA0000 0x20 2 fun d i => nth (s.journalWords d) i
  else if o < 0xC0000 then blk 0xB0000 8 4096 fun r _ => some (s.srcRoute r)
  else if o < 0xD0000 then blk 0xC0000 0x20 1024 fun q i => nth (s.queueWords q) i
  else if o < 0xE0000 then blk 0xD0000 0x10 64 fun n i => nth (s.timer n).words i
  else if o < 0xF0000 then blk 0xE0000 0x20 8 fun e i => nth (s.engine e).words i
  else if o < 0x100000 then blk 0xF0000 0x20 256 fun p i => nth (s.port p).words i
  else if o < 0x110000 then blk 0x100000 0x18 1 fun _ i => nth s.bundleWords i
  else if o = 0x110000 then some s.tansyStatus
  else if o < 0x120000 then blk 0x110100 8 16 fun i _ => some (s.tansyActive i)
  else if o < 0x130000 then blk 0x120000 0x10 1024 fun r i => nth (s.fltWords r) i
  else if o < 0x140000 then blk 0x130000 0x20 1 fun _ i => nth s.vixiaWords i
  else if o < 0x150000 then
    blk 0x140000 0x10 0x71 fun n i => if sourceExists (0x940 + n) then nth (s.sensor (0x940 + n)).words i else none
  else if 0x1000000 ≤ o ∧ o < 0x1000000 + 0x300000 then
    some (mapWord (fun g => match s.owner g with
      | some n => 64 + n
      | none => 0) (o - 0x1000000))
  else none

/-- A W1C write clears an ST bit (R7). -/
def st (old : Bool) (v : Word) (i : Nat) : Bool := old && !bitOf v i

/-- The 16-bit field of a word from bit `lo`. -/
def f16 (v : Word) (lo : Nat) : BitVec 16 := (v >>> lo).setWidth 16

/-- TANSY_STATUS under a store: ERR_LATCH and LEVEL_SEEN are cleared by ones (R612, R617). -/
def Tansy.writeStatus (t : Tansy) (v : Word) : Tansy :=
  { t with errLatch := st t.errLatch v 0, levelSeen := t.levelSeen &&& ~~~((v >>> 8).setWidth 5) }

/-- A store to a module register by its access codes (R7); none where the address is reserved. -/
def State.regWrite (s : State) (o : Nat) (v : Word) : Option State :=
  if (s.regRead o).isNone then none
  else some <|
    let unit (base stride : Nat) : Nat := (o - base) / stride
    let word (base stride : Nat) : Nat := (o - base) % stride / 8
    if o < 0x30000 then
      match word 0x10000 0x40 with
      | 0 => s.modPair (unit 0x10000 0x40) fun p =>
          { p with cloveFailed := st p.cloveFailed v 10, buscmpFailed := st p.buscmpFailed v 11,
                   mismatch := st p.mismatch v 12, delayUe := st p.delayUe v 13, ckptUe := st p.ckptUe v 14,
                   hardFailed := st p.hardFailed v 15 }
      | 1 => s.modPair (unit 0x10000 0x40) fun p =>
          { p with retries := f16 v 0, delayCe := f16 v 16, ckptCe := f16 v 32, localised := f16 v 48 }
      | _ => s
    else if o < 0x40000 then
      match word 0x30000 0x1000 with
      | 0 => s.modSlice (unit 0x30000 0x1000) fun x =>
          { x with lockedDiscard := st x.lockedDiscard v 48, dataUe := st x.dataUe v 49, tagUe := st x.tagUe v 50 }
      | _ => if v.setWidth 32 = 0#32 then s
             else s.modSlice (unit 0x30000 0x1000) fun x => { x with lfsr := v.setWidth 32 }
    else if 0x60000 ≤ o ∧ o < 0x70000 ∧ word 0x60000 0x40 = 1 then
      s.modChan (unit 0x60000 0x40) fun c =>
        { c with ce := f16 v 0, ue := f16 v 16, marked := st c.marked v 40, ueSeen := st c.ueSeen v 41,
                 linkRetry := st c.linkRetry v 42 }
    else if 0x70000 ≤ o ∧ o < 0x80000 ∧ word 0x70000 0x20 = 2 then
      s.modTier (unit 0x70000 0x20) fun t =>
        { t with exhaustedSeen := st t.exhaustedSeen v 17, codeErr := st t.codeErr v 18,
                 directAccess := st t.directAccess v 19 }
    else if 0xA0000 ≤ o ∧ o < 0xB0000 then
      match word 0xA0000 0x20 with
      | 0 => s.modCopy (unit 0xA0000 0x20) fun c =>
          { c with fullSeen := st c.fullSeen v 23, copyUe := st c.copyUe v 24, lateSeen := st c.lateSeen v 25,
                   abandonSeen := st c.abandonSeen v 26 }
      | _ => s.modCopy (unit 0xA0000 0x20) fun c =>
          { c with redrives := f16 v 0, reposts := f16 v 16, latePosts := f16 v 32, abandons := f16 v 48 }
    else if 0xC0000 ≤ o ∧ o < 0xD0000 then
      match word 0xC0000 0x20 with
      | 1 => s.modQueue (unit 0xC0000 0x20) fun q =>
          { q with resetSeen := st q.resetSeen v 18, ptrMismatch := st q.ptrMismatch v 19,
                   itemUe := st q.itemUe v 20, fullSeen := st q.fullSeen v 21 }
      | 2 => s.modQueue (unit 0xC0000 0x20) fun q =>
          { q with resets := f16 v 0, staleNotices := f16 v 16, fullWaits := f16 v 32 }
      | _ => s
    else if 0xD0000 ≤ o ∧ o < 0xE0000 ∧ word 0xD0000 0x10 = 1 then
      s.modTimer (unit 0xD0000 0x10) fun t => { t with missed := f16 v 48 }
    else if 0xE0000 ≤ o ∧ o < 0xF0000 then
      match word 0xE0000 0x20 with
      | 0 => s.modEngine (unit 0xE0000 0x20) fun e =>
          { e with checkSeen := st e.checkSeen v 24, limitSeen := st e.limitSeen v 25,
                   addressSeen := st e.addressSeen v 26, entropyFail := st e.entropyFail v 27 }
      | _ => s.modEngine (unit 0xE0000 0x20) fun e =>
          { e with requests := v.setWidth 32, checkFails := f16 v 32, limitStops := f16 v 48 }
    else if 0xF0000 ≤ o ∧ o < 0x100000 then
      match word 0xF0000 0x20 with
      | 0 => s.modPort (unit 0xF0000 0x20) fun p =>
          { p with lost := st p.lost v 17, refused := st p.refused v 18, fecUncorr := st p.fecUncorr v 19,
                   exhausted := st p.exhausted v 20 }
      | _ => s.modPort (unit 0xF0000 0x20) fun p =>
          { p with fecCorr := f16 v 0, fecBad := f16 v 16, crcErrors := f16 v 32, resends := f16 v 48 }
    else if o = 0x100000 then
      s.modBundle fun b =>
        { b with refusedDigest := st b.refusedDigest v 36, refusedVersion := st b.refusedVersion v 37,
                 portMismatch := st b.portMismatch v 38, fenceSeen := st b.fenceSeen v 39 }
    else if o = 0x110000 then s.modTansy fun t => t.writeStatus v
    else if 0x120000 ≤ o ∧ o < 0x130000 ∧ word 0x120000 0x10 = 1 then
      s.modRep (unit 0x120000 0x10) fun r =>
        { r with faultSeen := st r.faultSeen v 8, brokenSeen := st r.brokenSeen v 10,
                 glitchSeen := st r.glitchSeen v 11, recoveries := f16 v 16, faults := f16 v 32 }
    else if o = 0x130000 then
      s.modVixia fun x =>
        { x with imageRefused := st x.imageRefused v 9, rollbackSeen := st x.rollbackSeen v 10,
                 logDroppedSeen := st x.logDroppedSeen v 11 }
    else if o = 0x130018 then s.modVixia fun x => { x with dropped := f16 v 32 }
    else if 0x140000 ≤ o ∧ o < 0x150000 ∧ word 0x140000 0x10 = 0 then
      s.modSensor (0x940 + unit 0x140000 0x10) fun x => { x with crossed := st x.crossed v 34 }
    else s

/-! ### Partition windows -/

/-- A doorbell toward the tenant, and toward the manager (R488). -/
def State.bellTEvent (s : State) (n : Nat) : State := s.event (0x800 + 2 * n) 1
def State.bellTSev (s : State) (n : Nat) : State := s.sevPart n
def State.bellMEvent (s : State) (n : Nat) : State := s.event (0x801 + 2 * n) 1
def State.bellMSev (s : State) (n : Nat) : State :=
  let mask := (s.part n).cfg.mgrProcs
  (s.procsOf 0).foldl (fun s p => if p.num < 64 ∧ bitOf mask p.num then s.setEv p.core else s) s

/-- RING_CTL (R68). -/
def Ring.ctl (r : Ring) : Word :=
  pack [(0, b1 r.enable), (1, b1 r.halted), (2, b1 (r.enable && r.replyWait)), (8, r.log2.toNat),
    (16, r.authMax), (32, r.haltStatus.toNat)]

/-- The registers of a partition's window (R67, R488). -/
def State.windowRead (s : State) (n o : Nat) : Option Word :=
  if o < 0x1000 then
    let x := s.ring (16 * n + o / 0x100)
    match o % 0x100 with
    | 0x00 => some x.ctl
    | 0x08 => some x.cmdBase
    | 0x10 => some x.replyBase
    | 0x18 => some (x.cmdCons.setWidth 64)
    | 0x20 => some (x.cmdProd.setWidth 64)
    | 0x28 => some (x.replyProd.setWidth 64)
    | 0x30 => some (x.replyCons.setWidth 64)
    | 0x38 => some (pack [(0, x.eventQueue.toNat), (12, x.eventPrio.toNat)])
    | _ => none
  else
    let c := (s.part n).cfg
    match o with
    | 0x1000 => some (pack [(0, c.mboxLog2), (12, c.mboxBase.toNat / 4096)])
    | 0x1008 => some 0
    | 0x1010 => some 0
    | 0x1018 => some c.mgrProcs
    | _ => none

/-- The bits of a ring base address that are stored (R67). -/
def baseMask : Word := 0x000FFFFFFFFFF000#64

/-- A store to a partition's window (R67, R68, R488, R489). -/
def State.windowWrite (s : State) (mgr : Bool) (n o : Nat) (v : Word) : Option State :=
  if (s.windowRead n o).isNone then none
  else if o < 0x1000 then
    let r := 16 * n + o / 0x100
    some <| match o % 0x100 with
      | 0x00 =>
        (if bitOf v 1 then s.clearHalt r else s).enableRing r (bitOf v 0) (BitVec.ofNat 4 (bits v 11 8))
      | 0x08 => if (s.ring r).enable then s else s.modRing r fun x => { x with cmdBase := v &&& baseMask }
      | 0x10 => if (s.ring r).enable then s else s.modRing r fun x => { x with replyBase := v &&& baseMask }
      | 0x30 => s.setReplyCons r (v.setWidth 16)
      | 0x38 =>
        (s.modRing r fun x =>
          { x with eventQueue := v.setWidth 10, eventPrio := BitVec.ofNat 3 (bits v 14 12) }).waitsHere r
      | _ => s
  else
    match o with
    | 0x1008 =>
      if mgr then
        let s := if bitOf v 0 then s.bellTEvent n else s
        some (if bitOf v 1 then s.bellTSev n else s)
      else none
    | 0x1010 =>
      let s := if bitOf v 0 then s.bellMEvent n else s
      some (if bitOf v 1 then s.bellMSev n else s)
    | _ => some s

/-! ### Control space -/

/-- Where an access to control space goes (R76). -/
inductive Ctrl where
  | window (n off : Nat)
  | pop (q : Nat)
  | peek (q : Nat)
  | bell (r : Nat)
  | reg (off : Nat)
  deriving DecidableEq, Repr

/-- The unit that an address names; none where it is reserved. -/
def ctrlOf (pa : Nat) : Option Ctrl :=
  if pa < 0x000FFF4000000000 then
    if 0x000FFF0000000000 ≤ pa then
      some (.window ((pa - 0x000FFF0000000000) / 2 ^ 32) ((pa - 0x000FFF0000000000) % 2 ^ 32))
    else none
  else if pa < 0x000FFF4000400000 then
    let q := (pa - 0x000FFF4000000000) / 0x1000
    match (pa - 0x000FFF4000000000) % 0x1000 with
    | 0 => some (.pop q)
    | 8 => some (.peek q)
    | _ => none
  else if 0x000FFF5000000000 ≤ pa ∧ pa < 0x000FFF5000400000 ∧ pa % 0x1000 = 0 then
    some (.bell ((pa - 0x000FFF5000000000) / 0x1000))
  else if 0x000FFF6000000000 ≤ pa ∧ pa ≤ 0x000FFF60FFFFFFFF then some (.reg (pa - 0x000FFF6000000000))
  else none

/-- The requester may make the access (R77): partition 0 at host level everywhere, another requester to what its
partition holds. -/
def State.ctrlAllowed (s : State) (part : Nat) (host : Bool) (c : Ctrl) : Bool :=
  if part = 0 ∧ host then true
  else
    match c with
    | .window n _ => n == part
    | .pop q => (s.queue q).owner == some part
    | .peek q => (s.queue q).owner == some part
    | .bell r => r / 16 == part
    | .reg _ => false

/-- What an access to control space raises CTRL_SPACE for, but for its size and alignment (R77). -/
def State.ctrlOk (s : State) (part : Nat) (host write : Bool) (pa : Nat) : Bool :=
  match ctrlOf pa with
  | none => false
  | some c =>
    s.ctrlAllowed part host c &&
      match c with
      | .window n o =>
        (s.windowRead n o).isSome && !(write && o == 0x1008 && !(part == 0 && host))
      | .pop _ => !write
      | .peek _ => !write
      | .bell _ => true
      | .reg o => (s.regRead o).isSome

/-- The value of a load that has no side effect (R77, R214). -/
def State.ctrlRead (s : State) (pa : Nat) : Word :=
  match ctrlOf pa with
  | some (.window n o) => (s.windowRead n o).getD 0
  | some (.peek q) => s.peek q
  | some (.bell r) => (s.ring r).cmdProd.setWidth 64
  | some (.reg o) => (s.regRead o).getD 0
  | _ => 0

/-- A store to control space. -/
def State.ctrlWrite (s : State) (part : Nat) (host : Bool) (pa : Nat) (v : Word) : State :=
  match ctrlOf pa with
  | some (.window n o) => (s.windowWrite (part == 0 && host) n o v).getD s
  | some (.bell r) => s.doorbell r v
  | some (.reg o) => (s.regWrite o v).getD s
  | _ => s

/-! ### Meanings -/

/-- REGISTER_WRITE (R7): a store by partition 0 at host level. -/
def execRegisterWrite (addr : Nat) (v : Word) (s : State) : Host.Outcome State Fault Refusal :=
  .next (if addr % 8 = 0 ∧ s.ctrlOk 0 true true addr then s.ctrlWrite 0 true addr v else s)

/-- TANSY_STATUS_WRITE (R612). -/
def execTansyStatusWrite (v : Word) (s : State) : Host.Outcome State Fault Refusal :=
  .next (s.modTansy fun t => t.writeStatus v)

/-- MBOX_BELL_T_EVENT (R488). -/
def execMboxBellTEvent (n : Fin 64) (s : State) : Host.Outcome State Fault Refusal := .next (s.bellTEvent n)

/-- MBOX_BELL_T_SEV (R488). -/
def execMboxBellTSev (n : Fin 64) (s : State) : Host.Outcome State Fault Refusal := .next (s.bellTSev n)

/-- MBOX_BELL_M_EVENT (R488). -/
def execMboxBellMEvent (n : Fin 64) (s : State) : Host.Outcome State Fault Refusal := .next (s.bellMEvent n)

/-- MBOX_BELL_M_SEV (R488). -/
def execMboxBellMSev (n : Fin 64) (s : State) : Host.Outcome State Fault Refusal := .next (s.bellMSev n)

end Sys2Proof.Machine
end

