-- ==== Sys2Proof/Machine/Window.lean ====
section
/-! DEFINITION. The windows of the root ports (R563) and message-signalled interrupts (R565). -/

namespace Sys2Proof.Machine

/-- The root port (its lowest lane) and the offset that a window address names (R563). -/
def windowPort (pa : Nat) : Nat := 4 * ((pa - pcieBase) / 2 ^ 43)
def windowOff (pa : Nat) : Nat := (pa - pcieBase) % 2 ^ 43

/-- The offset of the message-signalled interrupts (R565). -/
def msiOff : Nat := 0x07FFFFFFF000

/-- The latched vectors that a wait covers, as its 32-bit result (R565). -/
def msiHits (latched : List Nat) (base : Nat) (mask : BitVec 32) : Nat :=
  (List.range 32).foldl (fun n i => n + b1 (mask.getLsbD i && latched.contains (base + i)) * 2 ^ i) 0

/-- Complete every MSI_WAIT that a latched vector satisfies; the completion clears what it reports (R565). -/
def State.serveMsi (s : State) (port : Nat) : State :=
  (s.port port).msiWaits.foldl (fun s w =>
    let hits := msiHits (s.port port).msi w.1 w.2.1
    if hits = 0 then s
    else
      (s.modPort port fun p =>
        { p with
          msi := p.msi.filter fun v => !(decide (w.1 ≤ v ∧ v < w.1 + 32) && w.2.1.getLsbD (v - w.1))
          msiWaits := p.msiWaits.erase w }).complete w.2.2 0 0 (beBytes 4 hits)) s

/-- Latch a vector (R565). -/
def State.latchMsi (s : State) (port : Nat) (data : Nat) : State :=
  (s.modPort port fun p => { p with msi := insertNat p.msi (data % 2048) }).serveMsi port

/-- A transaction of a root port reaches its port group (R28, R29). -/
def State.transaction (s : State) (port : Nat) : State := s.touchCell (cellNo 5 (groupOfPort port))

/-- A store to a window (R563, R565). -/
def State.pcieWrite (s : State) (pa : Nat) (bs : Bytes) : State :=
  if windowOff pa = msiOff then s.latchMsi (windowPort pa) (beNat bs)
  else (s.transaction (windowPort pa)).modPort (windowPort pa) fun p =>
    { p with sent := p.sent ++ [.memWrite (windowOff pa) bs] }

/-- A load from a window: what the device answers is not the module's to say (log entry 3). -/
def State.pcieRead (s : State) (pa n : Nat) : Bytes × State :=
  (s.bytesAt pa n,
    (({ s with free := s.free + 1 } : State).transaction (windowPort pa)).modPort (windowPort pa) fun p =>
      { p with sent := p.sent ++ [.memRead (windowOff pa) n] })

/-! ### The pieces of a range -/

/-- A physical address lies in a window of a root port. -/
def inWindow (pa : Nat) : Bool := decide (pcieBase ≤ pa ∧ pa < controlBase)

/-- Read the bytes of physical pieces, of memory or of a window. -/
def State.readPieces (s : State) : List (Nat × Nat) → Bytes × State
  | [] => ([], s)
  | p :: ps =>
    let (b, s) := if inWindow p.1 then s.pcieRead p.1 p.2 else (s.bytesAt p.1 p.2, s.dmaRead p.1 p.2)
    let (bs, s) := State.readPieces s ps
    (b ++ bs, s)

def State.piecesPoisoned (s : State) (ps : List (Nat × Nat)) : Bool := ps.any fun p => s.poisoned p.1 p.2

/-- Write bytes over physical pieces, of memory or of a window, for a requester of I/O die `d`. -/
def State.writePieces (s : State) (d : Nat) : List (Nat × Nat) → Bytes → State
  | [], _ => s
  | p :: ps, bs =>
    State.writePieces (if inWindow p.1 then s.pcieWrite p.1 (bs.take p.2) else s.dmaWrite d p.1 (bs.take p.2)) d ps
      (bs.drop p.2)

/-! ### The movers' tokens (R35 to R40) -/

/-- A mover's write. -/
def State.moverWrite (s : State) (d pa : Nat) (bs : Bytes) : State :=
  if pcieBase ≤ pa then s.pcieWrite pa bs else s.dmaWrite d pa bs

/-- Spend tokens of an I/O die, where so many remain (R35, R38). -/
def State.spend (s : State) (d n : Nat) : Option State :=
  if n ≤ (s.ioDie d).tokens then some (s.modIoDie d fun x => { x with tokens := x.tokens - n }) else none

/-- The remaining tokens of an interval lapse: a request needs more than they are (R38, R40). -/
def State.lapse (s : State) (d : Nat) : State := s.modIoDie d fun x => { x with tokens := 0 }

/-- The lines that an access to pieces presents (R35). -/
def pieceLines (ps : List (Nat × Nat)) : Nat := ps.foldl (fun n p => n + (linesOf p.1 p.2).length) 0

/-- A mover of an I/O die makes an access that spends `n` tokens, or waits (R28, R38, R40, R142, R306, R326). -/
def State.moverReach {α : Type} (s : State) (d n : Nat) (ps : List (Nat × Nat)) (write : Bool) (act : State → α × State) :
    Option α × State :=
  match s.reach ps write fun s => match s.spend d n with
    | none => (none, s.lapse d)
    | some t => ((some (act t).1 : Option α), (act t).2) with
  | (some (some a), t) => (some a, t)
  | (_, t) => (none, t)

end Sys2Proof.Machine
end

