-- ==== Sys2Proof/Machine/CpuOps.lean ====
section
/-! DEFINITION. What every Miulo instruction shares: access to memory and control space with its exceptions,
the gated stores, retirement, exception entry (R129 to R136), and the choice of an interrupt (R139). -/

namespace Sys2Proof.Machine

/-- An exception: its vector, its fault address, and the bits of CAUSE beside VECTOR and FROM_LEVEL (R131,
R138). -/
structure Exc where
  vector : Nat
  faddr  : Word
  cause  : Nat
  deriving DecidableEq, Repr

/-- What an instruction does at its turn: it retires (and `close` says that its window closes), it traps after
its effects, it faults without any (and `close` says that its window closes though the level stays), it waits and tries again later (for the ASLEEP channels listed, if any), it begins a WFE or WAITC wait, or it stops at a poisoned line (R275). -/
inductive Did where
  | retire (items : List Item) (close : Bool)
  | trap (items : List Item) (x : Exc)
  | fault (x : Exc) (close : Bool := false)
  | wait (chans : List Nat)
  | park (w : Wait)
  | poison
  deriving DecidableEq, Repr

def illegal : Did := .fault ⟨5, 0, 0⟩
def privileged : Did := .fault ⟨6, 0, 0⟩

/-- The bits of CAUSE that say what an access was (R138). -/
def accCause : Acc → Nat
  | .read => 0 | .write => 0x400 | .fetch => 0x800

/-- The exception of a failed translation (R100, R131). -/
def Xlate.exc (acc : Acc) : Xlate → Exc
  | .ok _ _ _ => ⟨0, 0, 0⟩
  | .walk1 va => ⟨if acc = .fetch then 0x02 else 0x0D, BitVec.ofNat 64 va, accCause acc⟩
  | .perm1 va _ => ⟨if acc = .fetch then 0x03 else 0x0E, BitVec.ofNat 64 va, accCause acc⟩
  | .host gpa _ _ => ⟨0x04, BitVec.ofNat 64 gpa, accCause acc + 0x1000⟩

/-- A translation has failed. -/
def Xlate.failed : Xlate → Bool
  | .ok _ _ _ => false
  | _ => true

/-- A core as a translation sees it, at a level. -/
def State.viewer (s : State) (core level : Nat) : Viewer :=
  let a := (s.core core).arch
  { core := core, level := level, asid := bits (a.kr 17) 15 0, ptroot := (a.kr 16).toNat
    root := entryAddr (a.kr 18).toNat, part := s.partOfCore core }

/-- What comes of an access of a processor: its physical pieces, or what else it gives; an exception; or it must wait, for
the ASLEEP channels listed, if any. -/
inductive Reached (α : Type) where
  | ok (a : α)
  | error (x : Exc)
  | wait (chans : List Nat)
  deriving DecidableEq, Repr

/-- The exception that an access raises, as R134 ranks them: the failures of a fetch come before CTRL_SPACE, and CTRL_SPACE
before the failures of a data access. `ctl` says that the instruction may reach control space at all (R105). -/
def State.accessExc (s : State) (v : Viewer) (va size : Nat) (acc : Acc) (ctl : Bool) (rs : List (Xlate × Nat)) :
    Option Exc :=
  let bad := rs.any fun r =>
    match r.1.pa with
    | some pa =>
      decide (controlBase ≤ pa) &&
        !(ctl && decide (size = 8 ∧ r.2 = 8 ∧ pa % 8 = 0) && acc != .fetch &&
          s.ctrlOk v.part (v.level == 2) (acc == .write) pa)
    | none => false
  let control : Option Exc := if bad then some ⟨0x0C, BitVec.ofNat 64 va, accCause acc⟩ else none
  let failed := (rs.find? fun r => r.1.failed).map fun r => r.1.exc acc
  if acc = .fetch then failed.or control else control.or failed

/-- The pieces of an access, each with its virtual address: a fetch does not go on past the top of the address space, where
its translation fails (R85, log entry 100). -/
def State.translatePieces (s : State) (v : Viewer) (va size : Nat) (acc : Acc) : List (Xlate × Nat) × State :=
  (pagePieces 3 va size).foldl (fun (r : List (Xlate × Nat) × State) p =>
    let (x, u) := if acc = .fetch ∧ 2 ^ 64 ≤ p.1 then (.walk1 (p.1 % 2 ^ 64), r.2)
      else r.2.translate v (p.1 % 2 ^ 64) acc
    (r.1 ++ [(x, p.2)], u)) ([], s)

/-- The table entries that translate an access. -/
def State.accessTables (s : State) (v : Viewer) (va size : Nat) (acc : Acc) : List (Nat × Nat) :=
  (pagePieces 3 va size).flatMap fun p => s.tablesOf v (p.1 % 2 ^ 64) acc

/-! ### The gated-store buffer -/

/-- The entries that the buffer holds (R194, R238). -/
def gatedMax (p : Nat) : Nat := if p < 52 then 96 else if p < 56 then 32 else 16

/-- The byte that a store writes at an address. -/
def GStore.byteAt (g : GStore) (pa : Nat) : Option Byte :=
  (g.pieces.find? fun p => p.1 ≤ pa ∧ pa < p.1 + p.2.length).bind fun p => p.2[pa - p.1]?

/-- The byte that the pair's own buffer holds for an address: that of its latest store (R196). -/
def State.ownByte (s : State) (core pa : Nat) : Option Byte :=
  (s.pair (pairOfCore core)).gated.reverse.findSome? fun g => g.byteAt pa

/-- A byte as the processor of a pair reads it (R196). -/
def State.loadByte (s : State) (core pa : Nat) : Byte := (s.ownByte core pa).getD (s.byteAt pa)

/-- The ASLEEP channels that an access needs (R28). -/
def State.asleepFor (s : State) (ps : List (Nat × Nat)) (acc : Acc) : List Nat :=
  ps.flatMap fun p => s.asleepIn p.1 p.2 (acc == .write)

/-- The access must wait: for a granule operation (R306), another pair's atomic (R142), or an ASLEEP channel (R28). -/
def State.mustWait (s : State) (core : Nat) (ps : List (Nat × Nat)) (acc : Acc) : Bool :=
  (ps.any fun p => s.granuleBusy p.1 || s.reservedFor (pairOfCore core) p.1 p.2) || !(s.asleepFor ps acc).isEmpty

/-- The spans of the pieces of an access. -/
def spansOf (ps : List (Nat × Nat × Nat × Nat)) : List (Nat × Nat) := ps.map fun p => (p.1, p.2.1)

/-- An access of a processor: the exception it raises, or its physical pieces, each with the bounds of its page, unless it or
its tables must wait; and the state with the table entries marked (R99, R104). -/
def State.access (s : State) (v : Viewer) (va : Word) (size : Nat) (acc : Acc) (ctl : Bool := true) :
    Reached (List (Nat × Nat × Nat × Nat)) × State :=
  let tables := s.accessTables v va.toNat size acc
  if s.mustWait v.core tables .read then (.wait (s.asleepFor tables .read), s)
  else
    let (rs, t) := s.translatePieces v va.toNat size acc
    match s.accessExc v va.toNat size acc ctl rs with
    | some x => (.error x, t)
    | none =>
      let ps := rs.filterMap fun r => match r.1 with
        | .ok pa lo hi => some (pa, r.2, lo, hi)
        | _ => none
      if s.mustWait v.core (spansOf ps) acc then (.wait (s.asleepFor (spansOf ps) acc), s) else (.ok ps, t)

/-- Another pair's buffer holds a store to the location that it has not released: an atomic waits for it, so that nothing is
written between its read and its write (R105). -/
def State.gatedElsewhere (s : State) (p : Nat) (ps : List (Nat × Nat)) : Bool :=
  s.pairs.any fun e => e.1 != p && e.2.gated.any fun g => g.pieces.any fun x =>
    ps.any fun y => decide (x.1 < y.1 + y.2 ∧ y.1 < x.1 + x.2.length)

/-- A store reaches the module: memory by the core's class of requester (R251), control space, or a root port's
window. -/
def State.performStore (s : State) (core : Nat) (g : GStore) : State :=
  g.pieces.foldl (fun s p =>
    if controlBase ≤ p.1 then s.ctrlWrite g.part g.host p.1 (BitVec.ofNat 64 (beNat p.2))
    else if pcieBase ≤ p.1 then s.pcieWrite p.1 p.2
    else
      (splitLines (p.2.length + 1) p.1 p.2).foldl (fun s x =>
        if core < 104 then s.coreWrite core x.1 x.2
        else if core < 108 then s.dmaLine (dieOfPair (pairOfCore core)) x.1 x.2
        else s.privLine cellVixia 0 x.1 x.2) s) s

/-- Lines of L1D that a retiring store writes are marked touched (R197, R198). -/
def State.markStores (s : State) (core : Nat) (items : List Item) : State :=
  (storesOf items).foldl (fun s g => g.pieces.foldl (fun s p =>
    let m := s.windowMark core
    (linesOf p.1 p.2.length).foldl (fun s l =>
      s.modCaches fun c => { c with l1d := Caches.modL1 c.l1d core l fun set => hitLine set l m }) s) s) s

/-! ### Retirement -/

/-- A store goes to control space, and closes its window (R140). -/
def GStore.control (g : GStore) : Bool := g.pieces.any fun p => decide (controlBase ≤ p.1)

/-- The window of an instruction closes: where it says so, and where it stores to control space (R140). -/
def closes (items : List Item) (close : Bool) : Bool := close || (storesOf items).any GStore.control

/-- The buffer has no room for the stores (R189, R194). -/
def State.bufferFull (s : State) (core : Nat) (items : List Item) : Bool :=
  let need := (storesOf items).length
  decide (0 < need ∧ gatedMax (pairOfCore core) < (s.pair (pairOfCore core)).gated.length + need)

/-- A checked pair may retire `n` instructions: its buffer has room (R189), and where its window ends, it may close (R190). -/
def State.mayRetire (s : State) (core n : Nat) (items : List Item) (close : Bool) : Bool :=
  s.isSplit (pairOfCore core) || (!s.bufferFull core items &&
    (s.canClose core || !(closes items close || decide (128 ≤ (s.pair (pairOfCore core)).opened.count + n))))

/-- What happens where it may not: a store that finds the buffer full closes the window before it (R189). -/
def State.postpone (s : State) (core : Nat) (items : List Item) : State :=
  if s.bufferFull core items ∧ !(s.pair (pairOfCore core)).opened.isEmpty ∧ s.canClose core then s.closeWindow core else s

/-- What an instruction's retirement does. `t` is the state after its accesses, `s` the state before them. The stores of an
unchecked core take effect at once (R75). -/
def State.effects (s t : State) (core n : Nat) (items : List Item) (len : Nat) (close : Bool) : State :=
  if s.isSplit (pairOfCore core) then
    (storesOf items).foldl (fun t g => t.performStore core g) (t.retired core n items len close)
  else (t.markStores core items).retired core n items len (closes items close)

/-- An instruction retires, unless a slice can hold no further pinned line (R326). The events of an unchecked core take effect
at once (R75). -/
def State.commitNow (s t : State) (core n : Nat) (items : List Item) (len : Nat) (close : Bool) : State :=
  let u := s.effects t core n items len close
  if s.overPins u then s
  else if s.isSplit (pairOfCore core) then (eventsOf items).foldl State.doEvent u else u

/-- An instruction retires, or waits where its pair must first compare a window or release a store (R189, R190). -/
def State.commit (s t : State) (core n : Nat) (items : List Item) (len : Nat) (close : Bool) : State :=
  if s.mayRetire core n items close then s.commitNow t core n items len close else s.postpone core items

/-! ### Exception entry -/

/-- A push of `size` bytes would write a byte below the stack limit: its lowest byte is, or it passes the top of the address
space (R117). -/
def belowLimit (at_ : Word) (size : Nat) (limit : Word) : Bool :=
  decide (at_.toNat < limit.toNat) || decide (2 ^ 64 < at_.toNat + size ∧ 0 < limit.toNat)

/-- Cut the bytes of a store over its physical pieces. -/
def cutPieces (ps : List (Nat × Nat × Nat × Nat)) (bs : Bytes) : List (Nat × Bytes) :=
  (ps.foldl (fun (r : List (Nat × Bytes) × Bytes) p => (r.1 ++ [(p.1, r.2.take p.2.1)], r.2.drop p.2.1)) ([], bs)).1

/-- The frame of an entry to level `T`: the exception that keeps it from being stored, or its two stores (R135). -/
def State.frame (s : State) (core T : Nat) (a : Arch) (ps pc : Word) : Reached (List Item) × State :=
  let at_ := a.sp T - 16#64
  if belowLimit at_ 16 (a.kr (if T = 2 then 10 else 9)) then (.error ⟨0x0A, at_, 0⟩, s)
  else
    let v := s.viewer core T
    let (r0, t) := s.access v at_ 8 .write
    let (r1, u) := t.access v (at_ + 8) 8 .write
    match r0, r1 with
    | .wait cs, _ => (.wait cs, s)
    | .error x, _ => (.error x, u)
    | _, .wait cs => (.wait cs, s)
    | _, .error x => (.error x, u)
    | .ok p0, .ok p1 =>
      let st (va w : Word) (ps : List (Nat × Nat × Nat × Nat)) : Item :=
        .store va 8 (w.setWidth 128)
          { pieces := cutPieces ps (wordBytes w), part := v.part, host := T == 2, atomic := false }
      (.ok [st at_ ps p0, st (at_ + 8) pc p1], u)

/-- The items of an entry to level `T` (R135), after those of the instruction itself. The bank holds one product: where two
have not landed it takes the later one, and the earlier is lost: DESIGN CHOICE (log entry 102). R187 gives the control
registers one place in its order: the bank's come first, then CAUSE, then FADDR: DESIGN CHOICE (log entry 119). -/
def entryItems (T : Nat) (x : Exc) (from_ orig : Nat) (a : Arch) (stores : List Item) : List Item :=
  let last := (a.products.filter fun p => p.hi.isSome || p.lo.isSome).getLast?
  let bank : List Item := match last with
    | some p => [.k (if T = 2 then 26 else 24) (p.hi.getD a.ph), .k (if T = 2 then 27 else 25) (p.lo.getD a.pl)]
    | none => []
  let cause := x.vector + from_ * 0x100 + x.cause + orig * 2 ^ 32
  [.bank a.ph a.pl, .sp T (a.sp T - 16#64)] ++ stores ++
    [.ps ((a.ps &&& ~~~0x3003#64) ||| BitVec.ofNat 64 (T + 0x100))] ++ bank ++
    [.k (if T = 2 then 4 else 0) (BitVec.ofNat 64 cause), .k (if T = 2 then 5 else 1) x.faddr,
     .target (pcOf (a.kr (if T = 2 then 6 else 2) + BitVec.ofNat 64 (48 * x.vector)))]

/-- The level to which an exception goes (R133). -/
def Exc.level (x : Exc) (from_ : Nat) : Nat :=
  if x.vector = 4 ∨ x.vector = 8 ∨ x.vector = 0x11 then 2 else if from_ = 2 then 2 else 1

/-- The processor stops, and Tansy records a fault of level 3 for its partition (R136, R275). -/
def State.stopCore (s : State) (core : Nat) : State :=
  (s.modCore core fun c => { c with halted := true }).reportStop core

/-- Exception entry (R135, R136): `n` is 1 for a trap, whose instruction has retired with `items`, and 0 for a
fault or an interrupt. `T` is the level it goes to, `close` says that the window closes though the level stays. The first
component says that the entry has been made, or the processor has stopped: it can also have to wait. STACK and DOUBLE leave
WRITE of CAUSE 0: DESIGN CHOICE (log entry 103). The entry's items are folded with those of the trapping instruction, in
one order and under the PC of that instruction or boundary (R187): DESIGN CHOICE (log entry 119). -/
def State.enter (s t : State) (core T n : Nat) (items : List Item) (len : Nat) (x : Exc) (close : Bool) :
    Bool × State :=
  let c := t.core core
  let from_ := c.arch.level
  let c1 := if n = 0 then c else
    let c := c.take items len
    { c with arch := c.arch.advance }
  let a := c1.finish.arch
  let go (t : State) (T : Nat) (x : Exc) (orig : Nat) (stores : List Item) : Bool × State :=
    let all := items ++ entryItems T x from_ orig a stores
    let close := close || T != from_
    (s.mayRetire core n all close && !s.overPins (s.effects t core n all len close), s.commit t core n all len close)
  match t.frame core T a a.psRead a.pc with
  | (.ok st, t) => go t T x 0 st
  | (.wait cs, _) => (false, s.touchChans cs)
  | (.error _, t) =>
    if T = 2 then (true, s.stopCore core)
    else
      match t.frame core 2 a a.psRead a.pc with
      | (.ok st, t) => go t 2 ⟨0x11, a.sp T - 16#64, 0⟩ x.vector st
      | (.wait cs, _) => (false, s.touchChans cs)
      | (.error _, _) => (true, s.stopCore core)

/-! ### Execution -/

/-- A hand-over of the pair has begun and this core has stopped for it (R231, R232, R236): a checked pair first runs a failed
window again, until it agrees (chapter 05, Collisions). -/
def State.handingOver (s : State) (core : Nat) : Bool :=
  let p := s.pair (pairOfCore core)
  match p.job with
  | some (.join _ _ _) => core % 2 == 1
  | some _ => p.failRun == 0 || !p.closed.isEmpty
  | none => false

/-- The cell of the core lets it run: it is RUNNING, or it is a DRAINING checked pair that runs a failed window again. -/
def State.mayRun (s : State) (core : Nat) : Bool :=
  let p := s.pair (pairOfCore core)
  match s.cst (s.cellOfCore core) with
  | .running => true
  | .draining => !s.isSplit (pairOfCore core) && p.failRun != 0 && p.closed.isEmpty
  | _ => false

/-- The core executes instructions: its cell lets it run, its clock runs (no thermal trip, R654), nothing has stopped
it. -/
def State.executes (s : State) (core : Nat) : Bool :=
  let c := s.core core
  s.mayRun core && s.leads core && !c.clockOff && !c.halted &&
    !(s.pair (pairOfCore core)).restarting && (s.pair (pairOfCore core)).failing.isNone && !s.handingOver core &&
    !(s.pins.thermtrip && decide (core < 104))

/-- The core is at an instruction boundary with no interrupt to take and nothing to wait for. -/
def State.ready (s : State) (core : Nat) : Bool :=
  s.executes core && (s.core core).wait == .none && (s.takeLine core).isNone

/-! ### An instruction -/

/-- Fetch `len` parcels at PC: the exception, or that it waits, or the state after it (R134 rank 1). -/
def State.fetched (s : State) (core len : Nat) : (Option Exc) × Bool × State :=
  let a := (s.core core).arch
  match s.access (s.viewer core a.level) a.pc (3 * len) .fetch with
  | (.error x, t) => (some x, false, t)
  | (.wait cs, _) => (none, true, s.touchChans cs)
  | (.ok ps, t) =>
    (none, false, (distinct (ps.flatMap fun p => linesOf p.1 p.2.1)).foldl (fun t l =>
      if core < 104 then (t.coreTouch core l true).1
      else if core < 108 then t.dmaTouch l
      else t.privTouch cellVixia l) t)

/-- What follows from what an instruction did. -/
def State.conclude (s t : State) (core len : Nat) : Did → State
  | .retire items close => s.commit t core 1 items len close
  | .trap items x =>
    let T := x.level (t.core core).arch.level
    (s.enter t core T 1 items len x (decide (x.vector = 8))).2
  | .fault x close => (s.enter t core (x.level (t.core core).arch.level) 0 [] 0 x close).2
  | .wait cs => s.touchChans cs
  | .park w =>
    let p := pairOfCore core
    let go (s : State) : State := s.modCore core fun c => { c with wait := w, first := none }
    if s.isSplit p ∨ (s.pair p).opened.isEmpty then go t
    else if s.canClose core then go (t.closeWindow core)
    else s
  | .poison => t.stopCore core

/-- One instruction of `len` parcels at a core: it is fetched, does what `f` says, and retires or raises its
exception. One that would need a pin beyond those of a slice waits (R326). -/
def State.instr (s : State) (core len : Nat) (f : Arch → State → Did × State) : State :=
  if s.ready core then
    let u := match s.fetched core len with
      | (some x, _, t) => s.conclude t core len (.fault x)
      | (none, true, t) => t
      | (none, false, t) =>
        let r := f (t.core core).arch t
        s.conclude r.2 core len r.1
    if s.overPins u then s else u
  else s

/-- An instruction that only computes. -/
def State.compute (s : State) (core len : Nat) (f : Arch → List Item) : State :=
  s.instr core len fun a t => (.retire (f a) false, t)

end Sys2Proof.Machine
end

