-- ==== Sys2Proof/Machine/Flags.lean ====
section
/-! DEFINITION. The flags of PS (R86, R112) and the condition codes (R111). -/

namespace Sys2Proof.Machine

/-- PS with the four flags replaced. -/
def Arch.withFlags (a : Arch) (n z c v : Bool) : Word :=
  (a.psRead &&& ~~~0xF0#64) |||
    BitVec.ofNat 64 (16 * b1 v + 32 * b1 c + 64 * b1 z + 128 * b1 n)

/-- PS after a comparison of `x` with `y` (R112). -/
def Arch.cmpFlags (a : Arch) (x y : Word) : Word :=
  let d := x - y
  a.withFlags d.msb (d == 0) (decide (y.toNat ≤ x.toNat)) (decide (d.toInt ≠ x.toInt - y.toInt))

/-- PS after TST (R112). -/
def Arch.tstFlags (a : Arch) (x y : Word) : Word :=
  let d := x &&& y
  a.withFlags d.msb (d == 0) false false

/-- PS with C replaced (ADDC and SUBB, R112). -/
def Arch.withC (a : Arch) (c : Bool) : Word := a.withFlags a.flagN a.flagZ c a.flagV

/-- PS with Z replaced (CAS, R110). -/
def Arch.withZ (a : Arch) (z : Bool) : Word := a.withFlags a.flagN z a.flagC a.flagV

/-- PS after FCMP (R112). -/
def Arch.fcmpFlags (a : Arch) (unordered : Bool) (o : Ordering) : Word :=
  if unordered then a.withFlags true false false true
  else
    match o with
    | .lt => a.withFlags true false false false
    | .eq => a.withFlags false true false false
    | .gt => a.withFlags false false false false

/-- A condition code (R111); none where it is reserved. -/
def Arch.cond (a : Arch) (code : Nat) : Option Bool :=
  let n := a.flagN
  let z := a.flagZ
  let c := a.flagC
  let v := a.flagV
  match code with
  | 0 => some true
  | 1 => some z
  | 2 => some !z
  | 3 => some (n != v)
  | 4 => some (n == v)
  | 5 => some (z || n != v)
  | 6 => some (!z && n == v)
  | 7 => some !c
  | 8 => some c
  | 9 => some (!c || z)
  | 10 => some (c && !z)
  | 11 => some n
  | 12 => some !n
  | 13 => some v
  | 14 => some !v
  | _ => none

end Sys2Proof.Machine
end

