-- ==== Sys2Proof/Machine/Operands.lean ====
section
/-! DEFINITION. Operand forms: shifts, loads, stores, pushes and branch targets, and the training of the stride
slots by loads (R247). -/

namespace Sys2Proof.Machine

/-- A shift (R110): 0 SLL, 1 SRL, 2 SRA, 3 ROR. -/
def shift (fn : Nat) (x : Word) (n : Nat) : Word :=
  match fn with
  | 0 => x <<< n
  | 1 => x >>> n
  | 2 => x.sshiftRight n
  | _ => x.rotateRight n

/-- A sign-extended immediate (R109). -/
def sx {w : Nat} (i : BitVec w) : Word := i.signExtend 64

/-- The target of a branch of `off` parcels (R109). -/
def Arch.branch (a : Arch) (off : Word) : Word := a.pc + 3#64 * off

/-- A transfer of control: to a target that is not a multiple of 3 it raises INSTR_ALIGN (R118, R131). -/
def jumpTo (target : Word) (items : List Item) (close : Bool) : Did :=
  if target.toNat % 3 = 0 then .retire (items ++ [.target target]) close else .fault ⟨0x01, target, 0⟩ close

/-! ### Stride slots -/

/-- One access of the load that a slot watches (R247). -/
def Stride.follow (x : Stride) (l dist : Nat) : Stride :=
  let d : Int := (l : Int) - x.last
  let fits := decide (d ≠ 0 ∧ -32 ≤ d ∧ d ≤ 32)
  let run := if !fits then 0 else if d = x.stride then x.run + 1 else 1
  { x with last := l, stride := if fits then d else 0, run := run,
           ahead := if 3 ≤ run then min dist (x.ahead + 1) else 0 }

/-- Put an access of a core into `max` slots, kept in order of use (R247): the least recently used goes when none is free. -/
def trainSlots (l : List Stride) (key core line dist lo hi max : Nat) : List Stride :=
  match l.find? fun x => x.key = key with
  | some x => { x.follow line dist with core := core, lo := lo, hi := hi } :: l.filter fun y => y.key != key
  | none =>
    { key := key, core := core, last := line, stride := 0, run := 0, ahead := 0, lo := lo, hi := hi } :: l.take (max - 1)

/-- A load that missed the L2, or hit a line that a prefetch brought, trains its pair's slots (R247, R248). -/
def State.train (s : State) (core : Nat) (line lo hi : Nat) : State :=
  let p := pairOfCore core
  if (s.pair p).pfOn then
    let key := bits (s.core core).arch.pc 47 0
    s.modCaches fun c =>
      { c with l2Strides := tabMod [] c.l2Strides p fun l =>
          trainSlots l key core line (s.pair p).pfDist.toNat (lineOf lo) (lineOf (hi - 1)) 32 }
  else s

/-! ### Loads and stores -/

/-- The caches see a load of a compute core; Vixia's loads pass through the shared cache (R251). -/
def State.touchPieces (s : State) (core : Nat) (ps : List (Nat × Nat × Nat × Nat)) : State :=
  ps.foldl (fun s p => (linesOf p.1 p.2.1).foldl (fun s l =>
    if core < 104 then
      let r := s.coreTouch core l false
      if r.2 then r.1.train core l p.2.2.1 p.2.2.2 else r.1
    else if core < 108 then s.dmaTouch l
    else s.privTouch cellVixia l) s) s

/-- The bytes of one physical piece. What the pair's own buffer holds of them comes from there (R196); a window of a root
port is read only for the others. -/
def State.pieceBytes (s : State) (core : Nat) (p : Nat × Nat × Nat × Nat) : Bytes × State :=
  let own := (List.range p.2.1).map fun i => s.ownByte core (p.1 + i)
  if (pcieBase ≤ p.1 ∧ p.1 < controlBase) ∧ own.any Option.isNone then
    let (bs, t) := s.pcieRead p.1 p.2.1
    ((own.zip bs).map fun x => x.1.getD x.2, t)
  else ((List.range p.2.1).map fun i => s.loadByte core (p.1 + i), s)

/-- Some piece lies in a poisoned line of memory (R275, R284). -/
def State.badPieces (s : State) (ps : List (Nat × Nat × Nat × Nat)) : Bool :=
  ps.any fun p => decide (p.1 < pcieBase) && s.poisoned p.1 p.2.1

/-- The lines of the pieces are read from memory where no cache holds them (R317). -/
def State.notePieces (s : State) (ps : List (Nat × Nat × Nat × Nat)) : State :=
  (ps.flatMap fun p => linesOf p.1 p.2.1).foldl (fun s l => if s.cached l then s else s.noteRead l) s

/-- The pair's own buffer holds a store to a control-space address. -/
def State.ownStore (s : State) (core pa : Nat) : Bool :=
  (s.pair (pairOfCore core)).gated.any fun g => g.pieces.any fun p => p.1 = pa

/-- A load from control space (R77, R196, R214 to R219): a checked pair issues it after its earlier windows have
committed and its own earlier store to the same register has been released, so that it reads what that store left there
(R77, R196); a pop moves the item to a pending slot. -/
def State.loadControl (s : State) (core pa : Nat) (use : Word → Did) : Did × State :=
  let p := pairOfCore core
  let split := s.isSplit p
  if !split ∧ !(s.pair p).closed.isEmpty then (.wait [], s)
  else
    match ctrlOf pa with
    | some (.pop q) =>
      let v := s.peek q
      if split then (use v, s.popNow q)
      else if v = 0 then (use v, s)
      else if s.popWaits q p then (.wait [], s)
      else
        (use v, (s.popPend q (cellOfPair p)).modPair p fun x => { x with opened := { x.opened with pop := some q } })
    | _ => if s.ownStore core pa then (.wait [], s) else (use (s.ctrlRead pa), s)

/-- A load of `size` bytes (R104): `use` says what follows from the bytes, and whether its window closes. -/
def State.load (s : State) (core : Nat) (va : Word) (size : Nat) (use : Bytes → Bool → Did) : Did × State :=
  match s.access (s.viewer core (s.core core).arch.level) va size .read with
  | (.error x, t) => (.fault x, t)
  | (.wait cs, _) => (.wait cs, s)
  | (.ok ps, t) =>
    match ps with
    | [(pa, 8, lo, hi)] =>
      if controlBase ≤ pa then t.loadControl core pa fun w => use (wordBytes w) true
      else if t.badPieces ps then (.poison, t.notePieces ps)
      else
        let (bs, u) := t.pieceBytes core (pa, 8, lo, hi)
        (use bs false, u.touchPieces core [(pa, 8, lo, hi)])
    | _ =>
      if t.badPieces ps then (.poison, t.notePieces ps)
      else
        let (bs, u) := ps.foldl (fun (r : Bytes × State) p =>
          let (b, u) := r.2.pieceBytes core p
          (r.1 ++ b, u)) ([], t)
        (use bs false, u.touchPieces core ps)

/-- The gated store that writes bytes over physical pieces. -/
def gstore (v : Viewer) (atomic : Bool) (ps : List (Nat × Nat × Nat × Nat)) (bs : Bytes) : GStore :=
  { pieces := cutPieces ps bs, part := v.part, host := v.level == 2, atomic := atomic }

/-- A store of `size` bytes (R104): `use` says what follows from its item. -/
def State.store (s : State) (core : Nat) (va : Word) (size : Nat) (data : Quad) (use : Item → Did) : Did × State :=
  let v := s.viewer core (s.core core).arch.level
  match s.access v va size .write with
  | (.error x, t) => (.fault x, t)
  | (.wait cs, _) => (.wait cs, s)
  | (.ok ps, t) => (use (.store va size data (gstore v false ps (beBytes size data.toNat))), t)

/-- The rank of a data fault of an atomic's read among those of its write (R134). -/
def Exc.rank (x : Exc) : Nat :=
  match x.vector with
  | 0x0C => 0 | 0x0D => 1 | 0x04 => 2 | _ => 3

/-- An atomic on the 8 bytes at an address (R105): `new` gives the value that the old one becomes, if any is
stored. It asks for permission to read and to write, and marks DIRTY, even where it stores nothing: DESIGN CHOICE (log entry
104). DATA_ALIGN and CTRL_SPACE leave WRITE of CAUSE 0: DESIGN CHOICE (log entry 103). -/
def State.atomic (s : State) (core : Nat) (va : Word) (new : Word → Option Word) (items : Word → List Item) :
    Did × State :=
  let v := s.viewer core (s.core core).arch.level
  if va.toNat % 8 ≠ 0 then (.fault ⟨0x0B, va, 0⟩, s)
  else
    let (r, t) := s.access v va 8 .read false
    let (w, u) := t.access v va 8 .write false
    match r, w with
    | .wait cs, _ => (.wait cs, s)
    | .error x, .error y => (.fault (if x.rank ≤ y.rank then x else y), t)
    | .error x, _ => (.fault x, t)
    | .ok _, .wait cs => (.wait cs, s)
    | .ok _, .error x => (.fault x, u)
    | .ok ps, .ok qs =>
      if s.gatedElsewhere (pairOfCore core) (spansOf qs) then (.wait [], s)
      else if u.badPieces ps then (.poison, u.notePieces ps)
      else
        let (bs, u) := ps.foldl (fun (r : Bytes × State) p =>
          let (b, u) := r.2.pieceBytes core p
          (r.1 ++ b, u)) ([], u)
        let old := BitVec.ofNat 64 (beNat bs)
        let st : List Item := match new old with
          | some w => [.store va 8 (w.setWidth 128) (gstore v true qs (wordBytes w))]
          | none => []
        (.retire (items old ++ st) false, u.touchPieces core ps)

/-- The lowest valid stack address of a level (R117). -/
def Arch.stackLimit (a : Arch) : Word := a.kr (8 + a.level)

/-- A call (R115): the return address is pushed, and control goes to the target. -/
def State.call (s : State) (core len : Nat) (a : Arch) (target : Word) : Did × State :=
  let at_ := a.gr 31 - 8#64
  if belowLimit at_ 8 a.stackLimit then (.fault ⟨0x0A, at_, 0⟩, s)
  else
    s.store core at_ 8 ((a.pc + BitVec.ofNat 64 (3 * len)).setWidth 128) fun i => jumpTo target [.g 31 at_, i] false

end Sys2Proof.Machine
end

