-- ==== Sys2Proof/Machine/CpuInt.lean ====
section
/-! DEFINITION. The integer instructions (R110, R112, R114, R145). -/

namespace Sys2Proof.Machine

/-- The sum of a word with C (ADDC), and its carry. -/
def addCarry (x y : Word) (c : Bool) : Word × Bool :=
  let n := x.toNat + y.toNat + b1 c
  (BitVec.ofNat 64 n, decide (2 ^ 64 ≤ n))

/-- The difference of two words less NOT C (SUBB), and its carry: 1 when no borrow occurs. -/
def subBorrow (x y : Word) (c : Bool) : Word × Bool :=
  (x - y - (if c then 0 else 1), decide (y.toNat + b1 (!c) ≤ x.toNat))

/-- The leading zeros of a word. -/
def clz (x : Word) : Nat := if x = 0 then 64 else 63 - x.toNat.log2

/-- The trailing zeros of a word. -/
def ctz (x : Word) : Nat := ((List.range 64).find? fun i => bitOf x i).getD 64

/-- The ones of a word. -/
def popc (x : Word) : Nat := ((List.range 64).filter fun i => bitOf x i).length

/-- The bytes of a word reversed. -/
def bswap (x : Word) : Word := BitVec.ofNat 64 (leNat (wordBytes x))

/-- The product of two words as its high and low halves (R145). -/
def product (sgn : Bool) (x y : Word) : Item :=
  let p : BitVec 128 := if sgn then BitVec.ofInt 128 (x.toInt * y.toInt) else BitVec.ofNat 128 (x.toNat * y.toNat)
  .product ((p >>> 64).setWidth 64) (p.setWidth 64)

/-- The magnitude of an operand (R150). -/
def magnitude (sgn : Bool) (x : Word) : Nat := if sgn then x.toInt.natAbs else x.toNat

/-- The quotient width of a division (R150). -/
def quotientWidth (sgn : Bool) (x y : Word) : Nat :=
  let a := BitVec.ofNat 64 (magnitude sgn x)
  let b := BitVec.ofNat 64 (magnitude sgn y)
  if a.toNat < b.toNat then 0 else clz b - clz a + 1

/-- Entry `i` of the reciprocal estimate table: 10 bits, the integer nearest to 2^20 / (1025 + 2i) (R149). -/
def reciprocal (i : Nat) : Nat := (2 ^ 21 + (1025 + 2 * i)) / (2 * (1025 + 2 * i))

/-- The index of a divisor: the 9 bits that follow the leading 1 of its magnitude (R149). -/
def reciprocalIndex (b : Nat) : Nat := b * 2 ^ (63 - b.log2) / 2 ^ 54 % 512

/-- The iterations of an integer division (R151): none for a zero divisor. -/
def divIterations (ct sgn : Bool) (x y : Word) : Nat :=
  let k := quotientWidth sgn x y
  if y = 0 then 0 else if ct then 3 else if k ≤ 8 then 0 else if k ≤ 17 then 1 else if k ≤ 35 then 2 else 3

/-- The latency of an integer division (R151, R152). -/
def divCycles (ct sgn : Bool) (x y : Word) : Nat :=
  if ct then 26
  else
    match divIterations ct sgn x y with
    | 0 => 12 | 1 => 16 | 2 => 20 | _ => 26

/-- How the divide unit works on an integer division (R149 to R152). Its results are those of R114 alone. -/
def divPlan (ct sgn : Bool) (x y : Word) : DivPlan :=
  { estimate := if y = 0 then 0 else reciprocal (reciprocalIndex (magnitude sgn y))
    iterations := divIterations ct sgn x y
    cycles := divCycles ct sgn x y }

/-- The remainder (for PH) and the quotient (for PL) of a division (R114). -/
def quotient (sgn : Bool) (x y : Word) : Word × Word :=
  if y = 0 then (x, BitVec.allOnes 64)
  else if sgn then (BitVec.ofInt 64 (x.toInt.tmod y.toInt), BitVec.ofInt 64 (x.toInt.tdiv y.toInt))
  else (BitVec.ofNat 64 (x.toNat % y.toNat), BitVec.ofNat 64 (x.toNat / y.toNat))

/-- A division: with a zero divisor and PS.DZE it raises DIV_ZERO after it has written both registers (R114). -/
def divide (sgn : Bool) (x : Arch) (a b : Reg) : Did :=
  let r := quotient sgn (x.gr a) (x.gr b)
  let items := [Item.quotient r.1 r.2 (divPlan (bitOf x.ps 10) sgn (x.gr a) (x.gr b))]
  if x.gr b = 0 ∧ bitOf x.ps 11 then .trap items ⟨0x0F, 0, 0⟩ else .retire items false

/-- ADD (R110). -/
def execAdd (core : CoreId) (d a b : Reg) (s : State) : Host.Outcome State Fault Refusal :=
  .next (s.compute core 1 fun x => [.g d (x.gr a + x.gr b)])

/-- SUB (R110). -/
def execSub (core : CoreId) (d a b : Reg) (s : State) : Host.Outcome State Fault Refusal :=
  .next (s.compute core 1 fun x => [.g d (x.gr a - x.gr b)])

/-- AND (R110). -/
def execAnd (core : CoreId) (d a b : Reg) (s : State) : Host.Outcome State Fault Refusal :=
  .next (s.compute core 1 fun x => [.g d (x.gr a &&& x.gr b)])

/-- OR (R110). -/
def execOr (core : CoreId) (d a b : Reg) (s : State) : Host.Outcome State Fault Refusal :=
  .next (s.compute core 1 fun x => [.g d (x.gr a ||| x.gr b)])

/-- XOR (R110). -/
def execXor (core : CoreId) (d a b : Reg) (s : State) : Host.Outcome State Fault Refusal :=
  .next (s.compute core 1 fun x => [.g d (x.gr a ^^^ x.gr b)])

/-- ANDN (R110). -/
def execAndn (core : CoreId) (d a b : Reg) (s : State) : Host.Outcome State Fault Refusal :=
  .next (s.compute core 1 fun x => [.g d (x.gr a &&& ~~~(x.gr b))])

/-- ADDC (R110, R112). -/
def execAddc (core : CoreId) (d a b : Reg) (s : State) : Host.Outcome State Fault Refusal :=
  .next (s.compute core 1 fun x => let r := addCarry (x.gr a) (x.gr b) x.flagC
    [.g d r.1, .ps (x.withC r.2)])

/-- SUBB (R110, R112). -/
def execSubb (core : CoreId) (d a b : Reg) (s : State) : Host.Outcome State Fault Refusal :=
  .next (s.compute core 1 fun x => let r := subBorrow (x.gr a) (x.gr b) x.flagC
    [.g d r.1, .ps (x.withC r.2)])

/-- SLL (R110). -/
def execSll (core : CoreId) (d a b : Reg) (s : State) : Host.Outcome State Fault Refusal :=
  .next (s.compute core 1 fun x => [.g d (shift 0 (x.gr a) (bits (x.gr b) 5 0))])

/-- SRL (R110). -/
def execSrl (core : CoreId) (d a b : Reg) (s : State) : Host.Outcome State Fault Refusal :=
  .next (s.compute core 1 fun x => [.g d (shift 1 (x.gr a) (bits (x.gr b) 5 0))])

/-- SRA (R110). -/
def execSra (core : CoreId) (d a b : Reg) (s : State) : Host.Outcome State Fault Refusal :=
  .next (s.compute core 1 fun x => [.g d (shift 2 (x.gr a) (bits (x.gr b) 5 0))])

/-- ROR (R110). -/
def execRor (core : CoreId) (d a b : Reg) (s : State) : Host.Outcome State Fault Refusal :=
  .next (s.compute core 1 fun x => [.g d (shift 3 (x.gr a) (bits (x.gr b) 5 0))])

/-- SLT (R110). -/
def execSlt (core : CoreId) (d a b : Reg) (s : State) : Host.Outcome State Fault Refusal :=
  .next (s.compute core 1 fun x => [.g d (ofBool ((x.gr a).slt (x.gr b)))])

/-- SLTU (R110). -/
def execSltu (core : CoreId) (d a b : Reg) (s : State) : Host.Outcome State Fault Refusal :=
  .next (s.compute core 1 fun x => [.g d (ofBool ((x.gr a).ult (x.gr b)))])

/-- CMP (R112). -/
def execCmp (core : CoreId) (a b : Reg) (s : State) : Host.Outcome State Fault Refusal :=
  .next (s.compute core 1 fun x => [.ps (x.cmpFlags (x.gr a) (x.gr b))])

/-- TST (R112). -/
def execTst (core : CoreId) (a b : Reg) (s : State) : Host.Outcome State Fault Refusal :=
  .next (s.compute core 1 fun x => [.ps (x.tstFlags (x.gr a) (x.gr b))])

/-- SHI (R110). -/
def execShi (core : CoreId) (d a : Reg) (fn : BitVec 2) (amount : BitVec 6) (s : State) :
    Host.Outcome State Fault Refusal :=
  .next (s.compute core 1 fun x => [.g d (shift fn.toNat (x.gr a) amount.toNat)])

/-- ADDI8 (R110). -/
def execAddi8 (core : CoreId) (d a : Reg) (imm : BitVec 8) (s : State) : Host.Outcome State Fault Refusal :=
  .next (s.compute core 1 fun x => [.g d (x.gr a + sx imm)])

/-- CMPI8 (R112). -/
def execCmpi8 (core : CoreId) (a : Reg) (imm : BitVec 8) (s : State) : Host.Outcome State Fault Refusal :=
  .next (s.compute core 1 fun x => [.ps (x.cmpFlags (x.gr a) (sx imm))])

/-- MUL (R145, R127). -/
def execMul (core : CoreId) (a b : Reg) (s : State) : Host.Outcome State Fault Refusal :=
  .next (s.compute core 1 fun x => [product true (x.gr a) (x.gr b)])

/-- MULU (R145, R127). -/
def execMulu (core : CoreId) (a b : Reg) (s : State) : Host.Outcome State Fault Refusal :=
  .next (s.compute core 1 fun x => [product false (x.gr a) (x.gr b)])

/-- DIV (R114). -/
def execDiv (core : CoreId) (a b : Reg) (s : State) : Host.Outcome State Fault Refusal :=
  .next (s.instr core 1 fun x t => (divide true x a b, t))

/-- DIVU (R114). -/
def execDivu (core : CoreId) (a b : Reg) (s : State) : Host.Outcome State Fault Refusal :=
  .next (s.instr core 1 fun x t => (divide false x a b, t))

/-- DIVIDE_COMPLETE (R151). -/
def execDivideComplete (core : CoreId) (s : State) : Host.Outcome State Fault Refusal :=
  .next (s.modCore core Core.finish)

/-- MFPH (R127, R128). -/
def execMfph (core : CoreId) (d : Reg) (s : State) : Host.Outcome State Fault Refusal :=
  .next (s.instr core 1 fun _ t => (.retire [.finish, .g d (t.core core).finish.arch.ph] false, t))

/-- MFPL (R127, R128). -/
def execMfpl (core : CoreId) (d : Reg) (s : State) : Host.Outcome State Fault Refusal :=
  .next (s.instr core 1 fun _ t => (.retire [.finish, .g d (t.core core).finish.arch.pl] false, t))

/-- MTPH (R110, R127). -/
def execMtph (core : CoreId) (a : Reg) (s : State) : Host.Outcome State Fault Refusal :=
  .next (s.compute core 1 fun x => [.ph (x.gr a)])

/-- MTPL (R110, R127). -/
def execMtpl (core : CoreId) (a : Reg) (s : State) : Host.Outcome State Fault Refusal :=
  .next (s.compute core 1 fun x => [.pl (x.gr a)])

/-- CLZ (R110). -/
def execClz (core : CoreId) (d a : Reg) (s : State) : Host.Outcome State Fault Refusal :=
  .next (s.compute core 1 fun x => [.g d (BitVec.ofNat 64 (clz (x.gr a)))])

/-- CTZ (R110). -/
def execCtz (core : CoreId) (d a : Reg) (s : State) : Host.Outcome State Fault Refusal :=
  .next (s.compute core 1 fun x => [.g d (BitVec.ofNat 64 (ctz (x.gr a)))])

/-- POPC (R110). -/
def execPopc (core : CoreId) (d a : Reg) (s : State) : Host.Outcome State Fault Refusal :=
  .next (s.compute core 1 fun x => [.g d (BitVec.ofNat 64 (popc (x.gr a)))])

/-- BSWAP (R110). -/
def execBswap (core : CoreId) (d a : Reg) (s : State) : Host.Outcome State Fault Refusal :=
  .next (s.compute core 1 fun x => [.g d (bswap (x.gr a))])

/-- SEXTB (R110). -/
def execSextb (core : CoreId) (d a : Reg) (s : State) : Host.Outcome State Fault Refusal :=
  .next (s.compute core 1 fun x => [.g d (((x.gr a).setWidth 8).signExtend 64)])

/-- SEXTH (R110). -/
def execSexth (core : CoreId) (d a : Reg) (s : State) : Host.Outcome State Fault Refusal :=
  .next (s.compute core 1 fun x => [.g d (((x.gr a).setWidth 16).signExtend 64)])

/-- SEXTW (R110). -/
def execSextw (core : CoreId) (d a : Reg) (s : State) : Host.Outcome State Fault Refusal :=
  .next (s.compute core 1 fun x => [.g d (((x.gr a).setWidth 32).signExtend 64)])

/-- ZEXTW (R110). -/
def execZextw (core : CoreId) (d a : Reg) (s : State) : Host.Outcome State Fault Refusal :=
  .next (s.compute core 1 fun x => [.g d (((x.gr a).setWidth 32).setWidth 64)])

/-- SETCC (R110, R111). -/
def execSetcc (core : CoreId) (d : Reg) (cond : BitVec 5) (s : State) : Host.Outcome State Fault Refusal :=
  .next (s.instr core 1 fun x t =>
    match x.cond cond.toNat with
    | some h => (.retire [.g d (ofBool h)] false, t)
    | none => (illegal, t))

/-- ADDI (R110). -/
def execAddi (core : CoreId) (d a : Reg) (imm : BitVec 24) (s : State) : Host.Outcome State Fault Refusal :=
  .next (s.compute core 2 fun x => [.g d (x.gr a + sx imm)])

/-- ANDI (R110). -/
def execAndi (core : CoreId) (d a : Reg) (imm : BitVec 24) (s : State) : Host.Outcome State Fault Refusal :=
  .next (s.compute core 2 fun x => [.g d (x.gr a &&& imm.setWidth 64)])

/-- ORI (R110). -/
def execOri (core : CoreId) (d a : Reg) (imm : BitVec 24) (s : State) : Host.Outcome State Fault Refusal :=
  .next (s.compute core 2 fun x => [.g d (x.gr a ||| imm.setWidth 64)])

/-- XORI (R110). -/
def execXori (core : CoreId) (d a : Reg) (imm : BitVec 24) (s : State) : Host.Outcome State Fault Refusal :=
  .next (s.compute core 2 fun x => [.g d (x.gr a ^^^ imm.setWidth 64)])

/-- CMPI (R112). -/
def execCmpi (core : CoreId) (a : Reg) (imm : BitVec 24) (s : State) : Host.Outcome State Fault Refusal :=
  .next (s.compute core 2 fun x => [.ps (x.cmpFlags (x.gr a) (sx imm))])

/-- INSH (R110). -/
def execInsh (core : CoreId) (d a : Reg) (imm : BitVec 16) (s : State) : Host.Outcome State Fault Refusal :=
  .next (s.compute core 2 fun x => [.g d ((x.gr a &&& 0x0000FFFFFFFFFFFF#64) ||| imm.setWidth 64 <<< 48)])

/-- ADDPC (R110). -/
def execAddpc (core : CoreId) (d : Reg) (imm : BitVec 24) (s : State) : Host.Outcome State Fault Refusal :=
  .next (s.compute core 2 fun x => [.g d (x.branch (sx imm))])

/-- MOVI (R110). -/
def execMovi (core : CoreId) (d : Reg) (imm : BitVec 48) (s : State) : Host.Outcome State Fault Refusal :=
  .next (s.compute core 3 fun _ => [.g d (sx imm)])

/-- ADDI48 (R110). -/
def execAddi48 (core : CoreId) (d a : Reg) (imm : BitVec 48) (s : State) :
    Host.Outcome State Fault Refusal :=
  .next (s.compute core 3 fun x => [.g d (x.gr a + sx imm)])

end Sys2Proof.Machine
end

