-- ==== Sys2Proof/Machine/CpuMem.lean ====
section
/-! DEFINITION. Loads, stores and atomics (R104, R105, R110). -/

namespace Sys2Proof.Machine

/-- A load into a general register: `size` bytes, sign-extended where `sgn`. -/
def State.loadG (s : State) (core : Nat) (d : Reg) (va : Word) (size : Nat) (sgn : Bool) : Did × State :=
  s.load core va size fun bs close =>
    let n := beNat bs
    .retire [.g d (if sgn then BitVec.ofInt 64 (toSigned (8 * size) n) else BitVec.ofNat 64 n)] close

/-- A load into a floating register (R84, R110). -/
def State.loadF (s : State) (core : Nat) (d : Reg) (va : Word) (size : Nat) : Did × State :=
  s.load core va size fun bs close => .retire [.f d (BitVec.ofNat 128 (beNat bs))] close

/-- A store of the low bytes of a value. -/
def State.storeV (s : State) (core : Nat) (va : Word) (size : Nat) (v : Quad) : Did × State :=
  s.store core va size (BitVec.ofNat 128 (v.toNat % 2 ^ (8 * size))) fun i => .retire [i] false

/-- The load of a minor (R110): its size and whether it is sign-extended; none for the reserved minor 7. -/
def loadForm (minor : Nat) : Option (Nat × Bool) :=
  match minor with
  | 0 => some (1, false) | 1 => some (2, false) | 2 => some (4, false) | 3 => some (8, false)
  | 4 => some (1, true) | 5 => some (2, true) | 6 => some (4, true) | _ => none

/-- LD and LDL: the load of a minor at an address. -/
def State.loadMinor (s : State) (core : Nat) (d : Reg) (minor : Nat) (va : Word) : Did × State :=
  match loadForm minor with
  | some (n, sgn) => s.loadG core d va n sgn
  | none => (illegal, s)

/-- The floating loads and stores of a minor (R110): 4, 8 or 16 bytes; none for the reserved minor 3. -/
def floatSize (minor : Nat) : Option Nat := if minor < 3 then some (4 * 2 ^ minor) else none

/-- A floating instruction is not implemented on the channel processors and Vixia (R81). -/
def needsFpu (core : Nat) (r : Did × State) (s : State) : Did × State :=
  if core < 104 then r else (illegal, s)

/-- LDB (R110). -/
def execLdb (core : CoreId) (d a b : Reg) (s : State) : Host.Outcome State Fault Refusal :=
  .next (s.instr core 1 fun x t => t.loadG core d (x.gr a + x.gr b) 1 false)

/-- LDH (R110). -/
def execLdh (core : CoreId) (d a b : Reg) (s : State) : Host.Outcome State Fault Refusal :=
  .next (s.instr core 1 fun x t => t.loadG core d (x.gr a + x.gr b) 2 false)

/-- LDW (R110). -/
def execLdw (core : CoreId) (d a b : Reg) (s : State) : Host.Outcome State Fault Refusal :=
  .next (s.instr core 1 fun x t => t.loadG core d (x.gr a + x.gr b) 4 false)

/-- LDD (R110). -/
def execLdd (core : CoreId) (d a b : Reg) (s : State) : Host.Outcome State Fault Refusal :=
  .next (s.instr core 1 fun x t => t.loadG core d (x.gr a + x.gr b) 8 false)

/-- LDBS (R110). -/
def execLdbs (core : CoreId) (d a b : Reg) (s : State) : Host.Outcome State Fault Refusal :=
  .next (s.instr core 1 fun x t => t.loadG core d (x.gr a + x.gr b) 1 true)

/-- LDHS (R110). -/
def execLdhs (core : CoreId) (d a b : Reg) (s : State) : Host.Outcome State Fault Refusal :=
  .next (s.instr core 1 fun x t => t.loadG core d (x.gr a + x.gr b) 2 true)

/-- LDWS (R110). -/
def execLdws (core : CoreId) (d a b : Reg) (s : State) : Host.Outcome State Fault Refusal :=
  .next (s.instr core 1 fun x t => t.loadG core d (x.gr a + x.gr b) 4 true)

/-- STB (R110). -/
def execStb (core : CoreId) (d a b : Reg) (s : State) : Host.Outcome State Fault Refusal :=
  .next (s.instr core 1 fun x t => t.storeV core (x.gr a + x.gr b) 1 ((x.gr d).setWidth 128))

/-- STH (R110). -/
def execSth (core : CoreId) (d a b : Reg) (s : State) : Host.Outcome State Fault Refusal :=
  .next (s.instr core 1 fun x t => t.storeV core (x.gr a + x.gr b) 2 ((x.gr d).setWidth 128))

/-- STW (R110). -/
def execStw (core : CoreId) (d a b : Reg) (s : State) : Host.Outcome State Fault Refusal :=
  .next (s.instr core 1 fun x t => t.storeV core (x.gr a + x.gr b) 4 ((x.gr d).setWidth 128))

/-- STD (R110). -/
def execStd (core : CoreId) (d a b : Reg) (s : State) : Host.Outcome State Fault Refusal :=
  .next (s.instr core 1 fun x t => t.storeV core (x.gr a + x.gr b) 8 ((x.gr d).setWidth 128))

/-- LDD8 (R110). -/
def execLdd8 (core : CoreId) (d a : Reg) (imm : BitVec 8) (s : State) : Host.Outcome State Fault Refusal :=
  .next (s.instr core 1 fun x t => t.loadG core d (x.gr a + 8#64 * sx imm) 8 false)

/-- STD8 (R110). -/
def execStd8 (core : CoreId) (d a : Reg) (imm : BitVec 8) (s : State) : Host.Outcome State Fault Refusal :=
  .next (s.instr core 1 fun x t => t.storeV core (x.gr a + 8#64 * sx imm) 8 ((x.gr d).setWidth 128))

/-- SWAP (R105, R110). -/
def execSwap (core : CoreId) (d a b : Reg) (s : State) : Host.Outcome State Fault Refusal :=
  .next (s.instr core 1 fun x t =>
    t.atomic core (x.gr a) (fun _ => some (x.gr b)) fun old => [.g d old])

/-- FADD_ATOMIC (R105, R110). -/
def execFaddAtomic (core : CoreId) (d a b : Reg) (s : State) : Host.Outcome State Fault Refusal :=
  .next (s.instr core 1 fun x t =>
    t.atomic core (x.gr a) (fun old => some (old + x.gr b)) fun old => [.g d old])

/-- FAND (R105, R110). -/
def execFand (core : CoreId) (d a b : Reg) (s : State) : Host.Outcome State Fault Refusal :=
  .next (s.instr core 1 fun x t =>
    t.atomic core (x.gr a) (fun old => some (old &&& x.gr b)) fun old => [.g d old])

/-- FOR (R105, R110). -/
def execFor (core : CoreId) (d a b : Reg) (s : State) : Host.Outcome State Fault Refusal :=
  .next (s.instr core 1 fun x t =>
    t.atomic core (x.gr a) (fun old => some (old ||| x.gr b)) fun old => [.g d old])

/-- FXOR (R105, R110). -/
def execFxor (core : CoreId) (d a b : Reg) (s : State) : Host.Outcome State Fault Refusal :=
  .next (s.instr core 1 fun x t =>
    t.atomic core (x.gr a) (fun old => some (old ^^^ x.gr b)) fun old => [.g d old])

/-- CAS (R105, R110). -/
def execCas (core : CoreId) (d a b : Reg) (s : State) : Host.Outcome State Fault Refusal :=
  .next (s.instr core 1 fun x t =>
    t.atomic core (x.gr a) (fun old => if old = x.gr d then some (x.gr b) else none) fun old =>
      [.g d old, .ps (x.withZ (old == x.gr d))])

/-- LD (R110). -/
def execLd (core : CoreId) (d a : Reg) (minor : BitVec 3) (imm : BitVec 24) (s : State) :
    Host.Outcome State Fault Refusal :=
  .next (s.instr core 2 fun x t => t.loadMinor core d minor.toNat (x.gr a + sx imm))

/-- LDL (R110). -/
def execLdl (core : CoreId) (d a : Reg) (minor : BitVec 3) (imm : BitVec 48) (s : State) :
    Host.Outcome State Fault Refusal :=
  .next (s.instr core 3 fun x t => t.loadMinor core d minor.toNat (x.gr a + sx imm))

/-- ST (R110). -/
def execSt (core : CoreId) (d a : Reg) (minor : BitVec 2) (imm : BitVec 24) (s : State) :
    Host.Outcome State Fault Refusal :=
  .next (s.instr core 2 fun x t =>
    t.storeV core (x.gr a + sx imm) (2 ^ minor.toNat) ((x.gr d).setWidth 128))

/-- STL (R110). -/
def execStl (core : CoreId) (d a : Reg) (minor : BitVec 2) (imm : BitVec 48) (s : State) :
    Host.Outcome State Fault Refusal :=
  .next (s.instr core 3 fun x t =>
    t.storeV core (x.gr a + sx imm) (2 ^ minor.toNat) ((x.gr d).setWidth 128))

/-- FLDS (R84, R110). -/
def execFlds (core : CoreId) (d a b : Reg) (s : State) : Host.Outcome State Fault Refusal :=
  .next (s.instr core 1 fun x t => needsFpu core (t.loadF core d (x.gr a + x.gr b) 4) t)

/-- FLDD (R84, R110). -/
def execFldd (core : CoreId) (d a b : Reg) (s : State) : Host.Outcome State Fault Refusal :=
  .next (s.instr core 1 fun x t => needsFpu core (t.loadF core d (x.gr a + x.gr b) 8) t)

/-- FLDQ (R84, R110). -/
def execFldq (core : CoreId) (d a b : Reg) (s : State) : Host.Outcome State Fault Refusal :=
  .next (s.instr core 1 fun x t => needsFpu core (t.loadF core d (x.gr a + x.gr b) 16) t)

/-- FSTS (R84, R110). -/
def execFsts (core : CoreId) (d a b : Reg) (s : State) : Host.Outcome State Fault Refusal :=
  .next (s.instr core 1 fun x t => needsFpu core (t.storeV core (x.gr a + x.gr b) 4 (x.fr d)) t)

/-- FSTD (R84, R110). -/
def execFstd (core : CoreId) (d a b : Reg) (s : State) : Host.Outcome State Fault Refusal :=
  .next (s.instr core 1 fun x t => needsFpu core (t.storeV core (x.gr a + x.gr b) 8 (x.fr d)) t)

/-- FSTQ (R84, R110). -/
def execFstq (core : CoreId) (d a b : Reg) (s : State) : Host.Outcome State Fault Refusal :=
  .next (s.instr core 1 fun x t => needsFpu core (t.storeV core (x.gr a + x.gr b) 16 (x.fr d)) t)

/-- FLD (R84, R110). -/
def execFld (core : CoreId) (d a : Reg) (minor : BitVec 2) (imm : BitVec 24) (s : State) :
    Host.Outcome State Fault Refusal :=
  .next (s.instr core 2 fun x t =>
    match floatSize minor.toNat with
    | some n => needsFpu core (t.loadF core d (x.gr a + sx imm) n) t
    | none => (illegal, t))

/-- FST (R84, R110). -/
def execFst (core : CoreId) (d a : Reg) (minor : BitVec 2) (imm : BitVec 24) (s : State) :
    Host.Outcome State Fault Refusal :=
  .next (s.instr core 2 fun x t =>
    match floatSize minor.toNat with
    | some n => needsFpu core (t.storeV core (x.gr a + sx imm) n (x.fr d)) t
    | none => (illegal, t))

end Sys2Proof.Machine
end

