-- ==== Sys2Proof/Machine/CpuCtl.lean ====
section
/-! DEFINITION. Branches, calls, events, waits, exceptions and the system instructions (R87, R92, R101, R115 to
R122, R132, R137). -/

namespace Sys2Proof.Machine

/-- A conditional branch (R110, R111): ILLEGAL for a reserved condition. -/
def branchIf (x : Arch) (c : Option Bool) (off : Word) : Did :=
  match c with
  | none => illegal
  | some true => jumpTo (x.branch off) [] false
  | some false => .retire [] false

/-- The tests of BRZ (R110). -/
def zeroTest (test : Nat) (v : Word) : Option Bool :=
  match test with
  | 0 => some (v == 0)
  | 1 => some (v != 0)
  | 2 => some v.msb
  | 3 => some (!v.msb)
  | _ => none

/-- The bits of PS that MTPS writes at a level (R87). -/
def psMask (level : Nat) : Word := if level = 0 then 0x1F0CF0#64 else 0x1F0DF0#64

/-- The control registers that exist, with the lowest level that may name each (R91). -/
def kLevel (n : Nat) : Option Nat :=
  if [0, 1, 2, 8, 9, 12, 16, 17, 19, 20, 21, 24, 25, 28].contains n then some 1
  else if [4, 5, 6, 10, 13, 18, 22, 26, 27].contains n then some 2
  else if n = 29 then some 0
  else none

/-- The bits of a control register that a write stores (R91, R138). -/
def kMask (n : Nat) : Word :=
  match n with
  | 0 => 0x000000FF1F3F1FFF#64
  | 4 => 0x000000FF1F3F1FFF#64
  | 16 => 0x000FFFFFFFFFF001#64
  | 17 => 0xFFFF#64
  | 18 => 0x000FFFFFFFFFF000#64
  | _ => 0xFFFFFFFFFFFFFFFF#64

/-- PROCID of a core (R91, R230). -/
def State.procId (s : State) (core : Nat) : Word :=
  let n := ((s.proc core).map ProcShare.num).getD 0
  pack [(0, n), (7, b1 (s.isSplit (pairOfCore core))), (8, s.partOfCore core), (32, s.cellOfCore core)]

/-- A control register as it reads (R91, R94). -/
def State.kRead (s : State) (core n : Nat) : Word :=
  if n = 19 then BitVec.ofNat 64 (s.partOfCore core)
  else if n = 20 then s.ipend core
  else if n = 29 then s.procId core
  else (s.core core).arch.kr n

/-- The value that a write to a control register stores (R91, R95). -/
def kStored (n : Nat) (v : Word) : Word :=
  if n = 28 then BitVec.ofNat 64 (v.toNat / 10 * 10) else v &&& kMask n

/-- MTK (R92, R93). -/
def moveToK (x : Arch) (n : Nat) (v : Word) : Did :=
  match kLevel n with
  | none => illegal
  | some l =>
    if (n = 2 ∨ n = 6) ∧ v.toNat % 3 ≠ 0 then illegal
    else if x.level = 0 ∨ x.level < l then privileged
    else if n = 19 ∨ n = 20 ∨ n = 29 then illegal
    else .retire [.k n (kStored n v)] false

/-- The bits of PS that ERET restores (R87, R137): LEVEL and what software may set. -/
def psRestored : Word := 0x1F0DF3#64

/-- ERET (R137, R130): ILLEGAL and PRIVILEGED come before what its second load raises, and CTRL_SPACE of that load before a
failed translation of the first (R134). The new value of PS that it folds has MSH (R187). -/
def State.eret (s : State) (core : Nat) (x : Arch) : Did × State :=
  if x.level = 0 then (privileged, s)
  else
    let at_ := x.gr 31
    let (r, t) := s.load core at_ 8 fun bs close => .retire [.ps (BitVec.ofNat 64 (beNat bs))] close
    match r with
    | .retire [.ps ps] close =>
      let level := bits ps 1 0
      if level = 3 then (.fault ⟨5, 0, 0⟩ close, t)
      else if x.level < level then (.fault ⟨6, 0, 0⟩ close, t)
      else
        t.load core (at_ + 8) 8 fun bs close2 =>
          let pc := BitVec.ofNat 64 (beNat bs)
          let msh := bits ps 13 12
          let hi := x.kr (if x.level = 2 then 26 else 24)
          let lo := x.kr (if x.level = 2 then 27 else 25)
          let land : List Item := if msh = 0 then [] else [.landing msh hi lo]
          jumpTo pc ([.sp x.level (at_ + 16), .ps ((ps &&& (psRestored ||| 0x3000)) ||| (x.ps &&& 0x200#64))] ++ land)
            (close || close2 || decide (level ≠ x.level))
    | .fault e closing =>
      if [0x04, 0x0D, 0x0E].contains e.vector then
        match (t.access (t.viewer core x.level) (at_ + 8) 8 .read).1 with
        | .error e2 => (.fault (if e2.vector = 0x0C then e2 else e) closing, t)
        | _ => (.fault e closing, t)
      else (.fault e closing, t)
    | other => (other, t)

/-- WFE (R119) and WAITC (R122): continue at once where the wait is already over. -/
def waitOr (excess : Option (List Item)) (w : Wait) : Did :=
  match excess with
  | some items => .retire items true
  | none => .park w

/-- JMPR (R115, R118). -/
def execJmpr (core : CoreId) (a : Reg) (s : State) : Host.Outcome State Fault Refusal :=
  .next (s.instr core 1 fun x t => (jumpTo (x.gr a) [] false, t))

/-- CALLR (R115, R117, R118). -/
def execCallr (core : CoreId) (a : Reg) (s : State) : Host.Outcome State Fault Refusal :=
  .next (s.instr core 1 fun x t => t.call core 1 x (x.gr a))

/-- RET (R116, R118). -/
def execRet (core : CoreId) (s : State) : Host.Outcome State Fault Refusal :=
  .next (s.instr core 1 fun x t =>
    t.load core (x.gr 31) 8 fun bs close =>
      jumpTo (BitVec.ofNat 64 (beNat bs)) [.g 31 (x.gr 31 + 8)] close)

/-- CALL (R115, R117). -/
def execCall (core : CoreId) (off : BitVec 24) (s : State) : Host.Outcome State Fault Refusal :=
  .next (s.instr core 2 fun x t => t.call core 2 x (x.branch (sx off)))

/-- CALLL (R115, R117). -/
def execCalll (core : CoreId) (off : BitVec 48) (s : State) : Host.Outcome State Fault Refusal :=
  .next (s.instr core 3 fun x t => t.call core 3 x (x.branch (sx off)))

/-- BR8 (R110). -/
def execBr8 (core : CoreId) (cond : BitVec 5) (off : BitVec 8) (s : State) :
    Host.Outcome State Fault Refusal :=
  .next (s.instr core 1 fun x t => (branchIf x (x.cond cond.toNat) (sx off), t))

/-- BR (R110). -/
def execBr (core : CoreId) (cond : BitVec 5) (off : BitVec 24) (s : State) :
    Host.Outcome State Fault Refusal :=
  .next (s.instr core 2 fun x t => (branchIf x (x.cond cond.toNat) (sx off), t))

/-- BRL (R110). -/
def execBrl (core : CoreId) (cond : BitVec 5) (off : BitVec 48) (s : State) :
    Host.Outcome State Fault Refusal :=
  .next (s.instr core 3 fun x t => (branchIf x (x.cond cond.toNat) (sx off), t))

/-- BRZ (R110). -/
def execBrz (core : CoreId) (test : BitVec 5) (a : Reg) (off : BitVec 8) (s : State) :
    Host.Outcome State Fault Refusal :=
  .next (s.instr core 1 fun x t => (branchIf x (zeroTest test.toNat (x.gr a)) (sx off), t))

/-- SEVT (R121, R141). -/
def execSevt (core : CoreId) (a b : Reg) (s : State) : Host.Outcome State Fault Refusal :=
  .next (s.instr core 1 fun x t =>
    (.retire [.event (.sevt (t.partOfCore core) (x.gr a) (x.gr b)) (x.gr a) (x.gr b)] false, t))

/-- SEV (R120, R141). -/
def execSev (core : CoreId) (s : State) : Host.Outcome State Fault Refusal :=
  .next (s.instr core 1 fun _ t => (.retire [.event (.sev (t.partOfCore core) core) 0 0] false, t))

/-- WFE (R119). -/
def execWfe (core : CoreId) (s : State) : Host.Outcome State Fault Refusal :=
  .next (s.instr core 1 fun x t =>
    (waitOr (if x.ev then some [.ps (x.psRead &&& ~~~0x200#64)] else none) (.wfe t.now), t))

/-- WAITC (R122). -/
def execWaitc (core : CoreId) (d a : Reg) (s : State) : Host.Outcome State Fault Refusal :=
  .next (s.instr core 1 fun x t =>
    let reached := decide ((x.gr a).toNat ≤ t.clock.tb.toNat)
    let code : Nat := b1 reached + 2 * b1 x.ev
    let clear : List Item := if x.ev then [.ps (x.psRead &&& ~~~0x200#64)] else []
    (waitOr (if code = 0 then none else some (.g d (BitVec.ofNat 64 code) :: clear)) (.waitc d (x.gr a) t.now), t))

/-- WAITC_TIME_REACHED (R122, R126). -/
def execWaitcTimeReached (core : CoreId) (s : State) : Host.Outcome State Fault Refusal :=
  .next (match (s.core core).wait with
    | .waitc _ ga _ => if ga.toNat ≤ s.clock.tb.toNat then s.tryEndWait core else s
    | _ => s)

/-- ERET (R137). -/
def execEret (core : CoreId) (s : State) : Host.Outcome State Fault Refusal :=
  .next (s.instr core 1 fun x t => t.eret core x)

/-- SYSCALL (R131). -/
def execSyscall (core : CoreId) (s : State) : Host.Outcome State Fault Refusal :=
  .next (s.instr core 1 fun x t => (if x.level = 2 then illegal else .trap [] ⟨0x07, 0, 0⟩, t))

/-- HOSTCALL (R131). -/
def execHostcall (core : CoreId) (s : State) : Host.Outcome State Fault Refusal :=
  .next (s.instr core 1 fun _ t => (.trap [] ⟨0x08, 0, 0⟩, t))

/-- BREAK (R131). -/
def execBreak (core : CoreId) (s : State) : Host.Outcome State Fault Refusal :=
  .next (s.instr core 1 fun _ t => (.trap [] ⟨0x09, 0, 0⟩, t))

/-- RDTB (R90, R20). -/
def execRdtb (core : CoreId) (d : Reg) (s : State) : Host.Outcome State Fault Refusal :=
  .next (s.instr core 1 fun _ t => (.retire [.g d t.clock.tb] false, t))

/-- MFPS (R86, R110). -/
def execMfps (core : CoreId) (d : Reg) (s : State) : Host.Outcome State Fault Refusal :=
  .next (s.compute core 1 fun x => [.g d x.psRead])

/-- MTPS (R87). -/
def execMtps (core : CoreId) (a : Reg) (s : State) : Host.Outcome State Fault Refusal :=
  .next (s.compute core 1 fun x => [.ps ((x.psRead &&& ~~~(psMask x.level)) ||| (x.gr a &&& psMask x.level))])

/-- FENCE and FENCE.I wait until the accesses before them are visible: a checked pair's earlier stores have left its
gated-store buffer (R102, R103, R196). The window that holds them closes at its 512th cycle at the latest (R188). -/
def State.fence (s : State) (core : CoreId) : State :=
  s.instr core 1 fun _ t => (if (t.pair (pairOfCore core)).gated.isEmpty then .retire [] false else .wait [], t)

/-- FENCE (R102). -/
def execFence (core : CoreId) (s : State) : Host.Outcome State Fault Refusal := .next (s.fence core)

/-- FENCE_I (R103): the instructions come from the commands, so that nothing else is left to do. -/
def execFenceI (core : CoreId) (s : State) : Host.Outcome State Fault Refusal := .next (s.fence core)

/-- MFK (R92). -/
def execMfk (core : CoreId) (d : Reg) (k : BitVec 6) (s : State) : Host.Outcome State Fault Refusal :=
  .next (s.instr core 1 fun x t =>
    match kLevel k.toNat with
    | none => (illegal, t)
    | some l => if x.level < l then (privileged, t) else (.retire [.g d (t.kRead core k.toNat)] false, t))

/-- MTK (R92, R93, R95). -/
def execMtk (core : CoreId) (a : Reg) (k : BitVec 6) (s : State) : Host.Outcome State Fault Refusal :=
  .next (s.instr core 1 fun x t => (moveToK x k.toNat (x.gr a), t))

/-- The kept translations that an instruction drops (R101, R110), where a TLB instruction names an address or ASID `x`
and a partition: TLBI the stage-1 entries of its partition for an address, TLBIASID those of an ASID that are not
GLOBAL, TLBIALL all of them, HTLBI the host-stage entries of a partition for an address, HTLBIP all of them. -/
def TlbEntry.droppedBy (op part : Nat) (x : Word) (e : TlbEntry) : Bool :=
  let covers := x.toNat / 2 ^ e.shift * 2 ^ e.shift == e.page
  e.part == part && (e.host == decide (3 ≤ op)) &&
    (match op with
     | 0 => covers
     | 1 => e.asid == bits x 15 0 && !e.entry.testBit 6
     | 3 => covers
     | _ => true)

/-- A TLB instruction of a level: it drops translations in every processor, and they are gone when it ends (R101). -/
def State.tlbInstr (s : State) (core : CoreId) (level op : Nat) (part : State → Arch → Nat) (x : Arch → Word) : State :=
  s.instr core 1 fun a t =>
    if a.level < level then (privileged, t)
    else (.retire [] false, t.dropTlb (TlbEntry.droppedBy op (part t a) (x a)))

/-- TLBI (R101). -/
def execTlbi (core : CoreId) (a : Reg) (s : State) : Host.Outcome State Fault Refusal :=
  .next (s.tlbInstr core 1 0 (fun t _ => t.partOfCore core) fun x => x.gr a)

/-- TLBIASID (R101). -/
def execTlbiasid (core : CoreId) (a : Reg) (s : State) : Host.Outcome State Fault Refusal :=
  .next (s.tlbInstr core 1 1 (fun t _ => t.partOfCore core) fun x => x.gr a)

/-- TLBIALL (R101). -/
def execTlbiall (core : CoreId) (s : State) : Host.Outcome State Fault Refusal :=
  .next (s.tlbInstr core 1 2 (fun t _ => t.partOfCore core) fun _ => 0)

/-- HTLBI (R101). -/
def execHtlbi (core : CoreId) (a b : Reg) (s : State) : Host.Outcome State Fault Refusal :=
  .next (s.tlbInstr core 2 3 (fun _ x => bits (x.gr b) 5 0) fun x => x.gr a)

/-- HTLBIP (R101). -/
def execHtlbip (core : CoreId) (b : Reg) (s : State) : Host.Outcome State Fault Refusal :=
  .next (s.tlbInstr core 2 4 (fun _ x => bits (x.gr b) 5 0) fun _ => 0)

/-- RESERVED_OPCODE (R108): an instruction that R110 reserves is fetched whole and raises ILLEGAL. Parcels that spell another
instruction are that instruction's command and nothing here. -/
def execReservedOpcode (core : CoreId) (p : Parcels) (s : State) : Host.Outcome State Fault Refusal :=
  .next (match spelled core p.p0 p.p1 p.p2 with
  | none => s.instr core (parcels (opOf p.p0)) fun _ t => (illegal, t)
  | some _ => s)

/-- The wake latency of a core pair in ns (R29). -/
def pairWakeNs : Nat := 1500

/-- The cell of a core sleeps, and with it the cell of a split pair once both of its cores do (R27). -/
def State.coreSleeps (s : State) (core : Nat) : State :=
  let c := s.cellOfCore core
  (s.setCst c .asleep).modCell c fun x => { x with waking := false }

/-- An interrupt is taken at a boundary (R139): it ends a wait (R123) and enters through vector 0x20. A wait that something
else has ended in an earlier tick ends with that (R122). The end of a wait and the entry each close a window, and neither
happens without the other (R119, R190): where the entry must wait, only the channels that it needs begin to wake. -/
def State.interrupt (s : State) (core : Nat) : State :=
  if s.executes core then
    match s.takeLine core with
    | none => s
    | some (line, T) =>
      let enter (s : State) : Bool × State := s.enter s core T 0 [] 0 ⟨0x20, 0, line * 2 ^ 16⟩ true
      if (s.core core).wait = .none then (if s.canClose core then (enter s).2 else s)
      else if s.endedBefore core then s.tryEndWait core
      else if !s.isSplit (pairOfCore core) ∧ !(s.pair (pairOfCore core)).closed.isEmpty then s
      else
        match enter (s.endWait core 4) with
        | (true, t) => if s.overPins t then s else t
        | (false, t) => { s with cells := t.cells }
  else s.noteLine core

/-- "From now" (R125) is taken as the moment at which the clock would stop: DESIGN CHOICE (log entry 105).

A wait has lasted IDLE_DELAY: the fast clock of a compute pair stops (R125), unless the time is too near, its
policy is MANUAL (R24, R27), a hold keeps it awake (R25), or its windows have not committed. -/
def State.clockStop (s : State) (core : Nat) : State :=
  let c := s.core core
  let p := pairOfCore core
  let cell := s.cell (s.cellOfCore core)
  let delay := (c.arch.kr 28).toNat
  let lasted (since : Nat) : Bool := decide (delay ≤ 10 * (s.now - since))
  let settled := s.isSplit p || ((s.pair p).closed.isEmpty && (s.pair p).opened.isEmpty)
  if core < 104 ∧ s.executes core ∧ settled ∧ !cell.manual ∧ s.holdsOf (s.cellOfCore core) = 0 then
    match c.wait with
    | .none => s
    | .wfe since =>
      if lasted since then
        (s.modCore core fun c => { c with clockOff := true, wakeAt := none }).coreSleeps core
      else s
    | .waitc _ ga since =>
      if lasted since ∧ s.clock.tb.toNat + delay + pairWakeNs ≤ ga.toNat then
        (s.modCore core fun c =>
          { c with clockOff := true, wakeAt := some (ga - BitVec.ofNat 64 pairWakeNs) }).coreSleeps core
      else s
  else s

/-- INTERRUPT_ENTRY (R139). -/
def execInterruptEntry (core : CoreId) (s : State) : Host.Outcome State Fault Refusal :=
  .next (s.interrupt core)

/-- CLOCK_STOP_IDLE (R125). -/
def execClockStopIdle (core : CoreId) (s : State) : Host.Outcome State Fault Refusal :=
  .next (s.clockStop core)

/-- WAITC_SCHEDULED_WAKE (R125). -/
def execWaitcScheduledWake (core : CoreId) (s : State) : Host.Outcome State Fault Refusal :=
  .next (match (s.core core).wakeAt with
    | some t =>
      if (s.core core).clockOff ∧ t.toNat ≤ s.clock.tb.toNat then
        s.modCell (s.cellOfCore core) fun c => { c with waking := true }
      else s
    | none => s)

end Sys2Proof.Machine
end

