-- ==== Sys2Proof/Machine/Float.lean ====
section
/-! DEFINITION. IEEE 754-2019 arithmetic in the three formats (R153 to R173): operands are taken apart into exact
integers, the result is computed exactly and rounded once. -/

namespace Sys2Proof.Machine

/-- A format: the widths of its exponent and fraction fields. -/
structure Fmt where
  ew : Nat
  mw : Nat
  deriving DecidableEq, Repr

def fmtOf : FFmt → Fmt
  | .s => ⟨8, 23⟩ | .d => ⟨11, 52⟩ | .q => ⟨15, 112⟩

def Fmt.width (f : Fmt) : Nat := 1 + f.ew + f.mw
/-- The exponent of the quantum of a subnormal. -/
def Fmt.qmin (f : Fmt) : Int := 2 - (2 ^ (f.ew - 1) : Int) - f.mw
/-- The encoding of +infinity, which also bounds the encodings of finite magnitudes. -/
def Fmt.inf (f : Fmt) : Nat := (2 ^ f.ew - 1) * 2 ^ f.mw
def Fmt.signBit (f : Fmt) : Nat := 2 ^ (f.ew + f.mw)
/-- The quiet bit of a NaN. -/
def Fmt.quiet (f : Fmt) : Nat := 2 ^ (f.mw - 1)
/-- The default NaN (R164). -/
def Fmt.defNan (f : Fmt) : Nat := f.inf + f.quiet

/-- A value: a NaN with its fraction, an infinity, or `(-1)^neg * m * 2^e`. -/
inductive FVal where
  | nan (neg : Bool) (frac : Nat)
  | inf (neg : Bool)
  | fin (neg : Bool) (m : Nat) (e : Int)
  deriving DecidableEq, Repr

/-- The value that the low bits of a register hold in a format (R84). -/
def unpack (f : Fmt) (x : Nat) : FVal :=
  let neg := x.testBit (f.ew + f.mw)
  let ex := x / 2 ^ f.mw % 2 ^ f.ew
  let fr := x % 2 ^ f.mw
  if ex = 2 ^ f.ew - 1 then (if fr = 0 then .inf neg else .nan neg fr)
  else if ex = 0 then .fin neg fr f.qmin
  else .fin neg (fr + 2 ^ f.mw) (f.qmin + (ex - 1 : Nat))

def FVal.isNan : FVal → Bool
  | .nan _ _ => true
  | _ => false

def FVal.isZero : FVal → Bool
  | .fin _ m _ => m == 0
  | _ => false

def FVal.neg : FVal → Bool
  | .nan n _ => n | .inf n => n | .fin n _ _ => n

def FVal.flip : FVal → FVal
  | .nan n f => .nan n f | .inf n => .inf !n | .fin n m e => .fin (!n) m e

/-- A signalling NaN. -/
def FVal.signals (f : Fmt) : FVal → Bool
  | .nan _ fr => !fr.testBit (f.mw - 1)
  | _ => false

/-- The flags that an instruction raises (R88 order), and whether its result is tiny (R156). -/
structure FFlags where
  nx : Bool := false
  uf : Bool := false
  of : Bool := false
  dz : Bool := false
  nv : Bool := false
  tiny : Bool := false
  deriving DecidableEq, Repr

def FFlags.bits (x : FFlags) : Nat := b1 x.nx + 2 * b1 x.uf + 4 * b1 x.of + 8 * b1 x.dz + 16 * b1 x.nv

/-- An instruction's result: an encoding and flags. -/
abbrev FRes := Nat × FFlags

def signed (f : Fmt) (neg : Bool) (x : Nat) : Nat := if neg then x + f.signBit else x

def noFlags : FFlags := {}
def invalid (f : Fmt) : FRes := (f.defNan, { nv := true })

/-- The bits of a number. -/
def bitLen (n : Nat) : Nat := if n = 0 then 0 else n.log2 + 1

/-- Round `n / 2^k` to an integer by a rounding mode (R154); the second result says that it is inexact. RM 5 to 7
cannot be written (R89); how a value that a state area brings rounds is open (log entry 51). -/
def roundShift (rm : Nat) (neg : Bool) (n k : Nat) : Nat × Bool :=
  let q := n / 2 ^ k
  let r := n % 2 ^ k
  if r = 0 then (q, false)
  else
    let up := match rm with
      | 1 => false
      | 2 => neg
      | 3 => !neg
      | 4 => decide (2 ^ k ≤ 2 * r)
      | 0 => decide (2 ^ k < 2 * r ∨ (2 ^ k = 2 * r ∧ q % 2 = 1))
      | _ => Config.reservedRound rm neg n k
    (if up then q + 1 else q, true)

/-- Round `m * 2^e` to a multiple of `2^q`. -/
def roundAt (rm : Nat) (neg : Bool) (m : Nat) (e q : Int) : Nat × Bool :=
  if q ≤ e then (m <<< (e - q).toNat, false) else roundShift rm neg m (q - e).toNat

/-- Deliver `m * 2^e`, `m` not 0, in a format: rounded once, tininess detected after rounding (R155), overflow, and
flush to zero where the instruction is subject to it (R159). -/
def deliver (f : Fmt) (rm : Nat) (fz : Bool) (neg : Bool) (m : Nat) (e : Int) : FRes :=
  let qu : Int := e + (bitLen m : Int) - 1 - f.mw
  let q := max qu f.qmin
  let (n, nx) := roundAt rm neg m e q
  let (nu, _) := roundAt rm neg m e qu
  -- tiny: below the smallest normal, 2^mw quanta of a subnormal
  let tiny := decide (qu < f.qmin) && decide ((nu : Int) < 2 ^ (f.mw + (f.qmin - qu).toNat))
  let enc := n + (q - f.qmin).toNat * 2 ^ f.mw
  if f.inf ≤ enc then
    let toInf := match rm with
      | 1 => false
      | 2 => neg
      | 3 => !neg
      | 0 => true
      | 4 => true
      | _ => Config.reservedRound rm neg m 0
    (signed f neg (if toInf then f.inf else f.inf - 1), { of := true, nx := true })
  else if fz ∧ 0 < n ∧ enc < 2 ^ f.mw then (signed f neg 0, { uf := true, nx := true, tiny := true })
  else (signed f neg enc, { nx := nx, uf := tiny && nx, tiny := tiny })

/-- The NaN that an operation propagates: the first in operand order, quieted (R163, R165). -/
def propagate (f : Fmt) (ops : List FVal) : Option FRes :=
  (ops.findSome? fun v => match v with
    | .nan n fr => some (signed f n (f.inf + (if fr.testBit (f.mw - 1) then fr else fr + f.quiet)))
    | _ => none).map fun x => (x, { nv := ops.any (FVal.signals f) })

/-- A signed exact number `m * 2^e`. -/
def exactOf (neg : Bool) (m : Nat) : Int := if neg then -(m : Int) else m

/-- The sum of two finite values, exactly (R153): a zero sum of unlike signs is -0 only when rounding down. -/
def sumFin (f : Fmt) (rm : Nat) (fz : Bool) (n1 : Bool) (m1 : Nat) (e1 : Int) (n2 : Bool) (m2 : Nat) (e2 : Int) :
    FRes :=
  let e := min e1 e2
  let x := exactOf n1 (m1 <<< (e1 - e).toNat) + exactOf n2 (m2 <<< (e2 - e).toNat)
  if x = 0 then
    let neg := if m1 = 0 ∧ m2 = 0 ∧ n1 = n2 then n1 else if m1 = 0 ∧ m2 = 0 then rm == 2 else rm == 2
    (signed f neg 0, noFlags)
  else deliver f rm fz (decide (x < 0)) x.natAbs e

def addV (f : Fmt) (rm : Nat) (fz : Bool) (a b : FVal) : FRes :=
  match propagate f [a, b] with
  | some r => r
  | none =>
    match a, b with
    | .inf x, .inf y => if x = y then (signed f x f.inf, noFlags) else invalid f
    | .inf x, _ => (signed f x f.inf, noFlags)
    | _, .inf y => (signed f y f.inf, noFlags)
    | .fin n1 m1 e1, .fin n2 m2 e2 => sumFin f rm fz n1 m1 e1 n2 m2 e2
    | _, _ => invalid f

/-- FSUB: a NaN second operand keeps its sign. -/
def subV (f : Fmt) (rm : Nat) (fz : Bool) (a b : FVal) : FRes := addV f rm fz a b.flip

def mulV (f : Fmt) (rm : Nat) (fz : Bool) (a b : FVal) : FRes :=
  match propagate f [a, b] with
  | some r => r
  | none =>
    let neg := a.neg != b.neg
    match a, b with
    | .inf _, y => if y.isZero then invalid f else (signed f neg f.inf, noFlags)
    | x, .inf _ => if x.isZero then invalid f else (signed f neg f.inf, noFlags)
    | .fin _ m1 e1, .fin _ m2 e2 =>
      if m1 = 0 ∨ m2 = 0 then (signed f neg 0, noFlags) else deliver f rm fz neg (m1 * m2) (e1 + e2)
    | _, _ => invalid f

/-- FMA (R110, R163, R166): `c` already carries the sign that the operation gives it, and `pn` negates the
product. -/
def fmaV (f : Fmt) (rm : Nat) (fz pn : Bool) (a b c : FVal) : FRes :=
  let zeroInf := (a.isZero && b == .inf b.neg) || (b.isZero && a == .inf a.neg)
  match propagate f [a, b, c] with
  | some (x, fl) => (x, { fl with nv := fl.nv || zeroInf })
  | none =>
    if zeroInf then invalid f
    else
      let neg := (a.neg != b.neg) != pn
      match a, b, c with
      | .fin _ m1 e1, .fin _ m2 e2, .fin n3 m3 e3 => sumFin f rm fz neg (m1 * m2) (e1 + e2) n3 m3 e3
      | .fin _ _ _, .fin _ _ _, .inf n3 => (signed f n3 f.inf, noFlags)
      | _, _, .inf n3 => if neg = n3 then (signed f n3 f.inf, noFlags) else invalid f
      | _, _, _ => (signed f neg f.inf, noFlags)

/-- FDIV (R173). -/
def divV (f : Fmt) (rm : Nat) (fz : Bool) (a b : FVal) : FRes :=
  match propagate f [a, b] with
  | some r => r
  | none =>
    let neg := a.neg != b.neg
    match a, b with
    | .inf _, .inf _ => invalid f
    | .inf _, _ => (signed f neg f.inf, noFlags)
    | _, .inf _ => (signed f neg 0, noFlags)
    | .fin _ m1 e1, .fin _ m2 e2 =>
      if m2 = 0 then (if m1 = 0 then invalid f else (signed f neg f.inf, { dz := true }))
      else if m1 = 0 then (signed f neg 0, noFlags)
      else
        let k := f.mw + 4 + bitLen m2 - bitLen m1
        let q := (m1 <<< k) / m2
        let sticky := b1 (decide ((m1 <<< k) % m2 ≠ 0))
        deliver f rm fz neg (2 * q + sticky) (e1 - e2 - k - 1)
    | _, _ => invalid f

/-- The integer square root, one bit at a time from bit `n - 1`. -/
def isqrt (x : Nat) : Nat → Nat → Nat
  | 0, r => r
  | n + 1, r => isqrt x n (if (r + 2 ^ n) * (r + 2 ^ n) ≤ x then r + 2 ^ n else r)

/-- FSQRT (R173). -/
def sqrtV (f : Fmt) (rm : Nat) (fz : Bool) (a : FVal) : FRes :=
  match propagate f [a] with
  | some r => r
  | none =>
    match a with
    | .fin neg m e =>
      if m = 0 then (signed f neg 0, noFlags)
      else if neg then invalid f
      else
        let k := 2 * f.mw + 8 - bitLen m
        let k := if (e - k) % 2 = 0 then k else k + 1
        let x := m <<< k
        let r := isqrt x (bitLen x / 2 + 1) 0
        deliver f rm fz false (2 * r + b1 (decide (r * r ≠ x))) ((e - k) / 2 - 1)
    | .inf neg => if neg then invalid f else (f.inf, noFlags)
    | .nan _ _ => invalid f

/-- Order two values that are not NaNs: the exact comparison, with -0 equal to +0. -/
def cmpV (a b : FVal) : Ordering :=
  let key : FVal → Int × Int := fun v => match v with
    | .inf n => (if n then -1 else 1, 0)
    | .fin n m e => (0, exactOf n (m <<< (e + 20000).toNat))
    | .nan _ _ => (0, 0)
  (compare (key a).1 (key b).1).then (compare (key a).2 (key b).2)

/-- The value before `b` in the order of R169, where -0 is below +0. -/
def belowV (a b : FVal) : Bool :=
  match cmpV a b with
  | .lt => true
  | .gt => false
  | .eq => a.neg && !b.neg

/-- FMIN and FMAX (R169): encodings `x` and `y` of the operands. They deliver an operand and compute no result, so that a
subnormal one is no tiny result of R156 and raises no FP_TRAP under TE_UF: DESIGN CHOICE (log entry 116). -/
def minV (f : Fmt) (max : Bool) (x y : Nat) : FRes :=
  let a := unpack f x
  let b := unpack f y
  match propagate f [a, b] with
  | some r => r
  | none => (if belowV a b != max then x else y, noFlags)

/-- Round to an integral value (R171): the magnitude and whether it differs. -/
def integral (rm : Nat) (neg : Bool) (m : Nat) (e : Int) : Nat × Bool := roundAt rm neg m e 0

/-- FRINT and FRINTX. -/
def rintV (f : Fmt) (rm : Nat) (exact : Bool) (x : Nat) : FRes :=
  let a := unpack f x
  match propagate f [a] with
  | some r => r
  | none =>
    match a with
    | .fin neg m e =>
      let (n, nx) := integral rm neg m e
      if n = 0 then (signed f neg 0, { nx := exact && nx })
      else ((deliver f rm false neg n 0).1, { nx := exact && nx })
    | _ => (x, noFlags)

/-- FCLASS: the one bit of the mask (R113). -/
def classV (f : Fmt) (x : Nat) : Nat :=
  match unpack f x with
  | .nan _ fr => if fr.testBit (f.mw - 1) then 9 else 8
  | .inf n => if n then 0 else 7
  | .fin n m e =>
    if m = 0 then (if n then 3 else 4)
    else if e = f.qmin ∧ m < 2 ^ f.mw then (if n then 2 else 5) else (if n then 1 else 6)

/-- A float to a float of another format (R168, R159, R161). -/
def convV (f g : Fmt) (rm : Nat) (fz : Bool) (x : Nat) : FRes :=
  let narrow := decide (g.mw < f.mw)
  match unpack f x with
  | .nan n fr =>
    let q := if fr.testBit (f.mw - 1) then fr else fr + f.quiet
    let q := if narrow then q / 2 ^ (f.mw - g.mw) else q * 2 ^ (g.mw - f.mw)
    (signed g n (g.inf + q), { nv := !fr.testBit (f.mw - 1) })
  | .inf n => (signed g n g.inf, noFlags)
  | .fin n m e => if m = 0 then (signed g n 0, noFlags) else deliver g rm (fz && narrow) n m e

/-- An integer to a float (R113). -/
def fromInt (g : Fmt) (rm : Nat) (x : Int) : FRes :=
  if x = 0 then (0, noFlags) else deliver g rm false (decide (x < 0)) x.natAbs 0

/-- A float to an integer (R172). The range is tested on the integer that the rounding mode gives, so that 2^63 - 0.75
toward zero is in range and inexact: DESIGN CHOICE (log entry 117). -/
def toInt (f : Fmt) (rm : Nat) (uns : Bool) (x : Nat) : Nat × FFlags :=
  let top := if uns then 2 ^ 64 - 1 else 2 ^ 63 - 1
  let bottom := if uns then 0 else 2 ^ 63
  match unpack f x with
  | .nan _ _ => (top, { nv := true })
  | .inf n => (if n then bottom else top, { nv := true })
  | .fin n m e =>
    let (k, nx) := integral rm n m e
    let v := exactOf n k
    if (top : Int) < v then (top, { nv := true })
    else if v < (if uns then 0 else -(2 ^ 63 : Int)) then (bottom, { nv := true })
    else ((BitVec.ofInt 64 v).toNat, { nx := nx })

end Sys2Proof.Machine
end

