-- ==== Sys2Proof/Machine/CpuFloat.lean ====
section
/-! DEFINITION. The floating instructions (R110, R113, R153 to R176). -/

namespace Sys2Proof.Machine

/-- FS.RM and FS.FZ (R88). -/
def Arch.rm (a : Arch) : Nat := bits a.fs 10 8
def Arch.fz (a : Arch) : Bool := bitOf a.fs 11

/-- The trap enables of PS in the bit order of FS [4:0]. -/
def Arch.enables (a : Arch) : Nat :=
  b1 (bitOf a.ps 20) + 2 * b1 (bitOf a.ps 19) + 4 * b1 (bitOf a.ps 18) + 8 * b1 (bitOf a.ps 17) +
    16 * b1 (bitOf a.ps 16)

/-- What a floating instruction does with the flags that it raises (R132, R156, R157, R162): it traps without any
effect, or writes `items` and adds the flags to FS. -/
def floatDone (x : Arch) (fl : FFlags) (items : List Item) : Did :=
  let fl := if fl.tiny && bitOf x.ps 19 then { fl with uf := true } else fl
  let raised := fl.bits
  if raised &&& x.enables ≠ 0 then .fault ⟨0x10, 0, raised * 2 ^ 24⟩
  else .retire (items ++ (if raised = 0 then [] else [.fs (x.fs ||| BitVec.ofNat 64 raised)])) false

/-- A floating operand in a format (R84). -/
def Arch.fv (x : Arch) (fmt : FFmt) (r : Reg) : FVal := unpack (fmtOf fmt) (x.fr r).toNat

/-- The low bits of a floating register in a format (R84). -/
def Arch.fbits (x : Arch) (fmt : FFmt) (r : Reg) : Nat := (x.fr r).toNat % 2 ^ (fmtOf fmt).width

/-- A result for a floating register: the higher bits are zero (R84). -/
def floatTo (x : Arch) (d : Reg) (r : FRes) : Did := floatDone x r.2 [.f d (BitVec.ofNat 128 r.1)]

/-- An operand is zero, infinite or NaN (R174). -/
def FVal.special (v : FVal) : Bool :=
  match v with
  | .fin _ m _ => m == 0
  | _ => true

/-- Entry 256e + j of the estimate table of FSQRT: 10 bits, the integer nearest to 1,024 / sqrt((1 + (j + 0.5) / 256) × 2^e)
(R176). -/
def rootEstimate (i : Nat) : Nat := (isqrt (2 ^ 31 / ((513 + 2 * (i % 256)) * 2 ^ (i / 256))) 12 0 + 1) / 2

/-- The index of an operand m × 2^e in that table (R176): the parity of its unbiased exponent, and the 8 bits that follow the
leading 1 of its significand. -/
def rootIndex (m : Nat) (e : Int) : Nat :=
  256 * ((e + m.log2) % 2).toNat + m * 2 ^ 8 / 2 ^ m.log2 % 256

/-- The estimate that FDIV or FSQRT starts from (R149, R176): that of its divisor, or of its operand. Zero, an infinity and a
NaN have no leading 1 and so no index; the estimate is 0 for them: DESIGN CHOICE (log entry 118). -/
def floatEstimate (root : Bool) (v : FVal) : Nat :=
  match v with
  | .fin _ m e => if m = 0 then 0 else if root then rootEstimate (rootIndex m e) else reciprocal (m * 2 ^ 9 / 2 ^ m.log2 % 512)
  | _ => 0

/-- How the divide unit works on FDIV or FSQRT (R149, R174 to R176); `v` is the divisor or the operand of the root. -/
def floatPlan (x : Arch) (fmt : FFmt) (root : Bool) (ops : List FVal) (v : FVal) : DivPlan :=
  if (ops.any FVal.special) ∧ !bitOf x.ps 10 then { estimate := 0, iterations := 0, cycles := 4 }
  else
    let (iterations, cycles) : Nat × Nat :=
      match fmt with
      | .s => (2, if root then 16 else 14)
      | .d => (3, if root then 24 else 20)
      | .q => (4, if root then 44 else 38)
    { estimate := floatEstimate root v, iterations := iterations, cycles := cycles }

/-- A floating instruction of one parcel on a compute core (R81). -/
def State.float (s : State) (core len : Nat) (f : Arch → Did) : State :=
  s.instr core len fun x t => needsFpu core (f x, t) t

/-- The formats of the floating conversion kinds (R113). -/
def kindFmt (k : Nat) : Option FFmt :=
  match k with
  | 2 => some .s | 3 => some .d | 4 => some .q | _ => none

/-- FCVT (R113, R168, R172): ILLEGAL for the pairs that R113 reserves. -/
def convert (x : Arch) (d a : Reg) (src dst : Nat) : Did :=
  match kindFmt src, kindFmt dst with
  | some f, some g =>
    if f = g then illegal else floatTo x d (convV (fmtOf f) (fmtOf g) x.rm x.fz (x.fbits f a))
  | some f, none =>
    if dst = 0 ∨ dst = 1 ∨ dst = 8 ∨ dst = 9 then
      let r := toInt (fmtOf f) (if 8 ≤ dst then 1 else x.rm) (dst % 2 == 1) (x.fbits f a)
      floatDone x r.2 [.g d (BitVec.ofNat 64 r.1)]
    else illegal
  | none, some g =>
    if src = 0 then floatTo x d (fromInt (fmtOf g) x.rm (x.gr a).toInt)
    else if src = 1 then floatTo x d (fromInt (fmtOf g) x.rm (x.gr a).toNat)
    else illegal
  | none, none => illegal

/-- FCMP (R112, R170). -/
def floatCmp (x : Arch) (fmt : FFmt) (a b : Reg) : Did :=
  let u := x.fv fmt a
  let v := x.fv fmt b
  let nv := u.signals (fmtOf fmt) || v.signals (fmtOf fmt)
  floatDone x { nv := nv } [.ps (x.fcmpFlags (u.isNan || v.isNan) (cmpV u v))]

/-- MTFS (R88, R89): the reserved bits stay zero. -/
def moveToFs (v : Word) : Did := if 5 ≤ bits v 10 8 then illegal else .retire [.fs (v &&& 0xF1F#64)] false

/-- FADD (R153). -/
def execFadd (core : CoreId) (fmt : FFmt) (d a b : Reg) (s : State) : Host.Outcome State Fault Refusal :=
  .next (s.float core 1 fun x => floatTo x d (addV (fmtOf fmt) x.rm x.fz (x.fv fmt a) (x.fv fmt b)))

/-- FSUB (R153). -/
def execFsub (core : CoreId) (fmt : FFmt) (d a b : Reg) (s : State) : Host.Outcome State Fault Refusal :=
  .next (s.float core 1 fun x => floatTo x d (subV (fmtOf fmt) x.rm x.fz (x.fv fmt a) (x.fv fmt b)))

/-- FMUL (R153). -/
def execFmul (core : CoreId) (fmt : FFmt) (d a b : Reg) (s : State) : Host.Outcome State Fault Refusal :=
  .next (s.float core 1 fun x => floatTo x d (mulV (fmtOf fmt) x.rm x.fz (x.fv fmt a) (x.fv fmt b)))

/-- FDIV (R173). -/
def execFdiv (core : CoreId) (fmt : FFmt) (d a b : Reg) (s : State) : Host.Outcome State Fault Refusal :=
  .next (s.float core 1 fun x => 
    let u := x.fv fmt a
    let v := x.fv fmt b
    let r := divV (fmtOf fmt) x.rm x.fz u v
    floatDone x r.2 [.divide (floatPlan x fmt false [u, v] v), .f d (BitVec.ofNat 128 r.1)])

/-- FSQRT (R173). -/
def execFsqrt (core : CoreId) (fmt : FFmt) (d a : Reg) (s : State) : Host.Outcome State Fault Refusal :=
  .next (s.float core 1 fun x => 
    let u := x.fv fmt a
    let r := sqrtV (fmtOf fmt) x.rm x.fz u
    floatDone x r.2 [.divide (floatPlan x fmt true [u] u), .f d (BitVec.ofNat 128 r.1)])

/-- FMIN (R169). -/
def execFmin (core : CoreId) (fmt : FFmt) (d a b : Reg) (s : State) : Host.Outcome State Fault Refusal :=
  .next (s.float core 1 fun x => floatTo x d (minV (fmtOf fmt) false (x.fbits fmt a) (x.fbits fmt b)))

/-- FMAX (R169). -/
def execFmax (core : CoreId) (fmt : FFmt) (d a b : Reg) (s : State) : Host.Outcome State Fault Refusal :=
  .next (s.float core 1 fun x => floatTo x d (minV (fmtOf fmt) true (x.fbits fmt a) (x.fbits fmt b)))

/-- FCMP (R112, R170). -/
def execFcmp (core : CoreId) (fmt : FFmt) (a b : Reg) (s : State) : Host.Outcome State Fault Refusal :=
  .next (s.float core 1 fun x => floatCmp x fmt a b)

/-- FCVT (R113). -/
def execFcvt (core : CoreId) (d a : Reg) (src dst : BitVec 4) (s : State) :
    Host.Outcome State Fault Refusal :=
  .next (s.float core 1 fun x => convert x d a src.toNat dst.toNat)

/-- FMOV (R167). -/
def execFmov (core : CoreId) (fmt : FFmt) (d a : Reg) (s : State) : Host.Outcome State Fault Refusal :=
  .next (s.float core 1 fun x => floatTo x d (x.fbits fmt a, noFlags))

/-- FNEG (R167). -/
def execFneg (core : CoreId) (fmt : FFmt) (d a : Reg) (s : State) : Host.Outcome State Fault Refusal :=
  .next (s.float core 1 fun x => floatTo x d (x.fbits fmt a ^^^ (fmtOf fmt).signBit, noFlags))

/-- FABS (R167). -/
def execFabs (core : CoreId) (fmt : FFmt) (d a : Reg) (s : State) : Host.Outcome State Fault Refusal :=
  .next (s.float core 1 fun x => floatTo x d (x.fbits fmt a % (fmtOf fmt).signBit, noFlags))

/-- FCLASS (R113, R167). -/
def execFclass (core : CoreId) (fmt : FFmt) (d a : Reg) (s : State) : Host.Outcome State Fault Refusal :=
  .next (s.float core 1 fun x => 
    .retire [.g d (BitVec.ofNat 64 (2 ^ classV (fmtOf fmt) (x.fbits fmt a)))] false)

/-- FRINT (R171). -/
def execFrint (core : CoreId) (fmt : FFmt) (d a : Reg) (s : State) : Host.Outcome State Fault Refusal :=
  .next (s.float core 1 fun x => floatTo x d (rintV (fmtOf fmt) x.rm false (x.fbits fmt a)))

/-- FRINTX (R171). -/
def execFrintx (core : CoreId) (fmt : FFmt) (d a : Reg) (s : State) : Host.Outcome State Fault Refusal :=
  .next (s.float core 1 fun x => floatTo x d (rintV (fmtOf fmt) x.rm true (x.fbits fmt a)))

/-- FMVGF (R110). -/
def execFmvgf (core : CoreId) (d a : Reg) (s : State) : Host.Outcome State Fault Refusal :=
  .next (s.float core 1 fun x => .retire [.g d ((x.fr a).setWidth 64)] false)

/-- FMVGFH (R110). -/
def execFmvgfh (core : CoreId) (d a : Reg) (s : State) : Host.Outcome State Fault Refusal :=
  .next (s.float core 1 fun x => .retire [.g d ((x.fr a >>> 64).setWidth 64)] false)

/-- FMVFG (R110). -/
def execFmvfg (core : CoreId) (d a : Reg) (s : State) : Host.Outcome State Fault Refusal :=
  .next (s.float core 1 fun x => .retire [.f d ((x.gr a).setWidth 128)] false)

/-- FMVFGH (R110). -/
def execFmvfgh (core : CoreId) (d a : Reg) (s : State) : Host.Outcome State Fault Refusal :=
  .next (s.float core 1 fun x => .retire [.f d (((x.fr d).setWidth 64).setWidth 128 ||| (x.gr a).setWidth 128 <<< 64)] false)

/-- MFFS (R162). -/
def execMffs (core : CoreId) (d : Reg) (s : State) : Host.Outcome State Fault Refusal :=
  .next (s.float core 1 fun x => .retire [.g d x.fs] false)

/-- MTFS (R89, R162). -/
def execMtfs (core : CoreId) (a : Reg) (s : State) : Host.Outcome State Fault Refusal :=
  .next (s.float core 1 fun x => moveToFs (x.gr a))

/-- FMA (R110, R163, R166). -/
def execFma (core : CoreId) (fmt : FFmt) (d a b c : Reg) (neg : BitVec 2) (s : State) :
    Host.Outcome State Fault Refusal :=
  .next (s.float core 2 fun x => 
    let w := x.fv fmt c
    floatTo x d (fmaV (fmtOf fmt) x.rm x.fz (decide (2 ≤ neg.toNat)) (x.fv fmt a) (x.fv fmt b)
      (if neg.toNat % 2 = 1 then w.flip else w)))

end Sys2Proof.Machine
end

