-- ==== Sys2Proof/Machine/Pairs.lean ====
section
/-! DEFINITION. Checked pairs (chapter 05): comparison, commit, rollback and hard failure, the checking hardware,
and the pair commands SPLIT, JOIN, SPARE and INJECT. -/

namespace Sys2Proof.Machine

/-! ### Commit -/

/-- The touched marks of a committed window are cleared (R198). -/
def State.clearTouched (s : State) (core n : Nat) : State :=
  let f (t : Tab (List CLine)) : Tab (List CLine) :=
    t.map fun e =>
      if e.1 / 64 = core then (e.1, e.2.map fun c => if c.touched ≤ n + 1 then { c with touched := 0 } else c) else e
  s.modCaches fun c => { c with l1i := f c.l1i, l1d := f c.l1d }

/-- A pair reaches a window boundary for a hand-over or a stop: the window in progress closes, once it may (R190, R231). -/
def State.toBoundary (s : State) (p : Nat) : State :=
  if s.isSplit p ∨ (s.pair p).opened.isEmpty ∨ !s.canClose (leaderOf p) then s else s.closeWindow (leaderOf p)

/-- The cores whose L1s a pair's command concerns. -/
def coresOf (p : Nat) : List Nat := if p < 52 then [2 * p, 2 * p + 1] else [leaderOf p]

/-- Invalidate L1I or L1D of a pair. -/
def State.dropL1s (s : State) (p : Nat) (i d : Bool) : State :=
  let f (on : Bool) (t : Tab (List CLine)) : Tab (List CLine) :=
    if on then t.filter fun e => !(coresOf p).contains (e.1 / 64) else t
  s.modCaches fun c => { c with l1i := f i c.l1i, l1d := f d c.l1d }

/-- A pair stands at a window boundary, or can close its window (R190): one with a failed window reaches its next boundary
only when that window has committed. -/
def State.atBoundary (s : State) (p : Nat) : Bool :=
  s.isSplit p || (!(s.pair p).restarting && (s.pair p).failRun == 0 && (s.pair p).failing.isNone &&
    ((s.pair p).opened.isEmpty || s.canClose (leaderOf p)))

/-- CACHE_DISABLE takes effect (R273): the L1s are off and empty, and the L2 drains. -/
def State.beginDisable (s : State) (p : Nat) (m : BitVec 3) : State :=
  let l2 := m.getLsbD 2
  let i := m.getLsbD 0 || l2
  let d := m.getLsbD 1 || l2
  ((s.toBoundary p).dropL1s p i d).modPair p fun x =>
    { x with l1iOn := x.l1iOn && !i, l1dOn := x.l1dOn && !d,
             l2State := if l2 ∧ x.l2State = 0 then 1 else x.l2State }

/-- A CACHE_DISABLE of a pair that waits for its window boundary, marked as begun. -/
def CacheJob.begins (p : Nat) : CacheJob → CacheJob
  | .disable q m begun who => .disable q m (begun || q == p) who
  | j => j

/-- The CACHE_DISABLEs of a pair that wait for its next window boundary take effect there (R273). -/
def State.startDisables (s : State) (p : Nat) : State :=
  if s.atBoundary p then
    let t := s.caches.jobs.foldl (fun t j => match j with
      | .disable q m false _ => if q = p then t.beginDisable p m else t
      | _ => t) s
    if s.caches.jobs.any fun j => j.begins p != j then
      t.modCaches fun c => { c with jobs := c.jobs.map (CacheJob.begins p) }
    else t
  else s

/-- The oldest closed window agrees and commits (R193): the checkpoint takes its end state, its stores become
releasable, its pop and its events take effect. The agreement after a failure of a core or a delay register is reported at
level 1 (R211). -/
def State.commitOldest (s : State) (p : Nat) : State :=
  match (s.pair p).closed with
  | [] => s
  | w :: rest =>
    let core := leaderOf p
    let owed := (s.pair p).owed
    let s := s.modPair p fun x =>
      { x with
        closed := rest
        committed := x.committed ++ w.stores
        ckpt := w.endArch.getD x.ckpt
        ckptLost := false
        failRun := 0
        owed := false }
    let s := s.clearTouched core w.number
    let s := match w.pop with
      | some q => s.popCommit q (cellOfPair p)
      | none => s
    let s := w.events.foldl State.doEvent s
    let s := if owed then s.reportCell (cellOfPair p) 1 else s
    let s := if (s.pair p).failing.isNone ∧ ((s.pair p).job.isSome ∨ s.cst (cellOfPair p) = .draining) then s.toBoundary p else s
    (s.startDisables p).tryEndWait core

/-! ### Rollback -/

/-- Lines that uncommitted windows touched leave the L1s (R199). -/
def State.dropTouched (s : State) (core : Nat) : State :=
  let f (t : Tab (List CLine)) : Tab (List CLine) :=
    (t.map fun e => if e.1 / 64 = core then (e.1, e.2.filter fun c => c.touched == 0) else e).filter fun e =>
      !e.2.isEmpty
  s.modCaches fun c => { c with l1i := f c.l1i, l1d := f c.l1d }

/-- The uncommitted windows of a pair, the oldest first. -/
def Pair.uncommitted (p : Pair) : List Window := p.closed ++ [p.opened]

/-- Discard every uncommitted window and return to the checkpoint (R199, R202, R216); the kept translations go (R199). -/
def State.rollback (s : State) (p : Nat) : State :=
  let core := leaderOf p
  let ws := (s.pair p).uncommitted
  let ev := ws.any Window.ev
  let s := ws.foldl (fun s w => match w.pop with
    | some q => s.popReturn q (cellOfPair p)
    | none => s) s
  let s := s.dropTouched core
  let s := s.modPair p fun x =>
    { x with closed := [], failing := none, opened := { Window.empty ((ws.head?.map Window.number).getD 0) with ev := ev } }
  let a := (s.pair p).ckpt
  s.modCore core fun c =>
    { c with arch := { a with ps := a.ps ||| (if ev then 0x200#64 else 0) }, wait := .none, first := none, divUnit := none,
             tlb := [] }

/-! ### Failure -/

/-- The die of a compute pair, and the pair that serves as its spare (R11). -/
def State.spareOf (s : State) (p : Nat) : Option Nat := tabGet none s.spares (p / 13)

/-- A SPLIT or JOIN that waits is answered with 0x0503 when the pair fails (chapter 05, Collisions); the processor
that SPLIT had claimed is free again. A SPARE under way goes on (R236). -/
def State.failJob (s : State) (p : Nat) : State :=
  match (s.pair p).job with
  | some (.split _ _ _ _ who) =>
    ((s.modPair p fun x => { x with job := none }).modParts fun t =>
      { t with procs := t.procs.filter fun q => q.core != leaderOf p + 1 }).complete who 0x0503 0 []
  | some (.join _ _ who) => (s.modPair p fun x => { x with job := none }).complete who 0x0503 0 []
  | _ => s

/-- A hand-over of any kind ends with 0x0503, as the checkpoint that it needs is lost (R211): a spare that SPARE had claimed
serves its die again. -/
def State.abandonJob (s : State) (p : Nat) : State :=
  match (s.pair p).job with
  | some (.spare q who) =>
    let s := { (s.modPair p fun x => { x with job := none }) with spares := tabPut none s.spares (p / 13) (some q) }
    match who with
    | some who => s.complete who 0x0503 0 []
    | none => s
  | _ => s.failJob p

/-- The pair's checkpoint cannot be loaded (R211): the pair is FAULTED, and its partition receives a processor check. -/
def State.checkpointFails (s : State) (p : Nat) : State :=
  (((s.abandonJob p).modPair p fun x => { x with restarting := false }).failCell (cellOfPair p)).reportStop (leaderOf p)

/-- The pair is hard-failed (R210, R233, R235, R238). A checkpoint that is lost cannot be loaded into a spare (R211). -/
def State.hardFail (s : State) (p : Nat) : State :=
  let s := s.rollback p
  let s := s.failJob p
  let s := s.modPair p fun x => { x with hardFailed := true, failRun := 2, owed := false }
  let s := s.failCell (cellOfPair p)
  if p < 52 then
    let s := s.reportCell (cellOfPair p) 2
    if (s.pair p).ckptLost then s.checkpointFails p
    else
      match (s.pair p).job, s.spareOf p with
      | some _, _ => s
      | none, some q =>
        { (s.modPair p fun x => { x with job := some (.spare q none) }) with
          spares := tabPut none s.spares (p / 13) none }
      | none, none => s.reportStop (leaderOf p)
  else if p < 56 then s.reportCell (cellOfPair p) 2
  else (s.modVixia fun v => { v with up := false }).report 0x1A4

/-- The oldest uncommitted window of the pair fails (R199, R207 to R211). -/
def State.failWindow (s : State) (p : Nat) : State :=
  let x := s.pair p
  let s := s.modPair p fun x => { x with mismatch := true }
  if x.failRun = 2 then s.hardFail p
  else if x.ckptLost then (s.rollback p).checkpointFails p
  else
    (s.rollback p).modPair p fun x =>
      { x with failRun := x.failRun + 1, retries := satAdd x.retries 1, restarting := true,
               ccLeft := if x.busDead then 0 else 17 }

/-- Window `n` of the pair fails, and every later one with it (R199): at once where it is the oldest, else when the earlier ones
have been compared, before which the cores retire nothing more. `owe` says that its agreement on retry is reported (R211). -/
def State.failAt (s : State) (p n : Nat) (owe : Bool) : State :=
  if ((s.pair p).uncommitted.head?.map Window.number).all fun k => decide (n ≤ k) then
    (s.modPair p fun x => { x with owed := x.owed || owe }).failWindow p
  else
    s.modPair p fun x =>
      { x with mismatch := true
               failing := match x.failing with
                 | some (k, o) => some (min n k, o || owe)
                 | none => some (n, owe) }

/-- The window in progress fails. -/
def State.failOpen (s : State) (p : Nat) (owe : Bool) : State := s.failAt p (s.pair p).opened.number owe

/-- The oldest closed window commits (R193), and a later one that has failed meanwhile is discarded when it becomes the oldest
(R199). -/
def State.commitWindow (s : State) (p : Nat) : State :=
  let t := s.commitOldest p
  match (t.pair p).failing, (t.pair p).uncommitted with
  | some (n, owe), w :: _ =>
    if n ≤ w.number then (t.modPair p fun x => { x with owed := x.owed || owe }).failWindow p else t
  | _, _ => t

/-- The pair runs checked: it is not split, and its cell has not failed. -/
def State.checks (s : State) (p : Nat) : Bool :=
  !s.isSplit p && s.cst (cellOfPair p) != .faulted && !(s.pair p).restarting

/-- A signature difference has been forced into the oldest closed window (R228). -/
def Pair.forced (p : Pair) : Bool :=
  match p.injected, p.closed with
  | some n, w :: _ => decide (n ≤ w.number)
  | _, _ => false

/-- Clove reports on the oldest closed window (R191, R192, R211). In permanent cycle-compare mode the bus comparator
decides, and it has found no difference (R213). Where the bus comparator has failed before Clove, the pair goes to MODE 2
all the same and its windows commit unchecked: DESIGN CHOICE (log entry 120). -/
def State.compareWindow (s : State) (p : Nat) (rails : BitVec 2) : State :=
  let x := s.pair p
  if !s.checks p ∨ x.closed.isEmpty then s
  else if x.mode = 2 then s.commitWindow p
  else if rails = 0 ∨ rails = 3 then
    ((s.modPair p fun x =>
      { x with cloveFailed := true, cloveDead := true, mode := 2, injected := none }).reportCell (cellOfPair p) 2).failWindow p
  else if rails = 1 ∧ !x.forced then s.commitWindow p
  else
    (s.modPair p fun x => { x with injected := if x.forced then none else x.injected, owed := true }).failWindow p

/-- The end of a window's 512th cycle (R188): a window that holds nothing folds nothing and is not compared. -/
def State.cycleLimit (s : State) (p : Nat) : State :=
  let x := s.pair p
  if !s.checks p ∨ x.failing.isSome then s
  else if x.opened.isEmpty then
    s.modPair p fun x => { x with opened := { x.opened with number := x.opened.number + 1 }, ccLeft := x.ccLeft - 1 }
  else if s.canClose (leaderOf p) then s.closeWindow (leaderOf p)
  else s

/-- WINDOW_CYCLE_LIMIT (R188). -/
def execWindowCycleLimit (pair : PairId) (s : State) : Host.Outcome State Fault Refusal := .next (s.cycleLimit pair)

/-- WINDOW_COMPARE (R191 to R193, R199, R210, R211). -/
def execWindowCompare (pair : PairId) (rails : BitVec 2) (s : State) : Host.Outcome State Fault Refusal :=
  .next (s.compareWindow pair rails)

/-- PAIR_RESTART_COMPLETE (R199). -/
def execPairRestartComplete (pair : PairId) (s : State) : Host.Outcome State Fault Refusal :=
  .next (s.modPair pair fun x => { x with restarting := false })

/-- L2 can accept a gated store now: no granule operation, atomic of another pair or ASLEEP channel stands in its way (R142,
R28, R306). -/
def State.acceptsStore (s : State) (p : Nat) (g : GStore) : Bool :=
  !s.mustWait (leaderOf p) (g.pieces.map fun x => (x.1, x.2.length)) .write

/-- Release the oldest entry of the committed windows; the first component says that L2 has accepted it. -/
def State.releaseOne (s : State) (p : Nat) : Bool × State :=
  match (s.pair p).committed with
  | [] => (false, s)
  | g :: rest =>
    if !s.acceptsStore p g then (false, s.touchChans (s.asleepFor (g.pieces.map fun x => (x.1, x.2.length)) .write))
    else
      let t := (s.modPair p fun x => { x with committed := rest }).performStore (leaderOf p) g
      if s.overPins t then (false, s) else (true, t)

/-- Release two entries of committed windows, in program order (R195). -/
def State.releaseStores (s : State) (p : Nat) : State :=
  match s.releaseOne p with
  | (true, t) => (t.releaseOne p).2
  | (false, t) => t

/-- GATED_STORE_RELEASE (R195). -/
def execGatedStoreRelease (pair : PairId) (s : State) : Host.Outcome State Fault Refusal :=
  .next (s.releaseStores pair)

/-- BUS_COMPARE_DIFFERENCE (R207, R208, R222, R223): only while a bus comparator that works compares every cycle. -/
def execBusCompareDifference (pair : PairId) (cycle : BitVec 16) (field : BitVec 4) (s : State) :
    Host.Outcome State Fault Refusal :=
  let x := s.pair pair
  .next (if s.checks pair ∧ !x.busDead ∧ (0 < x.ccLeft ∨ x.mode = 2) then
    (s.modPair pair fun x =>
      { x with loc := pack [(0, cycle.toNat), (16, field.toNat), (32, x.opened.number % 2 ^ 32)],
               localised := satAdd x.localised 1 }).failOpen pair true
  else s)

/-- BUSCMP_SELF_TEST (R211, R212): the forced differences take the bus bits in turn. -/
def execBuscmpSelfTest (pair : PairId) (reported : Bool) (s : State) : Host.Outcome State Fault Refusal :=
  let s := s.modPair pair fun x => { x with testBit := x.testBit + 1 }
  .next (if reported ∨ !s.checks pair then s
  else
    let s := s.modPair pair fun x => { x with buscmpFailed := true, busDead := true, ccLeft := 0 }
    if (s.pair pair).mode = 2 then s.hardFail pair else s.reportCell (cellOfPair pair) 2)

/-- A delay-register error (R211). -/
def State.delayError (s : State) (p : Nat) (correctable : Bool) : State :=
  if correctable then (s.modPair p fun x => { x with delayCe := satAdd x.delayCe 1 }).reportCell (cellOfPair p) 0
  else if s.checks p then (s.modPair p fun x => { x with delayUe := true }).failOpen p true
  else s.modPair p fun x => { x with delayUe := true }

/-- DELAY_REGISTER_ERROR (R211). -/
def execDelayRegisterError (pair : PairId) (correctable : Bool) (s : State) : Host.Outcome State Fault Refusal :=
  .next (s.delayError pair correctable)

/-- CHECKPOINT_ARRAY_ERROR (R211): during a restart or a sparing an uncorrectable one makes the pair FAULTED. -/
def execCheckpointArrayError (pair : PairId) (correctable : Bool) (s : State) : Host.Outcome State Fault Refusal :=
  let x := s.pair pair
  let sparing : Bool := match x.job with
    | some (.spare _ _) => true
    | _ => false
  .next (if correctable then
    (s.modPair pair fun x => { x with ckptCe := satAdd x.ckptCe 1 }).reportCell (cellOfPair pair) 0
  else if x.restarting || sparing then
    (s.modPair pair fun x => { x with ckptUe := true, ckptLost := true }).checkpointFails pair
  else (s.modPair pair fun x => { x with ckptUe := true, ckptLost := true }).reportCell (cellOfPair pair) 1)

/-! ### State areas -/

/-- The control registers that a state area carries (R229). -/
def areaK : List Nat := (List.range 32).filter fun n =>
  (kLevel n).isSome && !([12, 13, 19, 20, 29].contains n)

/-- A processor's state as a state area holds it (R229). Of two products in flight it holds the later, for the area has room
for one: DESIGN CHOICE (log entry 122). -/
def areaBytes (s : State) (core : Nat) : Bytes :=
  let a := (s.core core).finish.arch
  let p := a.products.getLast?
  wordBytes 1 ++ wordBytes a.pc ++ wordBytes a.psRead ++ wordBytes a.fs ++ wordBytes a.ph ++ wordBytes a.pl ++
    ((List.range 30).flatMap fun i => wordBytes (tabGet 0 a.g (i + 1))) ++ wordBytes a.usp ++ wordBytes a.ssp ++
    wordBytes a.hsp ++ zeros 8 ++ ((List.range 32).flatMap fun i => beBytes 16 (tabGet 0 a.f i).toNat) ++
    ((List.range 32).flatMap fun n => wordBytes (if (kLevel n).isSome then s.kRead core n else 0)) ++
    wordBytes ((p.bind Product.hi).getD a.ph) ++ wordBytes ((p.bind Product.lo).getD a.pl) ++ zeros 48

/-- The state that a state area gives a processor (R229). -/
def areaArch (bs : Bytes) : Arch :=
  let w (i : Nat) : Word := wordAt bs i
  let ps := w 2
  let msh := bits ps 13 12
  { g := (List.range 30).foldl (fun t i => tabPut 0 t (i + 1) (w (6 + i))) []
    usp := w 36, ssp := w 37, hsp := w 38
    f := (List.range 32).foldl (fun t i => tabPut 0 t i (BitVec.ofNat 128 (numAt bs (320 + 16 * i) 16))) []
    ph := w 4, pl := w 5
    products := if msh = 0 then [] else [⟨msh, some (w 136), some (w 137)⟩]
    pc := w 1, ps := ps &&& 0x1F0FF3#64, fs := w 3 &&& 0xF1F#64
    k := areaK.foldl (fun t n => tabPut 0 t n (kStored n (w (104 + n)))) [] }

/-- The area is legal: FORMAT 1, PC a multiple of 3, LEVEL 0 to 2, the reserved bytes zero (R229). -/
def areaOk (bs : Bytes) : Bool :=
  wordAt bs 0 == 1 && (wordAt bs 1).toNat % 3 == 0 && bits (wordAt bs 2) 1 0 != 3 && allZero (slice bs 312 8) &&
    allZero (slice bs 1104 48)

/-- The bytes of a partition-stage range; none where it fails translation or the owner check, or is poisoned. -/
def State.readPart (s : State) (n gpa len : Nat) : Option (Bytes × State) :=
  match s.partRange n gpa len .read with
  | none => none
  | some (ps, t) => if t.piecesPoisoned ps then none else some (t.readPieces ps)

/-- Read a state area, which waits as every access to memory does (R28, R142, R306): none where it must, and none inside where
the range fails. -/
def State.readArea (s : State) (n gpa : Nat) : Option (Option Bytes) × State :=
  match s.partRange n gpa 1152 .read with
  | none => (some none, s)
  | some (ps, _) =>
    s.reachVia (s.partTables n gpa 1152) ps false fun s => match s.readPart n gpa 1152 with
      | some (bs, t) => (some bs, t)
      | none => (none, s)

/-- Write a state area, for a requester of I/O die `d`: false where the range fails. -/
def State.writeArea (s : State) (n gpa d : Nat) (bs : Bytes) : Option Bool × State :=
  match s.partRange n gpa 1152 .write with
  | none => (some false, s)
  | some (ps, t) =>
    match s.reachVia (s.partTables n gpa 1152) ps true fun _ => ((), t.writePieces d ps bs) with
    | (some _, u) => (some true, u)
    | (none, u) => (none, u)

/-! ### Commands -/

/-- The state that a leaf cell shows: a split pair shows what its two cores do. It is ASLEEP only while both are (R27); with
one of them ASLEEP and the other STOPPED or FAULTED it shows RUNNING, which is the model's choice (log entry 85). -/
def State.leafSt (s : State) (c : Nat) : CState :=
  if cellKind c = 1 ∧ s.isSplit (cellIndex c) then
    let a := s.cst (cellNo 2 (2 * cellIndex c))
    let b := s.cst (cellNo 2 (2 * cellIndex c + 1))
    if a = .running ∨ b = .running then .running
    else if a = .draining ∨ b = .draining then .draining
    else if a = .asleep ∧ b = .asleep then .asleep
    else if a = .asleep ∨ b = .asleep then .running
    else if a = .faulted ∧ b = .faulted then .faulted
    else .stopped
  else s.cst c

/-- How many of some states are each state of R49, in the order of STATE in R661. -/
def countSt (l : List CState) : List Nat :=
  [CState.stopped, .running, .draining, .asleep, .faulted].map fun x => (l.filter (· == x)).length

/-- The state that a group derives from its members (R42). -/
def groupSt (gateway : Bool) (l : List CState) : CState :=
  if gateway ∨ l.all (· == .faulted) then .faulted
  else if l.all fun x => x == .stopped || x == .faulted then .stopped
  else if l.contains .running then .running
  else if l.contains .draining then .draining
  else .asleep

/-- The state of a die. -/
def State.dieSt (s : State) (c : Nat) : CState := groupSt (s.cst c == .faulted) ((members c).map s.leafSt)

/-- The states of the members of a group. -/
def State.memberSts (s : State) (c : Nat) : List CState :=
  if c = cellModule then (members c).map s.dieSt else (members c).map s.leafSt

/-- The state that a cell reports (R42, R49). -/
def State.showSt (s : State) (c : Nat) : CState :=
  if isGroup c then groupSt (s.cst c == .faulted) (s.memberSts c) else s.leafSt c

/-- The state of a pair in which a pair command finds it to run (R225). -/
def State.runs (s : State) (c : Nat) : Bool := s.leafSt c == .running || s.leafSt c == .asleep

/-- The cell is the spare pair of its die (R11). -/
def State.isSpare (s : State) (p : Nat) : Bool := decide (p < 52) && s.spareOf p == some p

/-- The number of processors that a partition may hold (R467): a STOPPED partition's staged value counts. -/
def State.procsMax (s : State) (n : Nat) : Nat :=
  let c := s.cell (cellNo 0x14 n)
  match c.st, c.staged with
  | .stopped, some b => (numAt b 28 1)
  | _, _ => (s.part n).cfg.procsMax

/-- SPLIT (R224 to R226, R229). A hand-over under way is refused with 0x0204 after the 0x0202 row: DESIGN CHOICE (log
entry 121). -/
def opSplit : Op where
  code := 0x0100
  len := exactly 2
  on := kindIn [1]
  classes := mgr
  run r s :=
    let p := cellIndex r.cell
    let area := r.num 0 8
    let part := r.num 8 1
    let num := r.num 9 1
    let ways := r.num 10 1
    if !allZero (slice r.pk.params 11 5) then refuse 0x0105 0 s
    else if area % 256 ≠ 0 ∨ 63 < part ∨ 95 < num ∨ 15 < ways then refuse 0x0109 0 s
    else if s.isSpare p then refuse 0x0212 0 s
    else if s.isSplit p then refuse 0x0210 0 s
    else if !s.runs r.cell then refuse 0x0202 0 s
    else if (s.pair p).job.isSome then refuse 0x0204 0 s
    else if (s.procsOf part).any fun q => q.num = num then refuse 0x0410 0 s
    else if s.procsMax part ≤ (s.procsOf part).length then refuse 0x0402 0 s
    else
      match s.readPart part area 1152 with
      | none => refuse 0x0109 0 s
      | some (bs, _) =>
        if !areaOk bs then refuse 0x0109 0 s
        else
          accepted (((s.toBoundary p).modPair p fun x =>
            { x with job := some (.split part num (if ways = 0 then 8 else ways) area r.who) }).modParts fun t =>
              { t with procs := t.procs ++ [{ core := 2 * p + 1, part := part, num := num, whole := false }] })

/-- JOIN (R224, R225, R227). -/
def opJoin : Op where
  code := 0x0101
  len := exactly 2
  on := kindIn [1]
  classes := mgr
  run r s :=
    let p := cellIndex r.cell
    let part := s.partOfCore (2 * p + 1)
    if !allZero (slice r.pk.params 8 8) then refuse 0x0105 0 s
    else if r.num 0 8 % 256 ≠ 0 then refuse 0x0109 0 s
    else if s.isSpare p then refuse 0x0212 0 s
    else if !s.isSplit p then refuse 0x0211 0 s
    else if !s.runs r.cell then refuse 0x0202 0 s
    else if (s.pair p).job.isSome then refuse 0x0204 0 s
    else if (s.partRange part (r.num 0 8) 1152 .write).isNone then refuse 0x0109 0 s
    else accepted (s.modPair p fun x => { x with job := some (.join part (r.num 0 8) r.who) })

/-- The pair of a cell that pair commands name. -/
def pairOfCell (c : Nat) : Nat :=
  match cellKind c with
  | 0x01 => cellIndex c
  | 0x0A => 52 + cellIndex c
  | _ => 56

/-- SPARE (R224, R225, R236, R238). The die's spare pair itself is refused with 0x0202, and a pair with a hand-over under
way with 0x0204, for which R225 has no row: DESIGN CHOICE (log entry 121). -/
def opSpare : Op where
  code := 0x0102
  len := exactly 0
  on := kindIn [1, 0x0A, 0x11]
  classes := mgr
  run r s :=
    let p := pairOfCell r.cell
    if s.isSplit p then refuse 0x0210 0 s
    else if 52 ≤ p then refuse 0x0403 0 s
    else
      match s.spareOf p with
      | none => refuse 0x0403 0 s
      | some q =>
        if q = p then refuse 0x0202 0 s
        else if (s.pair p).job.isSome then refuse 0x0204 0 s
        else if s.cst r.cell = .faulted ∧ ((s.pair p).ckptLost ∨ (s.pair p).sparedOut) then refuse 0x0203 0 s
        else if s.runs r.cell ∨ s.cst r.cell = .faulted then
          accepted { ((s.toBoundary p).modPair p fun x => { x with job := some (.spare q (some r.who)) }) with
                     spares := tabPut none s.spares (p / 13) none }
        else refuse 0x0202 0 s

/-- INJECT (R225, R228). -/
def opInject : Op where
  code := 0x0103
  len := exactly 1
  on := kindIn [1, 0x0A, 0x11]
  classes := mgr
  run r s :=
    let p := pairOfCell r.cell
    let w := (r.word 0).toNat
    if 256 ≤ w then refuse 0x0105 0 s
    else if 2 < w then refuse 0x0109 0 s
    else if s.isSpare p then refuse 0x0212 0 s
    else if s.isSplit p then refuse 0x0210 0 s
    else if !s.runs r.cell then refuse 0x0202 0 s
    else if w = 0 then done (s.modPair p fun x => { x with injected := some (x.opened.number + 1) })
    else done (s.delayError p (w = 1))

/-- SPLIT (R226). -/
def execSplit (pk : Pkt) (s : State) : Host.Outcome State Fault Refusal := .next (submit opSplit pk s)

/-- JOIN (R227). -/
def execJoin (pk : Pkt) (s : State) : Host.Outcome State Fault Refusal := .next (submit opJoin pk s)

/-- SPARE (R236). -/
def execSpare (pk : Pkt) (s : State) : Host.Outcome State Fault Refusal := .next (submit opSpare pk s)

/-- INJECT (R228). -/
def execInject (pk : Pkt) (s : State) : Host.Outcome State Fault Refusal := .next (submit opInject pk s)

/-! ### Hand-overs -/

/-- The pair stands at a boundary with every window committed and every store released (R231, R236). -/
def State.atRest (s : State) (p : Nat) : Bool :=
  let x := s.pair p
  x.closed.isEmpty && x.opened.isEmpty && x.committed.isEmpty && x.failRun == 0 && !x.restarting && x.failing.isNone

/-- The lines that the named ways of an L2 hold. -/
def State.wayLines (s : State) (p : Nat) (way : Nat → Bool) : List Nat :=
  (s.caches.l2.filter fun e => e.1 / 2048 = p).flatMap fun e => (e.2.filter fun c => way c.way).map CLine.line

/-- The named ways of an L2 hold a line. -/
def State.holdsL2 (s : State) (p : Nat) (way : Nat → Bool) : Bool := !(s.wayLines p way).isEmpty

/-- The lines of the named ways of an L2 are cleaned and invalidated (R231, R232): one whose write-back needs a further pin
stays for now (R326). -/
def State.emptyWays (s : State) (p : Nat) (way : Nat → Bool) : State :=
  (s.wayLines p way).foldl (fun s l =>
    let t := s.dropL2 p l
    if s.overPins t then s else t) s

/-- The L1s of a core become empty. -/
def State.emptyL1 (s : State) (core : Nat) : State :=
  let f (t : Tab (List CLine)) : Tab (List CLine) := t.filter fun e => e.1 / 64 != core
  s.modCaches fun c => { c with l1i := f c.l1i, l1d := f c.l1d }

/-- Change whether the leader of a pair is one checked processor or a core of a split pair. -/
def State.setWhole (s : State) (core : Nat) (whole : Bool) : State :=
  s.modParts fun t => { t with procs := t.procs.map fun q => if q.core = core then { q with whole := whole } else q }

/-- SPLIT_COMPLETE (R230, R231). A STOP that reaches the pair while the SPLIT is under way leaves its cell DRAINING for the
admitted command, and the leader is RUNNING after it: DESIGN CHOICE (log entry 122). -/
def execSplitComplete (pair : PairId) (s : State) : Host.Outcome State Fault Refusal :=
  let lead := leaderOf pair
  .next (match (s.pair pair).job with
  | some (.split part _ ways area who) =>
    if !s.atRest pair then s
    else
      match s.readArea part area with
      | (none, t) => t
      | (some none, _) =>
        ((s.modPair pair fun x => { x with job := none }).modParts fun t =>
          { t with procs := t.procs.filter fun q => q.core != lead + 1 }).complete who 0x0109 0 []
      | (some (some bs), t) =>
        let u := t.emptyWays pair fun w => decide (16 - ways ≤ w)
        if u.holdsL2 pair fun w => decide (16 - ways ≤ w) then s
        else
        let s := u.modPair pair fun x =>
          { x with mode := 1, job := none, shadowWays := BitVec.ofNat 4 ways, ccLeft := 0 }
        let s := (s.setWhole lead false).emptyL1 (lead + 1)
        let s := s.modCore (lead + 1) fun _ => { Core.reset with arch := areaArch bs }
        let x := s.cell (cellOfPair pair)
        let s := s.modCell (cellNo 2 lead) fun c =>
          { c with st := if (s.core lead).clockOff then .asleep else .running, waking := x.waking, idleFrom := s.now }
        let s := s.setCst (cellNo 2 (lead + 1)) .running
        s.complete who 0 0 []
  | _ => s)

/-- JOIN_COMPLETE (R230, R232). -/
def execJoinComplete (pair : PairId) (s : State) : Host.Outcome State Fault Refusal :=
  let lead := leaderOf pair
  .next (match (s.pair pair).job with
  | some (.join part area who) =>
    match s.writeArea part area (dieOfPair pair) (areaBytes s (lead + 1)) with
    | (none, t) => t
    | (some false, _) => (s.modPair pair fun x => { x with job := none }).complete who 0x0109 0 []
    | (some true, t) =>
      let sh := (s.pair pair).shadowWays.toNat
      let u := t.emptyWays pair fun w => decide (16 - sh ≤ w)
      if u.holdsL2 pair fun w => decide (16 - sh ≤ w) then s
      else
      let s := (u.emptyL1 (lead + 1)).emptyL1 lead
      let s := s.modCore lead fun c => c.finish
      let a := (s.core lead).arch
      let s := s.modPair pair fun x =>
        { x with mode := if x.cloveDead then 2 else 0, job := none, shadowWays := 0, ckpt := a, ckptLost := false,
                 ccLeft := if x.busDead then 0 else 17, closed := [], committed := [],
                 opened := Window.empty (x.opened.number + 1) }
      let s := s.modCore (lead + 1) fun _ => Core.reset
      let s := (s.modParts fun t => { t with procs := t.procs.filter fun q => q.core != lead + 1 }).setWhole lead true
      let x := s.cell (cellNo 2 lead)
      let s := s.modCell (cellOfPair pair) fun c => { c with st := x.st, waking := x.waking, idleFrom := x.idleFrom }
      let s := (s.setCst (cellNo 2 lead) .stopped).setCst (cellNo 2 (lead + 1)) .stopped
      s.complete who 0 0 []
  | _ => s)

/-- The work of one pair moves to another, with its way locks (R265, R233, R234, R236). A pair that SPARE takes it from becomes
STOPPED; one that Vixia spares stays FAULTED. -/
def State.handOver (s : State) (p q : Nat) (bySpare : Bool) : State :=
  let ev := (s.pair p).uncommitted.any Window.ev
  let s := (s.pair p).committed.foldl (fun s g => s.performStore (leaderOf p) g) s
  let s := (s.emptyWays p fun _ => true).emptyL1 (leaderOf p)
  let a0 := (s.pair p).ckpt
  let a : Arch := { a0 with ps := a0.ps ||| (if ev then 0x200#64 else 0) }
  let failed := s.cst (cellOfPair p) == .faulted
  let s := s.modPair q fun x =>
    { x with ckpt := a, ckptLost := false, sparedIn := true, ccLeft := if x.busDead then 0 else 17, failRun := 0,
             failing := none, owed := false, closed := [], committed := [], opened := Window.empty 0, restarting := false, sparedOut := false }
  let s := s.modCore (leaderOf q) fun _ => { Core.reset with arch := a }
  let s := s.modPair p fun x => { x with job := none, committed := [], closed := [], opened := Window.empty 0, sparedOut := true }
  let s := s.modParts fun t =>
    { t with procs := t.procs.map fun x => if x.core = leaderOf p then { x with core := leaderOf q } else x }
  let passed (k : WayLock) : WayLock := if k.owner = cellOfPair p then { k with owner := cellOfPair q } else k
  let s := s.modCaches fun c =>
    { c with locks := c.locks.map passed
             jobs := c.jobs.map fun j => match j with
               | .lock k preload who => .lock (passed k) preload who
               | j => j }
  let s := s.setCst (cellOfPair q) .running
  if !failed then s.cellStops (cellOfPair p) else if bySpare then s.setCst (cellOfPair p) .stopped else s

/-- SPARE_HANDOVER (R233, R234, R236): every committed store has been released, and a checkpoint that is not intact cannot be
loaded (R211). -/
def execSpareHandover (pair : PairId) (s : State) : Host.Outcome State Fault Refusal :=
  .next (match (s.pair pair).job with
  | some (.spare target who) =>
    if (s.cst (cellOfPair pair) != .faulted && !s.atRest pair) || !(s.pair pair).committed.isEmpty then s
    else
      if (s.pair pair).ckptLost then s.checkpointFails pair
      else if (s.emptyWays pair fun _ => true).holdsL2 pair fun _ => true then s
      else
      let s := s.handOver pair target who.isSome
      match who with
      | some w => s.complete w 0 0 []
      | none => s
  | _ => s)

end Sys2Proof.Machine
end

