-- ==== Sys2Proof/Machine/CacheCmds.lean ====
section
/-! DEFINITION. The cache commands and events (R247 to R250, R256 to R273): range operations, way locks, regions,
way groups, disabling, and prefetches. -/

namespace Sys2Proof.Machine

/-- Element `i` of a list, and the list without it. -/
def takeAt {α : Type} (l : List α) (i : Nat) : Option (α × List α) := (l[i]?).map fun x => (x, l.eraseIdx i)

/-! ### Lines held -/

/-- The lines that any cache holds, and the pinned ones, within a range of lines. -/
def State.heldLines (s : State) (first last : Nat) : List Nat :=
  let c := s.caches
  let of_ (t : Tab (List CLine)) : List Nat := t.flatMap fun e => e.2.map CLine.line
  distinct (((of_ c.l1i ++ of_ c.l1d ++ of_ c.l2 ++ of_ c.slice) ++ c.dirty.map Prod.fst).filter fun l =>
    decide (first ≤ l ∧ l ≤ last))

/-- Some cache holds the line dirty. -/
def State.isDirty (s : State) (l : Nat) : Bool := (tabFind s.caches.dirty l).isSome

/-- Every copy of a line becomes clean (R268): its data is in memory, or its home slice holds it pinned (R325). A write-back
that needs a pin which the home slice cannot take waits (R326). -/
def State.cleanLine (s : State) (l : Nat) : State :=
  let t := s.writeBack l
  if s.overPins t then s
  else
    let pinned := t.isDirty l
    t.modCaches fun c =>
      let c := (List.range 52).foldl (fun c p => c.modL2 p l fun set =>
        modLine set l fun x => { x with dirty := false }) c
      if pinned then c else c.modSliceSet l fun set => modLine set l fun x => { x with dirty := false }

/-- What memory holds changes below the caches: their clean copies keep their bytes (R296, R301). -/
def State.beneath (s : State) (f : State → State) : State :=
  let held := ((s.heldLines 0 (2 ^ 44)).filter fun l => !s.isDirty l).map fun l => (l, (s.lineVal l).1)
  held.foldl (fun t x => t.keepAs x.1 x.2) (f s)

/-- A clean line leaves every cache. -/
def State.dropClean (s : State) (l : Nat) : State :=
  s.modCaches fun c =>
    let c := (List.range 52).foldl (fun c p => (c.modL2 p l fun set => dropLine set l).dropL1 p l) c
    c.modSliceSet l fun set => dropLine set l

/-- Dirty data of a line goes from the L2 that holds it to its home slice; the L2 keeps it clean (LEVELS 1, R264). -/
def State.pushLine (s : State) (l : Nat) : State := s.shareOthers 52 l

/-- A modified copy in an L2. -/
def State.l2Dirty (s : State) (l : Nat) : Bool :=
  (List.range 52).any fun p => ((s.caches.l2Line p l).map CLine.dirty).getD false

/-- Some L2 holds the line. -/
def State.inL2 (s : State) (l : Nat) : Bool := (List.range 52).any fun p => (s.caches.l2Line p l).isSome

/-- The line leaves the L1s and L2s without write-back: what its home slice or memory holds is its value again. -/
def State.discardUpper (s : State) (l : Nat) : State :=
  let was := s.l2Dirty l
  s.modCaches fun c =>
    let c := (List.range 52).foldl (fun c p => (c.modL2 p l fun set => dropLine set l).dropL1 p l) c
    if was then
      match tabFind c.under l with
      | some b => { c with dirty := tabInsert c.dirty l b, under := tabErase c.under l }
      | none => { c with dirty := tabErase c.dirty l }
    else c

/-- A locked way of the slice holds the line dirty (R260). -/
def State.lockedDirty (s : State) (l : Nat) : Bool :=
  match s.caches.sliceLine l with
  | some c => c.dirty && s.caches.locks.any fun k => k.mask.getLsbD c.way
  | none => false

/-- What a range operation has done: lines written back, invalidated, and locked dirty lines discarded (R264). -/
structure RangeCount where
  written : Nat
  dropped : Nat
  locked  : Nat
  deriving DecidableEq, Repr

/-- One line under a range operation (R268 to R270). A pinned line stays, neither written nor invalidated. -/
def State.rangeLine (s : State) (op levels : Nat) (n : RangeCount) (l : Nat) : State × RangeCount :=
  let dirty := if levels = 0 then s.isDirty l else s.l2Dirty l
  let held := if levels = 0 then s.cached l else s.inL2 l
  if op ≠ 0x0202 then
    if s.isPinned l then (s, n)
    else
      let t := if levels = 0 then s.cleanLine l else s.pushLine l
      let stuck := levels == 0 && t.isDirty l
      let n := { n with written := n.written + b1 (dirty && !stuck) }
      if op = 0x0200 ∨ stuck then (t, n)
      else
        (if levels = 0 then t.dropClean l else t.discardUpper l, { n with dropped := n.dropped + b1 held })
  else
    let locked := levels == 0 && s.lockedDirty l
    let t := if levels = 0 then s.discardLine l else s.discardUpper l
    let t := if locked then t.modSlice (homeSlice (256 * l)) fun v => { v with lockedDiscard := true } else t
    (t, { n with dropped := n.dropped + b1 held, locked := n.locked + b1 locked })

/-- A range operation on physical pieces. -/
def State.rangeOp (s : State) (op levels : Nat) (ps : List (Nat × Nat)) : State × RangeCount :=
  let lines := distinct (ps.flatMap fun p => s.heldLines (lineOf p.1) (lineOf (p.1 + p.2 - 1)))
  lines.foldl (fun r l => r.1.rangeLine op levels r.2 l) (s, ⟨0, 0, 0⟩)

/-- The physical pieces of a range sent to the module cell or to a partition cell (R264, R267). -/
def State.cellRange (s : State) (part : Option Nat) (base len : Nat) : Option (List (Nat × Nat)) :=
  match part with
  | none => some [(base, len)]
  | some n => (pagePieces (len / 4096 + 2) base len).foldl (fun r p =>
      match r, (s.assignedAddr n p.1).filter fun pa => decide (pa < pcieBase) with
      | some l, some pa => some (l ++ [(pa, p.2)])
      | _, _ => none) (some [])

/-- The partition of a partition cell. -/
def partOfCell (c : Nat) : Option Nat := if cellKind c = 0x14 then some (cellIndex c) else none

/-- CLEAN_RANGE, FLUSH_RANGE and INVAL_RANGE (R263, R264, R267). -/
def rangeOpcode (code : Nat) (kinds : List Nat) (cl : Nat → List Nat) : Op where
  code := code
  len := exactly 3
  on := kindIn kinds
  classes := cl
  run r s :=
    let base := r.num 0 8
    let len := r.num 8 8
    let levels := r.num 16 1
    let part := partOfCell r.cell
    if !allZero (slice r.pk.params 17 7) then refuse 0x0105 0 s
    else if base % 256 ≠ 0 ∨ len % 256 ≠ 0 ∨ len = 0 ∨ 1 < levels then refuse 0x0109 0 s
    else if (s.cellRange part base len).isNone then refuse 0x0109 0 s
    else accepted (s.modCaches fun c =>
      { c with jobs := c.jobs ++ [.range (BitVec.ofNat 16 code) base len levels part r.who] })

def opCleanRange : Op := rangeOpcode 0x0200 [0x18, 0x14] tenantOnPart
def opFlushRange : Op := rangeOpcode 0x0201 [0x18, 0x14] tenantOnPart
def opInvalRange : Op := rangeOpcode 0x0202 [0x18] mgr

/-- CLEAN_RANGE (R268). -/
def execCleanRange (pk : Pkt) (s : State) : Host.Outcome State Fault Refusal := .next (submit opCleanRange pk s)

/-- FLUSH_RANGE (R268). -/
def execFlushRange (pk : Pkt) (s : State) : Host.Outcome State Fault Refusal := .next (submit opFlushRange pk s)

/-- INVAL_RANGE (R260, R268). -/
def execInvalRange (pk : Pkt) (s : State) : Host.Outcome State Fault Refusal := .next (submit opInvalRange pk s)

/-- Take a cache job out of the list of those under way. -/
def State.takeCacheJob (s : State) (i : Nat) : Option (CacheJob × State) :=
  (takeAt s.caches.jobs i).map fun x => (x.1, s.modCaches fun c => { c with jobs := x.2 })

/-- A write-back of the range would need a pin beyond those that a home slice holds, so it waits (R326). -/
def State.rangeWaits (s : State) (op : BitVec 16) (levels : Nat) (ps : List (Nat × Nat)) : Bool :=
  op != 0x0202 && levels == 0 &&
    (distinct (ps.flatMap fun p => s.heldLines (lineOf p.1) (lineOf (p.1 + p.2 - 1)))).any fun l =>
      s.isDirty l && !s.isPinned l && s.overPins (s.writeBack l)

/-- RANGE_OP_COMPLETE (R264, R268 to R270): `job` is the place of the operation among those under way. -/
def execRangeOpComplete (job : Nat) (s : State) : Host.Outcome State Fault Refusal :=
  .next (match s.takeCacheJob job with
  | some (.range op base len levels part who, t) =>
    let ps := (t.cellRange part base len).getD []
    if t.rangeWaits op levels ps then s
    else
    let (u, n) := t.rangeOp op.toNat levels ps
    if t.overPins u then s
    else u.complete who 0 0 (beBytes 4 n.written ++ beBytes 4 n.dropped ++ beBytes 4 n.locked ++ zeros 4)
  | _ => s)

/-! ### Way locks -/

/-- The ways that belong to a lock in force or accepted. -/
def State.lockedWays (s : State) : BitVec 32 :=
  let jobs := s.caches.jobs.foldl (fun m j => match j with
    | .lock l _ _ => m ||| l.mask
    | _ => m) 0#32
  s.caches.locks.foldl (fun m k => m ||| k.mask) jobs

/-- The ways of a mask. -/
def waysIn (m : BitVec 32) : List Nat := (List.range 32).filter fun w => m.getLsbD w

/-- The cell is a privileged requester (R251, R265). -/
def lockOwner (c : Nat) : Bool := decide (cellKind c = 1 ∧ cellIndex c < 52) || c == cellJournal || c == cellVixia

/-- LOCK_WAYS (R258, R262, R265). -/
def opLockWays : Op where
  code := 0x0203
  len := exactly 4
  on := kindIn [0x18]
  classes := mgr
  run r s :=
    let mask := BitVec.ofNat 32 (r.num 0 4)
    let owner := r.num 4 4
    let base := r.num 8 8
    let len := r.num 16 8
    let flags := r.num 24 1
    let ways := waysIn mask
    let unit := 2 ^ 24
    let off := (List.range 4).any fun d => ways.any fun w =>
      !(s.slice d).groupOn.getLsbD (w / 4) || (s.slice d).cleaning.getLsbD (w / 4)
    if !allZero (slice r.pk.params 25 7) then refuse 0x0105 0 s
    else if mask &&& s.lockedWays ≠ 0 then refuse 0x0220 0 s
    else if 1 < flags ∨ mask = 0 ∨ !lockOwner owner ∨ base % unit ≠ 0 ∨ len % unit ≠ 0 ∨ len = 0 ∨
        unit * ways.length < len then refuse 0x0109 0 s
    else if off then refuse 0x0221 0 s
    else if 8 < (waysIn (mask ||| s.lockedWays)).length then refuse 0x0420 0 s
    else accepted (s.modCaches fun c =>
      { c with jobs := c.jobs ++ [.lock { mask := mask, owner := owner, base := base, len := len } (flags = 1) r.who] })

/-- LOCK_WAYS (R265). -/
def execLockWays (pk : Pkt) (s : State) : Host.Outcome State Fault Refusal := .next (submit opLockWays pk s)

/-- The ways into which PRELOAD fills a line: those of the lock that hold no other line of its range, so that the whole range
stands in them at the end (R265). -/
def State.preloadWays (s : State) (k : WayLock) (l : Nat) : List Nat :=
  let set := tabGet [] s.caches.slice (setSlice (256 * l))
  (s.sliceWays k.owner (256 * l)).filter fun w =>
    !(set.any fun c => decide (c.way = w ∧ k.base ≤ 256 * c.line ∧ 256 * c.line < k.base + k.len))

/-- PRELOAD brings a line into the locked ways (R260, R265): one that other ways hold moves there. -/
def State.preload (s : State) (k : WayLock) (l : Nat) : State :=
  match s.caches.sliceLine l with
  | some c =>
    if k.mask.getLsbD c.way then s
    else
      let t := (s.leaveSlice l).sliceFillIn (s.preloadWays k l) l c.dirty c.pf
      if t.inSlice l then t else s
  | none => (if s.cached l then s else s.noteRead l).sliceFillIn (s.preloadWays k l) l false false

/-- The lines of a lock's range that a further fill could still bring in: a way is eligible for them, and only a victim that
cannot leave yet keeps them out (R326). -/
def State.preloadLeft (s : State) (k : WayLock) : Bool :=
  (List.range (k.len / 256)).any fun i =>
    let l := k.base / 256 + i
    !s.inSlice l && s.sliceState l == .running && !(s.preloadWays k l).isEmpty

/-- LOCK_WAYS_COMPLETE (R265): the lock is in force, and with PRELOAD its range has been filled. A slice whose data array is
off, and a set in which every way of the lock is retired, take no line and do not keep DONE back: DESIGN CHOICE (log entry
124). -/
def execLockWaysComplete (job : Nat) (s : State) : Host.Outcome State Fault Refusal :=
  .next (match s.takeCacheJob job with
  | some (.lock l preload who, t) =>
    let t := t.modCaches fun c => { c with locks := c.locks ++ [l] }
    let t := if preload then
        (List.range (l.len / 256)).foldl (fun t i => t.preload l (l.base / 256 + i)) t
      else t
    if preload ∧ t.preloadLeft l then s else t.complete who 0 0 []
  | _ => s)

/-- UNLOCK_WAYS (R263, R265). -/
def opUnlockWays : Op where
  code := 0x0204
  len := exactly 1
  on := kindIn [0x18]
  classes := mgr
  run r s :=
    let w := r.word 0
    if badWord w 0xFFFFFFFF ≠ 0 then refuse (badWord w 0xFFFFFFFF) 0 s
    else
      done (s.modCaches fun c =>
        { c with locks := (c.locks.map fun k => { k with mask := k.mask &&& ~~~(w.setWidth 32) }).filter fun k =>
            k.mask != 0 })

/-- UNLOCK_WAYS (R260). -/
def execUnlockWays (pk : Pkt) (s : State) : Host.Outcome State Fault Refusal := .next (submit opUnlockWays pk s)

/-! ### Regions -/

/-- REGION_SET (R256, R266). -/
def opRegionSet : Op where
  code := 0x0205
  len := exactly 3
  on := kindIn [0x18]
  classes := mgr
  run r s :=
    let e := r.num 0 1
    let a : Byte := r.pk.params.getD 1 0
    let base := r.num 8 8
    let limit := r.num 16 8
    let new : Region :=
      { valid := a.getLsbD 7, base := base / 2 ^ 21, limit := limit / 2 ^ 21, policy := a.setWidth 2,
        allocR := a.getLsbD 2, allocW := a.getLsbD 3, stream := a.getLsbD 4 }
    if !allZero (slice r.pk.params 2 6) then refuse 0x0105 0 s
    else if 63 < e ∨ bits a 6 5 ≠ 0 ∨ bits a 1 0 = 3 ∨ base % 2 ^ 21 ≠ 0 ∨ limit % 2 ^ 21 ≠ 0 ∨ limit < base ∨
        2 ^ 52 ≤ limit then refuse 0x0109 0 s
    else
      accepted (s.modCaches fun c =>
        { c with jobs := c.jobs ++ [.region e new r.who] })

/-- REGION_SET (R266). -/
def execRegionSet (pk : Pkt) (s : State) : Host.Outcome State Fault Refusal := .next (submit opRegionSet pk s)

/-- The policy of an address under a table (R252). -/
def policyOf (t : Tab Region) (pa : Nat) : Nat :=
  match t.find? fun e => e.2.covers pa with
  | some (_, r) => r.policy.toNat
  | none => 0

/-- REGION_SET_COMPLETE (R256): lines that leave WB are cleaned, lines that become UNCACHED leave the caches. It waits for a
write-back that needs a further pin (R326). -/
def execRegionSetComplete (job : Nat) (s : State) : Host.Outcome State Fault Refusal :=
  .next (match s.takeCacheJob job with
  | some (.region e new who, t) =>
    let old := tabGet Region.reset t.caches.regions e
    let table := tabPut Region.reset t.caches.regions e new
    let before := t.caches.regions
    let lines := (t.heldLines 0 (2 ^ 44)).filter fun l => old.covers (256 * l) || new.covers (256 * l)
    let t := lines.foldl (fun t l =>
      let a := policyOf before (256 * l)
      let b := policyOf table (256 * l)
      let t := if a = 0 ∧ b ≠ 0 then t.cleanLine l else t
      if a ≠ 2 ∧ b = 2 then
        let t := t.cleanLine l
        if t.isDirty l ∧ !t.isPinned l then t else t.dropClean l
      else t) t
    let stuck := lines.any fun l =>
      policyOf before (256 * l) != policyOf table (256 * l) && policyOf table (256 * l) != 0 && t.isDirty l && !t.isPinned l
    if stuck then s else (t.modCaches fun c => { c with regions := table }).complete who 0 0 []
  | _ => s)

/-! ### Way groups -/

/-- The slices that a command to the module cell or a slice names. -/
def slicesOf (c : Nat) : List Nat := if cellKind c = 3 then [cellIndex c] else List.range 4

/-- The lock mask names a way of a group in the mask. -/
def groupLocked (locked : BitVec 32) (mask : BitVec 8) : Bool :=
  (List.range 32).any fun w => locked.getLsbD w && mask.getLsbD (w / 4)

/-- WAYS_OFF (R261 to R263). -/
def opWaysOff : Op where
  code := 0x0206
  len := exactly 1
  on := kindIn [0x18, 3]
  classes := mgr
  run r s :=
    let m := BitVec.ofNat 8 (r.word 0).toNat
    if badWord (r.word 0) 0xFF ≠ 0 then refuse (badWord (r.word 0) 0xFF) 0 s
    else if m.getLsbD 0 then refuse 0x0109 0 s
    else if groupLocked s.lockedWays m then refuse 0x0220 0 s
    else
      let t := (slicesOf r.cell).foldl (fun s d => s.modSlice d fun v => { v with cleaning := v.cleaning ||| (m &&& v.groupOn) }) s
      accepted (t.modCaches fun c => { c with jobs := c.jobs ++ [.waysOff (slicesOf r.cell) m r.who] })

/-- WAYS_OFF (R261). -/
def execWaysOff (pk : Pkt) (s : State) : Host.Outcome State Fault Refusal := .next (submit opWaysOff pk s)

/-- Clean and invalidate the lines of a slice's chosen ways; a line whose write-back cannot be taken yet stays
(R326). -/
def State.emptySliceWays (s : State) (d : Nat) (way : Nat → Bool) : State :=
  let lines := (s.caches.slice.filter fun e => e.1 / 16384 = d).flatMap fun e =>
    (e.2.filter fun c => way c.way).map fun c => (c.line, c.dirty)
  lines.foldl (fun s l =>
    let t := if l.2 then s.evictSlice l.1 else s
    if s.overPins t then s else if t.isPinned l.1 then t else t.leaveSlice l.1) s

/-- The slice holds a line in one of the ways. -/
def State.holdsWays (s : State) (d : Nat) (way : Nat → Bool) : Bool :=
  s.caches.slice.any fun e => e.1 / 16384 = d && e.2.any fun c => way c.way

/-- WAYS_OFF_COMPLETE (R261). -/
def execWaysOffComplete (job : Nat) (s : State) : Host.Outcome State Fault Refusal :=
  .next (match s.takeCacheJob job with
  | some (.waysOff ds m who, t) =>
    let way (w : Nat) : Bool := m.getLsbD (w / 4)
    let t := ds.foldl (fun t d => t.emptySliceWays d way) t
    if ds.any fun d => t.holdsWays d way then { t with caches := { t.caches with jobs := s.caches.jobs } }
    else
      let t := ds.foldl (fun t d => t.modSlice d fun v =>
        { v with groupOn := v.groupOn &&& ~~~m, cleaning := v.cleaning &&& ~~~m }) t
      t.complete who 0 0 []
  | _ => s)

/-- WAYS_ON (R262, R263). -/
def opWaysOn : Op where
  code := 0x0207
  len := exactly 1
  on := kindIn [0x18, 3]
  classes := mgr
  run r s :=
    if badWord (r.word 0) 0xFF ≠ 0 then refuse (badWord (r.word 0) 0xFF) 0 s
    else accepted (s.modCaches fun c =>
      { c with jobs := c.jobs ++ [.waysOn (slicesOf r.cell) (BitVec.ofNat 8 (r.word 0).toNat) r.who] })

/-- WAYS_ON (R262). -/
def execWaysOn (pk : Pkt) (s : State) : Host.Outcome State Fault Refusal := .next (submit opWaysOn pk s)

/-- WAYS_ON_COMPLETE (R262): the groups return empty. -/
def execWaysOnComplete (job : Nat) (s : State) : Host.Outcome State Fault Refusal :=
  .next (match s.takeCacheJob job with
  | some (.waysOn ds m who, t) =>
    (ds.foldl (fun t d => t.modSlice d fun v => { v with groupOn := v.groupOn ||| m }) t).complete who 0 0 []
  | _ => s)

/-! ### Disabling -/

/-- CACHE_DISABLE (R263, R273). -/
def opCacheDisable : Op where
  code := 0x0208
  len := exactly 1
  on := kindIn [1]
  classes := mgr
  run r s :=
    let p := cellIndex r.cell
    let m : BitVec 3 := (r.word 0).setWidth 3
    if badWord (r.word 0) 7 ≠ 0 then refuse (badWord (r.word 0) 7) 0 s
    else
      let now := s.atBoundary p
      let t := if now then s.beginDisable p m else s
      accepted (t.modCaches fun c => { c with jobs := c.jobs ++ [.disable p m now r.who] })

/-- CACHE_DISABLE (R273). -/
def execCacheDisable (pk : Pkt) (s : State) : Host.Outcome State Fault Refusal := .next (submit opCacheDisable pk s)

/-- CACHE_DISABLE_COMPLETE (R273): the clean of the L2 is complete. A checked pair begins at a window boundary, which may not
have come yet. -/
def execCacheDisableComplete (job : Nat) (s : State) : Host.Outcome State Fault Refusal :=
  .next (match s.takeCacheJob job with
  | some (.disable p m begun who, t) =>
    if !begun then s.startDisables p
    else
      let u := if m.getLsbD 2 then t.emptyWays p fun _ => true else t
      if m.getLsbD 2 ∧ (u.holdsL2 p fun _ => true) then s
      else
        (u.modPair p fun x => { x with l2State := if m.getLsbD 2 ∧ x.l2State = 1 then 2 else x.l2State }).complete who 0 0
          []
  | _ => s)

/-- CACHE_ENABLE (R263, R273). -/
def opCacheEnable : Op where
  code := 0x0209
  len := exactly 1
  on := kindIn [1]
  classes := mgr
  run r s :=
    let p := cellIndex r.cell
    let m : BitVec 3 := (r.word 0).setWidth 3
    if badWord (r.word 0) 7 ≠ 0 then refuse (badWord (r.word 0) 7) 0 s
    else if (m.getLsbD 0 ∨ m.getLsbD 1) ∧ (s.pair p).l2State ≠ 0 then refuse 0x0222 0 s
    else
      done (s.modPair p fun x =>
        { x with l1iOn := x.l1iOn || m.getLsbD 0, l1dOn := x.l1dOn || m.getLsbD 1,
                 l2State := if m.getLsbD 2 then 0 else x.l2State })

/-- CACHE_ENABLE (R273). -/
def execCacheEnable (pk : Pkt) (s : State) : Host.Outcome State Fault Refusal := .next (submit opCacheEnable pk s)

/-- PREFETCH_SET (R263). -/
def opPrefetchSet : Op where
  code := 0x020A
  len := exactly 1
  on := kindIn [1, 3]
  classes := mgr
  run r s :=
    let w := r.word 0
    let on := bitOf w 0
    let dist := bits w 11 8
    if badWord w 0xF01 ≠ 0 then refuse (badWord w 0xF01) 0 s
    else if 8 < dist then refuse 0x0109 0 s
    else if cellKind r.cell = 1 then
      done (s.modPair (cellIndex r.cell) fun x => { x with pfOn := on, pfDist := BitVec.ofNat 4 dist })
    else
      done (s.modCaches fun c =>
        { c with slicePfOn := tabPut true c.slicePfOn (cellIndex r.cell) on,
                 slicePfDist := tabPut 8 c.slicePfDist (cellIndex r.cell) (BitVec.ofNat 4 dist) })

/-- PREFETCH_SET (R263). -/
def execPrefetchSet (pk : Pkt) (s : State) : Host.Outcome State Fault Refusal := .next (submit opPrefetchSet pk s)

/-! ### Prefetches -/

/-- The lines that a slot may ask for: up to `n` strides beyond the last, inside its page (R247, R248). -/
def Stride.lines (x : Stride) (n : Nat) : List Nat :=
  ((List.range n).map fun (i : Nat) => (x.last : Int) + x.stride * ((i + 1 : Nat) : Int)).filterMap fun l =>
    if 0 ≤ l ∧ (x.lo : Int) ≤ l ∧ l ≤ x.hi then some l.toNat else none

/-- A prefetch waits for a granule operation (R306), for ASLEEP channels, which begin to wake (R28, R666), and for a slice
that can hold no further pinned line (R326); otherwise it is performed. -/
def State.whenAwake (s : State) (l : Nat) (f : State → State) : State :=
  if s.granuleBusy (256 * l) then s
  else if s.cached l ∨ (s.asleepChans l false).isEmpty then
    let t := f (if s.cached l then s else s.noteRead l)
    if s.overPins t then s else t
  else s.touchChans (s.asleepChans l false)

/-- A trained slot brings the lines ahead of its load, PF_DIST at most, into the pair's L2 (R247, R248) and their home slice:
into the ways of the core that loads (R257), at age 3 (R244), where the region lets a read allocate (R254). -/
def State.stridePrefetch (s : State) (p key : Nat) : State :=
  match (tabGet [] s.caches.l2Strides p).find? fun x => x.key = key with
  | none => s
  | some x =>
    if !(s.pair p).pfOn ∨ (s.pair p).l2State ≠ 0 then s
    else
      (x.lines (min x.ahead (s.pair p).pfDist.toNat)).foldl (fun s l =>
        if (s.attr (256 * l)).policy = 2 ∨ !(s.attr (256 * l)).allocR ∨ (s.caches.l2Line p l).isSome then s
        else s.whenAwake l fun s =>
          let s := s.shareOthers p l
          (if s.inSlice l then s else s.sliceFill (cellNo 1 p) l false false).l2Fill x.core l 3 false true) s

/-- STRIDE_PREFETCH (R247, R248). -/
def execStridePrefetch (pair : PairId) (key : BitVec 48) (s : State) : Host.Outcome State Fault Refusal :=
  .next (s.stridePrefetch pair key.toNat)

/-- A read by a mover or an engine trains its slots in the line's home slice, keyed by the 4 KiB page (R249). How such a slot
trains is that of R247, and a trained one asks for 8 lines ahead at once, or for the distance of PREFETCH_SET, not kept to the
page: DESIGN CHOICE (log entry 83). -/
def State.trainStream (s : State) (requester l : Nat) : State :=
  let d := homeSlice (256 * l)
  if tabGet true s.caches.slicePfOn d then
    let page := l / 16
    s.modCaches fun c =>
      { c with sliceStrides := tabMod [] c.sliceStrides (d + 4 * requester) fun x =>
          trainSlots x page 0 l (min 8 (tabGet 8 c.slicePfDist d).toNat) 0 (2 ^ 44 - 1) 16 }
  else s

/-- A trained stream slot brings lines into the slice (R249, R250): for a mover only while its I/O die has 64
unspent tokens. -/
def State.streamPrefetch (s : State) (d requester page : Nat) : State :=
  match (tabGet [] s.caches.sliceStrides (d + 4 * requester)).find? fun x => x.key = page with
  | none => s
  | some x =>
    let starved := cellKind requester == 0x0B && decide ((s.ioDie (cellIndex requester / 32)).tokens < 64)
    if starved || !tabGet true s.caches.slicePfOn d then s
    else
      (x.lines (if x.ahead = 0 then 0 else min 8 (tabGet 8 s.caches.slicePfDist d).toNat)).foldl (fun s l =>
        if (s.attr (256 * l)).policy = 2 ∨ (s.attr (256 * l)).frozen ∨ s.inSlice l then s
        else s.whenAwake l fun s => (s.shareOthers 52 l).sliceFill requester l false true) s

/-- DMA_STREAM_PREFETCH (R249, R250): the requester is a mover's or an engine's cell number. -/
def execDmaStreamPrefetch (slice : Fin 4) (requester page : Nat) (s : State) : Host.Outcome State Fault Refusal :=
  .next (s.streamPrefetch slice requester page)

/-! ### Errors in the caches -/

/-- A line's data in an L2 cannot be read (R274): a clean line leaves it, for the next access to fetch again; a dirty one is
written back poisoned. The result says whether it was dirty. -/
def State.l2Lost (s : State) (p l : Nat) : Bool × State :=
  match s.caches.l2Line p l with
  | none => (false, s)
  | some c => (c.dirty, (if c.dirty then s.setBad l true else s).dropL2 p l)

/-- The same in the home slice. An L2 that has modified the line since keeps its own data. -/
def State.sliceLost (s : State) (l : Nat) : Bool × State :=
  match s.caches.sliceLine l with
  | none => (false, s)
  | some c =>
    if !c.dirty then (false, s.leaveSlice l)
    else
      match tabFind s.caches.under l, tabFind s.caches.dirty l with
      | some old, some new =>
        let bad := s.caches.bad.contains l
        (true, (((s.putBack l old true).modCaches fun k =>
          { k with dirty := tabInsert k.dirty l new, under := tabErase k.under l }).setBad l bad).leaveSlice l)
      | _, _ => (true, ((s.setBad l true).writeBack l).leaveSlice l)

/-- An error in a pair's L1 (R274): in a checked pair its window fails, at level 1; in a split core the line is invalidated,
at level 0. -/
def State.l1Error (s : State) (core : Nat) (fetch : Bool) (l : Nat) : State :=
  let p := pairOfCore core
  if s.isSplit p then
    (s.modCaches fun c =>
      if fetch then { c with l1i := Caches.modL1 c.l1i core l fun set => dropLine set l }
      else { c with l1d := Caches.modL1 c.l1d core l fun set => dropLine set l }).reportCell (cellOfPair p) 0
  else (if s.checks p then s.failOpen p false else s).reportCell (cellOfPair p) 1

/-- An error in an L2 (R274): an error in its tags retires the way in the set, and sets TAG_UE of the line's home slice, the
one bit of that name (R277): DEDUCED (log entry 133). -/
def State.l2Error (s : State) (p : Nat) (tag : Bool) (l : Nat) (correctable : Bool) : State :=
  if correctable then s.reportCell (cellOfPair p) 0
  else
    let way := (s.caches.l2Line p l).map CLine.way
    let (dirty, t) := s.l2Lost p l
    let t := match tag, way with
      | true, some w => t.modCaches fun c => { c with retiredL2 := c.retiredL2 ++ [(setL2 p (256 * l), w)] }
      | _, _ => t
    let t := if tag then t.modSlice (homeSlice (256 * l)) fun v => { v with tagUe := true } else t
    t.reportCell (cellOfPair p) (if tag ∨ !dirty then 1 else 2)

/-- An error in the home slice of a line (R274, R277). -/
def State.sliceError (s : State) (tag : Bool) (l : Nat) (correctable : Bool) : State :=
  let d := homeSlice (256 * l)
  if correctable then s.reportCell (cellNo 3 d) 0
  else
    let way := (s.caches.sliceLine l).map CLine.way
    let (dirty, t) := s.sliceLost l
    let t := match tag, way with
      | true, some w => t.modCaches fun c => { c with retiredSlice := c.retiredSlice ++ [(setSlice (256 * l), w)] }
      | _, _ => t
    let t := t.modSlice d fun v => if tag then { v with tagUe := true } else { v with dataUe := true }
    t.reportCell (cellNo 3 d) (if tag ∨ !dirty then 1 else 2)

/-- An error in the directory entry of a line (R274, R277): the line leaves every L2, a modified copy being written back. -/
def State.directoryError (s : State) (l : Nat) (correctable : Bool) : State :=
  let d := homeSlice (256 * l)
  if correctable then s.reportCell (cellNo 3 d) 0
  else
    let t := s.dropOthers 52 l
    ((if s.overPins t then s else t).modSlice d fun v => { v with tagUe := true }).reportCell (cellNo 3 d) 1

/-- An error in an entry of a pair's gated-store buffer (R211): of an uncommitted window, which fails, or of a committed
one, which stops the pair. The event does not say which uncommitted window holds the entry, and the model takes the latest that
holds one: DESIGN CHOICE (log entry 125). -/
def State.gatedError (s : State) (p : Nat) (correctable committed : Bool) : State :=
  if correctable then s.reportCell (cellOfPair p) 0
  else if committed then s.stopCore (leaderOf p)
  else
    let n := ((s.pair p).uncommitted.filter fun w => !w.stores.isEmpty).getLast?.map Window.number
    (if s.checks p then s.failAt p (n.getD (s.pair p).opened.number) false else s).reportCell (cellOfPair p) 1

/-! ### Stopping a slice -/

/-- SLICE_DRAIN_COMPLETE (R272). -/
def execSliceDrainComplete (slice : Fin 4) (s : State) : Host.Outcome State Fault Refusal :=
  let c := cellNo 3 slice
  .next (if s.cst c = .draining then
    let s := s.emptySliceWays slice fun _ => true
    if (s.holdsWays slice fun _ => true) ∨ s.pinsOf slice ≠ 0 then s else s.cellStops c
  else s)

end Sys2Proof.Machine
end

