-- ==== Sys2Proof/Machine/MemCmds.lean ====
section
/-! DEFINITION. Main memory's commands and events (chapter 07): channels, patrol scrub, keys, zeroing, and the
compressed tier. -/

namespace Sys2Proof.Machine

/-! ### Channels -/

/-- The address whose line a channel holds at a local line (R287); none for a parity line or beyond its set. -/
def State.addrOf (s : State) (ch line : Nat) : Option Nat :=
  match s.setOfChan ch with
  | none => none
  | some m =>
    let l : Option Nat :=
      if m.redundant then
        let p := line % 6
        let gi := m.groups.idxOf (ch / 6)
        if ch % 6 = p then none
        else some ((5 * line + ((List.range 6).filter (· != p)).idxOf (ch % 6)) * m.groups.length + gi)
      else some (line * m.channels.length + m.channels.idxOf ch)
    l.map fun n => m.baseGib * 2 ^ 30 + 256 * n

/-- The partitions that hold a granule of a set (R301). -/
def State.holdersOf (s : State) (m : MemSet) : List Nat :=
  distinct (s.parts.owner.filterMap fun e => if m.baseGib ≤ e.1 ∧ e.1 ≤ m.limitGib then e.2 else none)

/-- A redundant group completes its open stripes from the write-intent buffer (R298). -/
def State.completeIntents (s : State) (g : Nat) : State :=
  let s := (s.mem.intents.filter fun x => x.group = g).foldl (fun s x => s.rawWrite x.pa x.bytes) s
  s.modMem fun m => { m with intents := m.intents.filter fun x => x.group != g }

/-- A START that waits for a channel's rebuild ends (R302): with DONE when the rebuild ends, with CELL_FAILED when the
channel fails first (R51). A START of a group ends with the last channel that it waits for (R56). -/
def State.endRebuild (s : State) (ch status : Nat) : State :=
  let who := (s.chan ch).starter
  let s := s.modChan ch fun x => { x with rebuild := none, starter := none }
  let s := match who with
    | some who => s.complete who status 0 []
    | none => s
  let gs := s.mem.groupStarts.map fun g =>
    if g.left.contains ch then { g with left := g.left.erase ch, failed := g.failed || status != 0 } else g
  let s := s.modMem fun m => { m with groupStarts := gs.filter fun g => !g.left.isEmpty }
  (gs.filter fun g => g.left.isEmpty).foldl (fun s g => s.complete g.who (if g.failed then 0x0503 else 0) 0 []) s

/-- A further channel of a degraded group fails: what each lost channel holds from its rebuild point on is gone, and is written
poisoned when the channel returns (R302). -/
def State.groupLoss (s : State) (ch : Nat) : State :=
  let others := (s.lostIn (ch / 6)).filter (· != ch)
  let point (c : Nat) : Nat := (s.chan c).rebuild.getD 0
  match others.map point with
  | [] => s
  | k :: ks =>
    let at_ := s.mem.fresh.length
    let gone (s : State) (c from_ : Nat) : State := s.modChan c fun x => { x with wiped := x.wiped ++ [(at_, from_)] }
    (others.foldl (fun t c => gone t c (point c)) s) |> fun t => gone t ch (ks.foldl min k)

/-- A channel becomes FAULTED (R298, R299, R301). One that no set holds is reported at level 2. What the caches hold of its
lines stays. -/
def State.channelFault (s : State) (ch : Nat) : State :=
  let c := cellNo 4 ch
  if s.cst c = .faulted then s
  else
    let redundant := match s.setOfChan ch with
      | some m => m.redundant
      | none => false
    let s := s.beneath fun s =>
      let s := if redundant then s.groupLoss ch else s
      let s := (s.endRebuild ch 0x0503).completeIntents (ch / 6)
      (s.failCell c).modChan ch fun x => { x with lost := true, retries := 0 }
    match s.setOfChan ch with
    | none => s.reportCell c 2
    | some m =>
      if m.redundant ∧ (s.lostIn (ch / 6)).length < 2 then s.reportCell c 2
      else s.reportCell c 3

/-- CHANNEL_LINK_RETRY (R281). -/
def execChannelLinkRetry (ch : Fin 24) (passed : Bool) (s : State) : Host.Outcome State Fault Refusal :=
  let n := (s.chan ch).retries + 1
  let t := s.modChan ch fun c => { c with linkRetry := true, retries := if passed then 0 else n }
  .next (if !passed ∧ 8 ≤ n then (t.channelFault ch).reportCell (cellNo 4 ch) 2 else t)

/-- CHANNEL_FAULT (R301). -/
def execChannelFault (ch : Fin 24) (s : State) : Host.Outcome State Fault Refusal := .next (s.channelFault ch)

/-- A device's corrected error (R295). -/
def State.deviceError (s : State) (ch : Nat) (dev : Byte) : State :=
  let n := tabGet 0 (s.chan ch).devErrors dev.toNat + 1
  let s := s.modChan ch fun c => { c with ce := satAdd c.ce 1, devErrors := tabPut 0 c.devErrors dev.toNat n }
  if (s.chan ch).devLimit ≤ n ∧ (s.chan ch).failedDevice = 0xFF then
    (s.modChan ch fun c => { c with failedDevice := dev, marked := true }).reportCell (cellNo 4 ch) 2
  else s

/-- What the controller makes of the errors of an ECC block. -/
inductive EccResult where
  /-- no error beside those of the device marked failed, which are erasures (R295) -/
  | clean
  /-- errors of one device, corrected -/
  | corrected (device : Byte)
  /-- detected, and not corrected -/
  | uncorrectable
  /-- the table of R293 promises neither correction nor detection -/
  | open_
  deriving DecidableEq, Repr

/-- Correct and detect by the table of R293: the device width, the marked device, and the devices in error with their
symbols. -/
def eccDecode (x8 : Bool) (failed : Byte) (devices : List (Byte × Nat)) : EccResult :=
  match devices.filter fun d => d.1 != failed && decide (0 < d.2) with
  | [] => .clean
  | [(d, n)] => if failed = 0xFF ∨ !x8 ∨ n ≤ 4 then .corrected d else .open_
  | [_, _] => if !x8 ∧ failed = 0xFF then .uncorrectable else .open_
  | _ => .open_

/-- Eight fresh open words. -/
def State.freshWords (s : State) : Nat → Bytes × State
  | 0 => ([], s)
  | n + 1 =>
    let (w, s) := s.fresh
    let (bs, s) := State.freshWords s n
    (wordBytes w ++ bs, s)

/-- An error that the table of R293 leaves open: an open value says whether it is detected; else the block reads as
something else (log entry 84). -/
def State.openError (s : State) (ch line block : Nat) : Bool × State :=
  let (w, s) := s.fresh
  if bitOf w 0 then (true, s)
  else
    let (bs, s) := s.freshWords 8
    (false, match s.addrOf ch line with
      | some pa => s.rawWrite (pa + 64 * block) bs
      | none => s)

/-- An uncorrectable error (R296, R300, R302): a group that is not degraded rebuilds the line from the other five channels,
which it wakes (R666), and rewrites it. Otherwise the block is poisoned, which patrol reports at level 2, while a demand read
leaves the report to R275. -/
def State.eccUe (s : State) (ch line block : Nat) (patrol : Bool) : State :=
  let s := s.modChan ch fun c => { c with ue := satAdd c.ue 1, ueSeen := true }
  match s.setOfChan ch with
  | some m =>
    if m.redundant ∧ (s.lostIn (ch / 6)).isEmpty then
      (s.touchChans (((List.range 6).map (6 * (ch / 6) + ·)).filter (· != ch))).reportCell (cellNo 4 ch) 1
    else
      let s := match s.addrOf ch line with
        | some pa => s.setPoison (pa / 64 + block)
        | none => s
      if patrol then s.reportCell (cellNo 4 ch) 2 else s
  | none => s

/-- A controller reads an ECC block with errors (R293 to R296). A block that carries the poison mark decodes under it and is
no error (R294), nor is an error corrected in it counted: DEDUCED (log entry 133). The copies in the caches stay as they are. -/
def State.eccRead (s : State) (ch line : Nat) (e : BlockErr) (patrol : Bool) : State :=
  let marked := match s.addrOf ch line with
    | some pa => s.mem.poison.contains (pa / 64 + e.block)
    | none => false
  let bad (s : State) : State := if marked then s else s.eccUe ch line e.block patrol
  s.beneath fun s =>
    match eccDecode (s.chan ch).x8 (s.chan ch).failedDevice e.devices with
    | .clean => s
    | .corrected d => if marked then s else s.deviceError ch d
    | .uncorrectable => bad s
    | .open_ =>
      let r := s.openError ch line e.block
      if r.1 then bad r.2 else r.2

/-- A controller reads a line of its channel, which is an access to it (R29): one that is ASLEEP begins to wake, and the read
waits (R28). -/
def State.lineRead (s : State) (ch : Nat) (f : State → State) : State :=
  let asleep := s.cst (cellNo 4 ch) == .asleep
  let s := s.touchChans [ch]
  if asleep then s else f s

/-- A demand read of a line meets errors (R293, R296, R300). -/
def State.demandRead (s : State) (ch line : Nat) (errs : List BlockErr) : State :=
  if (s.setOfChan ch).isNone ∨ (s.chan ch).lost then s
  else s.lineRead ch fun s => errs.foldl (fun s e => s.eccRead ch line e false) s

/-- PATROL_SCRUB (R293 to R296, R300): one line of a channel that belongs to a set. The last line ends the pass, and
with it the scrub period. -/
def execPatrolScrub (ch : Fin 24) (line : Nat) (errs : List BlockErr) (s : State) : Host.Outcome State Fault Refusal :=
  .next (if (s.setOfChan ch).isNone ∨ (s.chan ch).lost then s
  else s.lineRead ch fun s =>
    let t := errs.foldl (fun s e => s.eccRead ch line e true) s
    if line + 1 = (s.chan ch).capGib * 2 ^ 22 then
      t.modChan ch fun c => { c with passes := satAdd c.passes 1, devErrors := [] }
    else t)

/-- CHANNEL_REBUILD_COMPLETE (R302): the lines that could not be rebuilt were written poisoned, which are all of a channel of a
set that is not redundant. -/
def execChannelRebuildComplete (ch : Fin 24) (s : State) : Host.Outcome State Fault Refusal :=
  let c := s.chan ch
  .next (match c.rebuild with
  | some _ =>
    let rebuilt := match s.setOfChan ch with
      | some m => m.redundant
      | none => false
    let at_ := s.mem.fresh.length
    let s := s.modChan ch fun c => { c with lost := false, wiped := if rebuilt then c.wiped else [(at_, 0)] }
    s.endRebuild ch 0
  | none => s)

/-- The channels that a rebuild of a channel reads and writes (R302): the six of a redundant group, else itself. -/
def State.rebuildUses (s : State) (ch : Nat) : List Nat :=
  match s.setOfChan ch with
  | some m => if m.redundant then (List.range 6).map (6 * (ch / 6) + ·) else [ch]
  | none => [ch]

/-- A rebuild goes on at 16 GB/s: 160 bytes in a tick of 10 ns (R302). Its channels are not idle (R24, R29). -/
def State.rebuildTick (s : State) : State :=
  ((s.mem.chans.filter fun e => e.2.rebuild.isSome).map Prod.fst).foldl (fun s ch =>
    (s.touchChans (s.rebuildUses ch)).modChan ch fun c =>
      { c with rebuild := c.rebuild.map fun done => min (c.capGib * 2 ^ 30) (done + 160) }) s

/-- A channel is being rebuilt, or read for a rebuild. -/
def State.rebuildBusy (s : State) (ch : Nat) : Bool :=
  s.mem.chans.any fun e => e.2.rebuild.isSome && (s.rebuildUses e.1).contains ch

/-- The writes of redundant groups reach data and parity (R298): no later than the next tick. -/
def State.intentTick (s : State) : State := s.modMem fun m => { m with intents := [] }

/-! ### Keys and zeroing -/

/-- Ranges of bytes that meet. -/
def meets (a la b lb : Nat) : Bool := decide (0 < la ∧ 0 < lb ∧ a < b + lb ∧ b < a + la)

/-- A range lies wholly in direct memory. -/
def State.allDirect (s : State) (base len : Nat) : Bool :=
  s.mem.sets.any fun _ => decide (base + len ≤ (s.mem.sets.foldl (fun n m => max n (m.limitGib + 1)) 0) * 2 ^ 30)

/-- A range meets the backing of an enabled region, or of one being enabled (R310, R333). -/
def State.meetsBacking (s : State) (skip : Option Nat) (base len : Nat) : Bool :=
  let hits (t : Tier) : Bool :=
    meets base len t.store t.storeLen || meets base len t.desc t.descLen ||
      t.pools.any fun p => meets base len p.base (p.frames * 4096)
  ((List.range 16).any fun t => some t != skip && (s.tier t).enabled && hits (s.tier t)) ||
    s.mem.jobs.any fun j => match j with
      | .tierSet _ t _ => hits t
      | .poolAdd _ p _ => meets base len p.base (p.frames * 4096)
      | _ => false

/-- A range meets a granule assigned to a partition. -/
def State.meetsAssigned (s : State) (base len : Nat) : Bool :=
  s.parts.owner.any fun e => e.2.isSome && meets base len (e.1 * 2 ^ 30) (2 ^ 30)

def State.addMemJob (s : State) (j : MemJob) : State := s.modMem fun m => { m with jobs := m.jobs ++ [j] }

/-- Take a memory job out of the list of those under way. -/
def State.takeMemJob (s : State) (i : Nat) : Option (MemJob × State) :=
  (takeAt s.mem.jobs i).map fun x => (x.1, s.modMem fun m => { m with jobs := x.2 })

/-- GRANULE_KEY (R306, R328, R333). -/
def opGranuleKey : Op where
  code := 0x0300
  len := exactly 1
  on := kindIn [0x18]
  classes := mgr
  run r s :=
    let w := r.word 0
    let g := bits w 15 0
    let key := bits w 22 16
    if badWord w 0x7FFFFF ≠ 0 then refuse (badWord w 0x7FFFFF) 0 s
    else if 64 < key ∨ !s.allDirect (g * 2 ^ 30) (2 ^ 30) then refuse 0x0109 0 s
    else if s.meetsBacking none (g * 2 ^ 30) (2 ^ 30) then refuse 0x0232 0 s
    else accepted (s.addMemJob (.granuleKey g key r.who))

/-- GRANULE_KEY (R306). -/
def execGranuleKey (pk : Pkt) (s : State) : Host.Outcome State Fault Refusal := .next (submit opGranuleKey pk s)

/-- The pieces of a region's backing (R310). -/
def Tier.backingRanges (t : Tier) : List (Nat × Nat) :=
  (t.store, t.storeLen) :: (t.desc, t.descLen) :: t.pools.map fun p => (p.base, p.frames * 4096)

/-- What is left of a write-intent entry when `n` bytes from `pa` have been written anew (R298). -/
def Intent.cut (x : Intent) (pa n : Nat) : List Intent :=
  (cutRange [(x.pa, x.bytes.length)] pa n).map fun r => { x with pa := r.1, bytes := slice x.bytes (r.1 - x.pa) r.2 }

/-- Write a range of direct memory to zero, with its parity (R298, R306), but for what lies in the backing of an enabled
region, where a direct write is discarded (R301, R310). -/
def State.zeroDirect (s : State) (base len : Nat) : State :=
  let s := (s.heldLines (lineOf base) (lineOf (base + len - 1))).foldl (fun s l => s.discardLine l) s
  let met := (List.range 16).filter fun t => (s.tier t).enabled &&
    (s.tier t).backingRanges.any fun r => meets base len r.1 r.2
  let kept := met.foldl (fun rs t => (s.tier t).backingRanges.foldl (fun rs r => cutRange rs r.1 r.2) rs) [(base, len)]
  let s := met.foldl (fun s t => (s.modTier t fun r => { r with directAccess := true }).report (tierReporter t)) s
  kept.foldl (fun s r =>
    let s := (s.touchChans (s.rangeChans r.1 r.2)).modMem fun m => { m with intents := m.intents.flatMap fun x => x.cut r.1 r.2 }
    (s.rawZero r.1 r.2).clearPoison (r.1 / 64) ((r.1 + r.2 - 1) / 64)) s

/-- The steps of GRANULE_KEY but for its completion (R306). -/
def State.rekey (s : State) (g key : Nat) : State :=
  let lines := s.heldLines (g * 2 ^ 22) (g * 2 ^ 22 + 2 ^ 22 - 1)
  let s := lines.foldl (fun s l => (s.cleanLine l).dropClean l) s
  let s := s.modMem fun m => { m with keyMap := tabPut 64 m.keyMap g key }
  s.zeroDirect (g * 2 ^ 30) (2 ^ 30)

/-- A long write to ranges of direct memory waits for its ASLEEP channels, which begin to wake (R28, R29): otherwise it is
performed. -/
def State.onceAwake (s : State) (ranges : List (Nat × Nat)) (t : State) : State :=
  let cs := s.sleeping (ranges.flatMap fun r => s.rangeChans r.1 r.2)
  if cs.isEmpty then t else s.touchChans cs

/-- GRANULE_KEY_COMPLETE (R306). -/
def execGranuleKeyComplete (job : Nat) (s : State) : Host.Outcome State Fault Refusal :=
  .next (match s.takeMemJob job with
  | some (.granuleKey g key who, t) => s.onceAwake [(g * 2 ^ 30, 2 ^ 30)] ((t.rekey g key).complete who 0 0 [])
  | _ => s)

/-- KEY_RENEW (R307). -/
def opKeyRenew : Op where
  code := 0x0301
  len := exactly 1
  on := kindIn [0x18]
  classes := mgr
  run r s :=
    let n := (r.word 0).toNat
    if badWord (r.word 0) 0x7F ≠ 0 then refuse (badWord (r.word 0) 0x7F) 0 s
    else if 64 ≤ n then refuse 0x0109 0 s
    else if (s.mem.keyMap.any fun e => e.2 = n) ||
        ((List.range 16).any fun t => (s.tier t).enabled && (s.tier t).key == n) then refuse 0x0230 0 s
    else done (s.modMem fun m => { m with keyGen := tabMod 0 m.keyGen n (· + 1) })

/-- KEY_RENEW (R307). -/
def execKeyRenew (pk : Pkt) (s : State) : Host.Outcome State Fault Refusal := .next (submit opKeyRenew pk s)

/-- The enabled tier region in whose window a range lies wholly. -/
def State.tierRange (s : State) (base len : Nat) : Option Nat :=
  (List.range 16).find? fun t =>
    let w := tierBase + t * tierWindow
    (s.tier t).enabled && decide (w ≤ base ∧ base + len ≤ w + (s.tier t).size)

/-- ZERO_RANGE (R328, R329). -/
def opZeroRange : Op where
  code := 0x0302
  len := exactly 2
  on := kindIn [0x18, 0x14]
  classes := tenantOnPart
  run r s :=
    let base := r.num 0 8
    let len := r.num 8 8
    let part := partOfCell r.cell
    let ok := match part with
      | some _ => (s.cellRange part base len).isSome
      | none => s.allDirect base len || (s.tierRange base len).isSome
    if base % 256 ≠ 0 ∨ len % 256 ≠ 0 ∨ !ok then refuse 0x0109 0 s
    else accepted (s.addMemJob (.zero base len part r.who))

/-- ZERO_RANGE (R329). -/
def execZeroRange (pk : Pkt) (s : State) : Host.Outcome State Fault Refusal := .next (submit opZeroRange pk s)

/-- The line indices of a region, from `first` to `last`, whose slot is not all zero. -/
def State.codedLines (s : State) (t first last : Nat) : List Nat :=
  let r := s.tier t
  distinct (s.mem.cells.filterMap fun c =>
    if r.store + r.slotLen * first ≤ c.1 ∧ c.1 < r.store + r.slotLen * (last + 1) then
      some ((c.1 - r.store) / r.slotLen) else none)

/-- The direct memory that zeroing a physical range writes: of a tier window its slots and descriptors. -/
def State.zeroRanges (s : State) (base len : Nat) : List (Nat × Nat) :=
  match s.tierRange base len with
  | some t =>
    let r := s.tier t
    let first := (base - tierAddr t 0) / 256
    let lines := (len + 255) / 256
    [(r.slotAddr first, r.slotLen * lines), (r.descAddr first, 8 * (lines / 16 + 1))]
  | none => [(base, len)]

/-- Write zero to lines of a tier window: ZERO slots, mask bits clear, frames released (R329). -/
def State.zeroTier (s : State) (t base len : Nat) : State :=
  let w := tierBase + t * tierWindow
  let first := (base - w) / 256
  let last := (base + len - 1 - w) / 256
  let s := (s.heldLines (lineOf base) (lineOf (base + len - 1))).foldl (fun s l => s.discardLine l) s
  let s := s.touchChans ((s.zeroRanges base len).flatMap fun r => s.rangeChans r.1 r.2)
  let s := (s.codedLines t first last).foldl (fun s i => (s.tierStore t i (zeros 256)).getD s) s
  let r := s.tier t
  s.clearPoison (r.slotAddr first / 64) ((r.slotAddr last + r.slotLen - 1) / 64)

/-- Write a physical range to zero. -/
def State.zeroPiece (s : State) (base len : Nat) : State :=
  if len = 0 then s
  else
    match s.tierRange base len with
    | some t => s.zeroTier t base len
    | none => s.zeroDirect base len

/-- The direct memory that a job writes to zero before it ends (R306, R329 to R331, R470). -/
def State.jobRanges (s : State) : MemJob → List (Nat × Nat)
  | .granuleKey g _ _ => [(g * 2 ^ 30, 2 ^ 30)]
  | .zero base len part _ => ((s.cellRange part base len).getD []).flatMap fun p => s.zeroRanges p.1 p.2
  | .tierSet _ t _ => [(t.store, t.storeLen), (t.desc, t.descLen)]
  | .poolAdd _ p _ => [(p.base, (p.frames + 32767) / 32768 * 4096)]
  | .tierClear _ _ => []
  | .assign _ _ gs _ => gs.flatMap fun g => s.zeroRanges (g * 2 ^ 30) (2 ^ 30)

/-- A channel is written by a job that zeroes memory: it is not idle (R24, R29). -/
def State.zeroBusy (s : State) (ch : Nat) : Bool :=
  s.mem.jobs.any fun j => (s.jobRanges j).any fun r => (s.rangeChans r.1 r.2).contains ch

/-- ZERO_RANGE_COMPLETE (R329). -/
def execZeroRangeComplete (job : Nat) (s : State) : Host.Outcome State Fault Refusal :=
  .next (match s.takeMemJob job with
  | some (.zero base len part who, t) =>
    s.onceAwake (s.jobRanges (.zero base len part who))
      ((((t.cellRange part base len).getD []).foldl (fun t p => t.zeroPiece p.1 p.2) t).complete who 0 0 [])
  | _ => s)

/-! ### The tier -/

/-- TIER_SET (R308, R330, R333). -/
def opTierSet : Op where
  code := 0x0303
  len := exactly 6
  on := kindIn [0x18]
  classes := mgr
  run r s :=
    let t := r.num 0 1
    let cls := r.num 1 1
    let unit := cls * 2 ^ 30
    let size := r.num 8 8
    let new : Tier :=
      { Tier.reset with class4 := cls == 4, key := r.num 2 1, size := size, store := r.num 16 8, desc := r.num 24 8,
                        threshA := r.num 32 4, threshB := r.num 36 4 }
    let active := (s.tier t).enabled || s.mem.jobs.any fun j => match j with
      | .tierSet u _ _ => u == t
      | _ => false
    let used (base len : Nat) : Bool := s.meetsBacking (some t) base len || s.meetsAssigned base len
    if !allZero (slice r.pk.params 3 5) ∨ !allZero (slice r.pk.params 40 8) then refuse 0x0105 0 s
    else if 15 < t ∨ (cls ≠ 2 ∧ cls ≠ 4) ∨ 64 < new.key ∨ size = 0 ∨ size % unit ≠ 0 ∨ tierWindow < size ∨
        new.store % 2 ^ 30 ≠ 0 ∨ new.desc % 2 ^ 21 ≠ 0 ∨ !s.allDirect new.store new.storeLen ∨
        !s.allDirect new.desc new.descLen ∨ meets new.store new.storeLen new.desc new.descLen then refuse 0x0109 0 s
    else if used new.store new.storeLen ∨ used new.desc new.descLen then refuse 0x0231 0 s
    else if active then refuse 0x0233 0 s
    else accepted (s.addMemJob (.tierSet t new r.who))

/-- TIER_SET (R330). -/
def execTierSet (pk : Pkt) (s : State) : Host.Outcome State Fault Refusal := .next (submit opTierSet pk s)

/-- TIER_SET_COMPLETE (R330). -/
def execTierSetComplete (job : Nat) (s : State) : Host.Outcome State Fault Refusal :=
  .next (match s.takeMemJob job with
  | some (.tierSet t new who, u) =>
    let v := (u.zeroDirect new.store new.storeLen).zeroDirect new.desc new.descLen
    s.onceAwake (s.jobRanges (.tierSet t new who)) ((v.modTier t fun r =>
      { new with enabled := true, exhaustedSeen := r.exhaustedSeen, codeErr := r.codeErr,
                 directAccess := r.directAccess }).complete who 0 0 [])
  | _ => s)

/-- A pool range leaves its region (R305, R309): its bitmap stands under the module key, the lines of its frames that have been
written under the region's, and the others as they stood. -/
def State.leavePool (s : State) (p : PoolRange) (key : Nat) : State :=
  p.lines.foldl (fun s l => s.leaveKey (256 * l) 256 key) (s.leaveKey p.base ((p.frames + 32767) / 32768 * 4096) 64)

/-- TIER_CLEAR (R332, R333). -/
def opTierClear : Op where
  code := 0x0304
  len := exactly 1
  on := kindIn [0x18]
  classes := mgr
  run r s :=
    let t := (r.word 0).toNat
    if badWord (r.word 0) 0xF ≠ 0 then refuse (badWord (r.word 0) 0xF) 0 s
    else if s.meetsAssigned (tierBase + t * tierWindow) tierWindow then refuse 0x0235 0 s
    else accepted (s.addMemJob (.tierClear t r.who))

/-- TIER_CLEAR (R332). -/
def execTierClear (pk : Pkt) (s : State) : Host.Outcome State Fault Refusal := .next (submit opTierClear pk s)

/-- TIER_CLEAR_COMPLETE (R332): the backing stays encrypted under the region's key and the module key. -/
def execTierClearComplete (job : Nat) (s : State) : Host.Outcome State Fault Refusal :=
  .next (match s.takeMemJob job with
  | some (.tierClear t who, s) =>
    if !(s.tier t).enabled then s.complete who 0 0 []
    else
      let first := lineOf (tierBase + t * tierWindow)
      let s := (s.heldLines first (first + tierWindow / 256 - 1)).foldl (fun s l => s.discardLine l) s
      let r := s.tier t
      let s := (s.leaveKey r.store r.storeLen r.key).leaveKey r.desc r.descLen 64
      let s := r.pools.foldl (fun s p => s.leavePool p r.key) s
      (s.modTier t fun r =>
        { Tier.reset with exhaustedSeen := r.exhaustedSeen, codeErr := r.codeErr,
                          directAccess := r.directAccess }).complete who 0 0 []
  | _ => s)

/-- POOL_ADD (R322, R331, R333). -/
def opPoolAdd : Op where
  code := 0x0305
  len := exactly 3
  on := kindIn [0x18]
  classes := mgr
  run r s :=
    let t := r.num 0 1
    let base := r.num 8 8
    let frames := r.num 16 8
    let coming := (s.mem.jobs.filter fun j => match j with
      | .poolAdd u _ _ => u == t
      | _ => false).length
    if !allZero (slice r.pk.params 1 7) then refuse 0x0105 0 s
    else if 15 < t ∨ base % 4096 ≠ 0 ∨ frames < 2 ∨ 2 ^ 24 < frames ∨ !s.allDirect base (frames * 4096) then
      refuse 0x0109 0 s
    else if s.meetsBacking none base (frames * 4096) ∨ s.meetsAssigned base (frames * 4096) then refuse 0x0231 0 s
    else if !(s.tier t).enabled then refuse 0x0237 0 s
    else if 16 ≤ (s.tier t).pools.length + coming then refuse 0x0430 0 s
    else accepted (s.addMemJob (.poolAdd t { base := base, frames := frames, used := [], lines := [] } r.who))

/-- POOL_ADD (R331). -/
def execPoolAdd (pk : Pkt) (s : State) : Host.Outcome State Fault Refusal := .next (submit opPoolAdd pk s)

/-- POOL_ADD_COMPLETE (R331): lines of the range that caches hold are discarded, as direct reads of it give poison from then on
(R310). -/
def execPoolAddComplete (job : Nat) (s : State) : Host.Outcome State Fault Refusal :=
  .next (match s.takeMemJob job with
  | some (.poolAdd t p who, u) =>
    let v := u.zeroDirect p.base ((p.frames + 32767) / 32768 * 4096)
    let v := if (v.tier t).enabled then
        (v.heldLines (lineOf p.base) (lineOf (p.base + p.frames * 4096 - 1))).foldl (fun v l => v.discardLine l) v
      else v
    s.onceAwake (s.jobRanges (.poolAdd t p who))
      ((v.complete who 0 0 []).modTier t fun r => if r.enabled then { r with pools := r.pools ++ [p] } else r)
  | _ => s)

/-- POOL_REMOVE (R333). -/
def opPoolRemove : Op where
  code := 0x0306
  len := exactly 2
  on := kindIn [0x18]
  classes := mgr
  run r s :=
    let t := (r.word 0).toNat
    let base := (r.word 1).toNat
    if 15 < t then refuse 0x0109 0 s
    else if !(s.tier t).enabled then refuse 0x0237 0 s
    else
      match (s.tier t).pools.find? fun p => p.base = base with
      | none => refuse 0x0109 0 s
      | some p =>
        if p.used.isEmpty then
          done ((s.leavePool p (s.tier t).key).modTier t fun r =>
            { r with pools := r.pools.filter fun q => q.base != base })
        else refuse 0x0234 0 s

/-- POOL_REMOVE (R333). -/
def execPoolRemove (pk : Pkt) (s : State) : Host.Outcome State Fault Refusal := .next (submit opPoolRemove pk s)

/-- TIER_THRESH (R323, R328). -/
def opTierThresh : Op where
  code := 0x0307
  len := exactly 2
  on := kindIn [0x18]
  classes := mgr
  run r s :=
    let t := (r.word 0).toNat
    if 15 < t then refuse 0x0109 0 s
    else if !(s.tier t).enabled then refuse 0x0237 0 s
    else
      done (s.modTier t fun x => { x with threshA := r.num 12 4, threshB := r.num 8 4 })

/-- TIER_THRESH (R323). -/
def execTierThresh (pk : Pkt) (s : State) : Host.Outcome State Fault Refusal := .next (submit opTierThresh pk s)

/-- SCRUB_SET (R328). -/
def opScrubSet : Op where
  code := 0x0308
  len := exactly 1
  on := kindIn [0x18]
  classes := mgr
  run r s :=
    let w := r.word 0
    let h := bits w 7 0
    let n := bits w 23 8
    if badWord w 0xFFFFFF ≠ 0 then refuse (badWord w 0xFFFFFF) 0 s
    else if h = 0 ∨ 168 < h ∨ n = 0 then refuse 0x0109 0 s
    else done ((List.range 24).foldl (fun s c => s.modChan c fun x => { x with periodH := h, devLimit := n }) s)

/-- SCRUB_SET (R296). -/
def execScrubSet (pk : Pkt) (s : State) : Host.Outcome State Fault Refusal := .next (submit opScrubSet pk s)

/-- TIER_WRITE_BACK (R320, R325, R326): the home slice writes a dirty line back, unless it must wait for a pin. -/
def execTierWriteBack (region : Fin 16) (line : Nat) (s : State) : Host.Outcome State Fault Refusal :=
  .next (s.cleanLine (lineOf (tierAddr region line)))

/-- PINNED_LINE_RETRY (R327): pinned lines are tried in the order in which they were pinned. -/
def execPinnedLineRetry (region : Fin 16) (s : State) : Host.Outcome State Fault Refusal :=
  .next ((s.tier region).pins.foldl (fun s i => s.cleanLine (lineOf (tierAddr region i))) s)

end Sys2Proof.Machine
end

