-- ==== Sys2Proof/Machine/Conv.lean ====
section
/-! DEFINITION. What a context puts on its link: frames, the SYNC that precedes them, acknowledgements, credits
and resending (R542 to R558), and the progress that the journal records (R357, R391). -/

namespace Sys2Proof.Machine

/-- The channel processor can serve nothing: its pair, or its I/O die, is FAULTED (R366, R409). -/
def State.cpDead (s : State) (c : Nat) : Bool :=
  s.cst (cellNo 0x0A c) == .faulted || s.cst (cellNo 0x16 (c / 2)) == .faulted

/-- The channel processor that serves a context executes (R364). -/
def State.served (s : State) (x : Nat) : Bool :=
  s.cst (cellNo 0x0A (s.ctxCp x)) == .running && !s.cpDead (s.ctxCp x)

/-- The port is in service (R556). -/
def State.inService (s : State) (p : Nat) : Bool :=
  (s.port p).cfg.mode == 1 && ((s.port p).link == .up || (s.port p).link == .quiet) &&
    (s.cst (cellNo 6 p) == .running || s.cst (cellNo 6 p) == .asleep) && s.cst (cellNo 0x16 (p / 128)) != .faulted

/-- The port of a path of a context, 128d + ppp (R337). -/
def Ctx.pathPort (c : Ctx) (i : Nat) : Nat := (c.cfg.paths.getD i 0).toNat

/-- The port of the path in use. -/
def Ctx.port (c : Ctx) : Nat := c.pathPort c.pathCur

/-- Both channel processors of a context's own I/O die are FAULTED, which counts as the loss of that die (R366). -/
def State.homeDead (s : State) (x : Nat) : Bool := s.cpDead (2 * (x / 65536)) && s.cpDead (2 * (x / 65536) + 1)

/-- A path may be used: its PATH_MASK bit is set and its port is in service (R403), on the surviving die where the context's own
counts as lost (R366, R409). -/
def State.usable (s : State) (x i : Nat) : Bool :=
  let c := s.ctx x
  decide (i < c.cfg.pathCount) && c.cfg.pathMask.getLsbD i && s.inService (c.pathPort i) &&
    !(s.homeDead x && c.pathPort i / 128 == x / 65536)

/-- The next path after PATH_CUR, in ascending order modulo PATH_COUNT (R403). -/
def State.nextPath (s : State) (x : Nat) : Option Nat :=
  let c := s.ctx x
  ((List.range c.cfg.pathCount).map fun k => (c.pathCur + k + 1) % c.cfg.pathCount).find? fun i => s.usable x i

/-- A is above B in a SEQ space (R547). -/
def above (a b : BitVec 32) : Bool := decide (1 ≤ (a - b).toNat ∧ (a - b).toNat < 2 ^ 31)

/-! ### Progress -/

/-- The entry of a span in which a count of bytes of its operation ends: index, address, bytes of it (R357). -/
def spanPoint : List SpanEntry → Nat → Nat × Nat × Nat
  | [], n => (0, 0, n)
  | [e], n => (e.index, e.addr, min e.count n)
  | e :: es, n => if e.count ≤ n then spanPoint es (n - e.count) else (e.index, e.addr, n)

/-- How far the progress point of the journal lies behind within an entry (R391). -/
def State.progressLag (s : State) (x : Nat) (r : Run) : Nat :=
  match r.op with
  | some op =>
    if r.lastBytes = 0 ∨ op.entries.any fun e => e.index == r.lastIndex && e.count ≤ r.lastBytes then 0
    else min (min (Config.mirrorLag s.now x) 65536) r.lastBytes
  | none => 0

/-- Record the progress point in the context and in its journal entry (R336, R391). -/
def State.noteProgress (s : State) (x : Nat) : State :=
  let s := s.modRun x fun r =>
    match r.op.or r.left with
    | some op =>
      let p := spanPoint op.entries op.moved
      { r with lastIndex := p.1, lastAddr := some p.2.1, lastBytes := p.2.2 }
    | none => r
  let r := s.run x
  let s := s.modCtx x fun c =>
    { c with curEntry := r.lastAddr.getD r.next, entryIndex := BitVec.ofNat 32 r.lastIndex,
             byteOffset := BitVec.ofNat 32 r.lastBytes, seq := r.lastSeq.getD c.seq }
  let c := s.ctx x
  if c.op = .idle then s
  else
    s.modEntry c.cur.entry fun e =>
      { e with entryIndex := c.entryIndex, byteOffset := c.byteOffset - BitVec.ofNat 32 (s.progressLag x r), seq := r.lastSeq.getD e.seq, path := BitVec.ofNat 8 c.port }

/-! ### Putting frames on the line -/

/-- Something to send wakes a port group from QUIET (R28, R29, R556). -/
def State.wakePort (s : State) (p : Nat) : State :=
  if (s.port p).link = .quiet then
    let g := cellNo 5 (groupOfPort p)
    let s := s.modPort p fun x => { x with link := .align, fromQuiet := true, linkAt := s.now }
    if s.cst g = .asleep then s.modCell g fun c => { c with waking := true } else s
  else s

/-- The lanes of an ASLEEP port group leave QUIET (R25, R29). -/
def State.wakeGroup (s : State) (c : Nat) : State :=
  if cellKind c = 5 ∧ s.cst c = .asleep then
    ((List.range 16).map fun l => 16 * cellIndex c + l).foldl (fun s p => s.wakePort p) s
  else s

/-- A trigger wakes a cell that is ASLEEP (R25, R28, R29). -/
def State.wakeNow (s : State) (c : Nat) : State :=
  if s.cst c = .asleep then (s.modCell c fun x => { x with waking := true }).wakeGroup c else s

/-- A port sends an item: at once while its link is UP, after the wake while it leaves QUIET; otherwise it is lost
with the link (R556, R558). -/
def State.emit (s : State) (p : Nat) (i : LineItem) : State :=
  let s := s.wakePort p
  let x := s.port p
  let s := s.abandonSleep (groupOfPort p)
  if x.link = .up then s.modPort p fun x => { x with sent := x.sent ++ [i], lastTx := s.now, busyAt := s.now }
  else if x.link = .align ∧ x.fromQuiet then s.modPort p fun x => { x with waiting := x.waiting ++ [i], busyAt := s.now }
  else s

/-- A frame of context `x` with nothing but its conversation filled in (R546). -/
def State.blankFrame (s : State) (x : Nat) : Frame :=
  { vcx := decide (65536 ≤ x), vc := BitVec.ofNat 16 x, timed := (s.ctx x).clsValid, resume := false,
    resync := false, destLen := 0, seq := 0, dest := [], ack := 0, credit := 0, payload := [] }

/-- The frame types that carry DEST (R542). -/
def FType.hasDest (t : FType) : Bool := t == .op || t == .resolve || t == .sync

/-- The sequenced frame types (R543). -/
def FType.sequenced (t : FType) : Bool := t == .op || t == .data || t == .end_ || t == .abort

/-- Send a frame of a context: one without DEST carries ACK and the credits due (R551, R553). -/
def State.sendFrame (s : State) (p x : Nat) (t : FType) (f : Frame) : State :=
  if t.hasDest then
    s.emit p (.frame t { f with dest := (s.ctx x).cfg.devPath.take (s.ctx x).cfg.devPathLen,
                                destLen := BitVec.ofNat 4 (s.ctx x).cfg.devPathLen })
  else
    let f := { f with ack := (((s.conv x).rx).getD 0) - 1, credit := BitVec.ofNat 16 (s.port p).owed }
    (s.modPort p fun q => { q with owed := 0 }).emit p (.frame t f)

/-- The credits that a payload costs (R553). -/
def creditsFor (n : Nat) : Nat := (n + 255) / 256

/-- Send a new sequenced frame: it takes the next SEQ and waits for its acknowledgement (R547, R552). -/
def State.sendSequenced (s : State) (p x : Nat) (t : FType) (f : Frame) : State :=
  let seq := (s.conv x).next
  let f := { f with seq := seq }
  let s := s.modConv x fun c =>
    { c with next := seq + 1, highest := if above seq c.highest then seq else c.highest,
             unacked := c.unacked ++ [{ ty := t, frame := f, tick := s.now, times := 1 }] }
  s.sendFrame p x t f

/-- Ask the partner for HIGH before the first OP on a link (R548). -/
def State.sendSync (s : State) (p x : Nat) : State :=
  (s.modConv x fun c => { c with syncPort := some p, syncTimes := c.syncTimes + 1, syncTick := s.now }).sendFrame p x
    .sync (s.blankFrame x)

/-- Return the credits of bytes that have left the inbound queue (R374, R553). -/
def State.returnCredits (s : State) (p n : Nat) : State := s.modPort p fun q => { q with owed := q.owed + n }

/-- The inbound queue frees space that bytes of a context took: their credits go back in an ACK frame (R374, R553). -/
def State.freeCredits (s : State) (p x n : Nat) : State :=
  if n = 0 then s else (s.returnCredits p n).sendFrame p x .ack (s.blankFrame x)

/-- Take every byte of a context out of a port's queues: its operation has ended or left the path. -/
def State.purge (s : State) (p x : Nat) : State :=
  let gone := (s.staging p).inq.filter fun c => c.ctx = x
  (s.modStaging p fun g =>
    let inq := g.inq.filter fun c => c.ctx != x
    { g with inq := inq, outq := g.outq.filter fun c => c.1 != x,
             tailAt := if inq.all fun c => c.bytes.isEmpty then none else g.tailAt }).freeCredits p x
    (gone.foldl (fun n c => n + c.credits) 0)

/-- What the CRCs of entries have seen, of the first bytes of their operation alone (R362). -/
def trimSeen : List SpanEntry → Nat → List SpanEntry
  | [], _ => []
  | e :: es, n => { e with seen := e.seen.take n } :: trimSeen es (n - e.count)

/-- An operation is taken up again from its progress point: what was staged beyond it is read or sent again. -/
def DevOp.rewind (op : DevOp) : DevOp := { op with here := op.moved, entries := trimSeen op.entries op.moved }

/-! ### Staging requests -/

/-- A mover serves the job, or a request for it waits. -/
def IoDie.has (d : IoDie) (j : MoverJob) : Bool := d.requests.contains j || d.serving.any fun e => e.2 == j

/-- Ask the die for a mover (R368). -/
def State.askMover (s : State) (d : Nat) (j : MoverJob) : State :=
  if (s.ioDie d).has j then s else s.modIoDie d fun x => { x with requests := x.requests ++ [j] }

/-- Ask for a drain of a port's inbound queue, to zero or to LOW (R370 to R372). -/
def State.askDrain (s : State) (p : Nat) (toZero : Bool) : State :=
  (s.modStaging p fun g => { g with toZero := g.toZero || toZero }).askMover (p / 128) (.drain p)

/-- The operation of a context has bytes that are not yet staged (R373). -/
def State.toStage (s : State) (x : Nat) : Bool :=
  let r := s.run x
  match r.op with
  | some op =>
    (op.kind == 2 || op.kind == 3) && op.sent && !op.due && op.ended.isNone && decide (op.here < op.count) &&
      (s.ctx x).op == .active
  | none => false

/-- The contexts of a port with bytes to stage (R373), those bound to a deadline class first. -/
def State.writers (s : State) (p : Nat) : List Nat :=
  let l := (s.io.runs.map Prod.fst).filter fun x => s.toStage x && (s.ctx x).port == p
  (l.filter fun x => (s.ctx x).clsValid) ++ l.filter fun x => !(s.ctx x).clsValid

/-- An outbound queue at or below LOW asks for a mover while some operation has bytes to stage (R373). -/
def State.askFill (s : State) (p : Nat) : State :=
  let g := s.staging p
  if g.outFill ≤ g.low * 256 ∧ !(s.writers p).isEmpty then s.askMover (p / 128) (.fill p) else s

/-! ### Sending data -/

/-- The weight of a partition's share of a port (R483). -/
def State.portWeight (s : State) (p n : Nat) : Nat :=
  ((s.parts.ports.find? fun u => u.unit = p ∧ u.part = n).map UnitShare.weight).getD 1

/-- The context whose staged bytes go next: one bound to a deadline class, else one of the partition that has had
the least for its WEIGHT (R483, R555). -/
def State.nextOut (s : State) (p : Nat) : Option Nat :=
  let ready := ((s.staging p).outq.map Prod.fst).filter fun x => decide ((s.conv x).unacked.length < 64)
  match ready.find? fun x => (s.ctx x).clsValid with
  | some x => some x
  | none =>
    minBy (fun x =>
      let n := (s.ctx x).owner.getD 0
      tabGet 0 (s.port p).served n * 1000000 / s.portWeight p n) ready

/-- Take up to `n` bytes of a context from an outbound queue. -/
def takeOut (x : Nat) : Nat → List (Nat × Bytes) → Bytes × List (Nat × Bytes)
  | _, [] => ([], [])
  | n, c :: l =>
    if c.1 = x then
      let rest := takeOut x (n - c.2.length) l
      (c.2.take n ++ rest.1, if c.2.length ≤ n then rest.2 else (x, c.2.drop n) :: rest.2)
    else
      let rest := takeOut x n l
      (rest.1, c :: rest.2)

/-- Send what an outbound queue holds as DATA frames, while credits and the window last (R552, R553). -/
def State.pump : Nat → Nat → State → State
  | 0, _, s => s
  | k + 1, p, s =>
    if (s.port p).link = .up ∨ (s.port p).link = .quiet then
      match s.nextOut p with
      | none => s
      | some x =>
        let (bs, rest) := takeOut x 4096 (s.staging p).outq
        if bs.isEmpty ∨ (s.port p).credits < creditsFor bs.length then s
        else
          let n := (s.ctx x).owner.getD 0
          let s := s.modStaging p fun g => { g with outq := rest }
          let s := s.modPort p fun q =>
            { q with credits := q.credits - creditsFor bs.length,
                     served := tabPut 0 q.served n (tabGet 0 q.served n + bs.length) }
          State.pump k p (s.sendSequenced p x .data { s.blankFrame x with payload := bs })
    else s

/-- Send what a port's outbound queue holds, and ask for more. -/
def State.sendOut (s : State) (p : Nat) : State := (s.pump 160 p).askFill p

/-! ### The OP of an operation -/

/-- The OP payload (R544). -/
def opPayload (op : DevOp) (offset : Nat) : Bytes :=
  beBytes 2 op.devOp.toNat ++ beBytes 1 op.kind ++ zeros 1 ++ beBytes 4 op.count ++ beBytes 4 offset ++ zeros 4

/-- Send the OP of the operation in progress: a new one above every SEQ used (R548), a resumed one under its own
(R404). An OP opens a fresh window (R549). -/
def State.issueOp (s : State) (x : Nat) : State :=
  let p := (s.ctx x).port
  match (s.run x).op with
  | none => s
  | some op =>
    let c := s.conv x
    let top := match c.high with
      | some h => if above h c.highest then h else c.highest
      | none => c.highest
    let seq := if op.sent then op.seq else top + 1
    let offset := if op.sent then op.moved else 0
    let f := { s.blankFrame x with seq := seq, resume := op.sent, payload := opPayload op offset }
    let s := s.modConv x fun c => { c with next := seq, unacked := [] }
    let s := s.modRun x fun r =>
      { r with op := some { op.rewind with sent := true, due := false, seq := seq },
               lastSeq := some seq, lastPath := BitVec.ofNat 8 p, device := 0 }
    ((s.sendSequenced p x .op f).noteProgress x).askFill p

/-- Send the OP that is due, once the conversation is in step on the link (R548). -/
def State.launch (s : State) (x : Nat) : State :=
  let c := s.ctx x
  let p := c.port
  match (s.run x).op with
  | some op =>
    if op.due ∧ op.whole ∧ c.op = .active ∧ s.inService p then
      if (s.conv x).synced = some (p, (s.port p).epoch) then s.issueOp x
      else if (s.conv x).syncPort = some p then s
      else (s.modConv x fun c => { c with syncTimes := 0 }).sendSync p x
    else s
  | none => s

/-- The path in use of an active start fails: REDRIVE, and the port's inbound queue is drained for it (R338, R403). What was
staged outward, and the frames not acknowledged, are sent again from the progress point; an operation whose END has come
needs no path. -/
def State.failPath (s : State) (x : Nat) : State :=
  let c := s.ctx x
  let p := c.port
  let r := s.run x
  if c.op = .active ∧ r.result.isNone then
    let s := s.modCtx x fun c => { c with op := .redrive }
    let s := s.modEntry c.cur.entry fun e => if e.state = 2 then { e with state := 3 } else e
    let s := s.modConv x fun c => { c with unacked := [], syncPort := none }
    let s := s.modStaging p fun g => { g with outq := g.outq.filter fun e => e.1 != x }
    let s := s.modRun x fun r => { r with op := r.op.map fun op => if op.ended.isSome then op else { op with due := true } }
    if (s.staging p).inq.any fun k => k.ctx = x then s.askDrain p true else s
  else if c.op = .redrive then s
  else s.modConv x fun c => { c with unacked := [], syncPort := none }

/-- The contexts whose path in use is a port. -/
def State.usersOf (s : State) (p : Nat) : List Nat :=
  (s.io.runs.map Prod.fst).filter fun x =>
    (s.ctx x).port == p && ((s.ctx x).op == .active || !(s.conv x).unacked.isEmpty)

/-- A port leaves service: every conversation that uses it fails over (R538, R556, R558). -/
def State.leaveService (s : State) (p : Nat) : State := (s.usersOf p).foldl (fun s x => s.failPath x) s

/-- Send every unacknowledged frame again, the oldest first (R552). DATA spends credits again. -/
def State.resendFrames (p x : Nat) : List Unacked → State → State
  | [], s => s
  | u :: us, s =>
    let cost := if u.ty = .data then creditsFor u.frame.payload.length else 0
    if (s.port p).credits < cost then s
    else
      let s := s.modPort p fun q => { q with credits := q.credits - cost }
      let s := s.modConv x fun c =>
        { c with unacked := c.unacked.map fun v =>
            if v.frame.seq = u.frame.seq then { v with tick := s.now, times := v.times + 1 } else v }
      State.resendFrames p x us (s.sendFrame p x u.ty u.frame)

/-- A resend round of this tick has sent the frame again: a NAK and the RTO in one tick make one round (chapter 13, Collisions). -/
def State.resentNow (s : State) (u : Unacked) : Bool := decide (u.tick = s.now ∧ 1 < u.times)

/-- A resend round, or the end of retransmission (R552). -/
def State.resend (s : State) (x : Nat) : State :=
  let p := (s.ctx x).port
  match (s.conv x).unacked with
  | [] => s
  | u :: us =>
    if s.resentNow u then s
    else if (s.port p).cfg.retryMax < u.times then
      (s.modPort p fun q => { q with exhausted := true }).failPath x
    else
      State.resendFrames p x (u :: us) (s.modPort p fun q => { q with resends := satAdd q.resends 1 })

end Sys2Proof.Machine
end

