-- ==== Sys2Proof/Machine/Transfer.lean ====
section
/-! DEFINITION. I/O contexts and transfer programs (chapter 08): START_IO, the entries that a channel processor
executes, how a device operation ends, the completion, RESUME and CANCEL, and re-drive (R403 to R406). -/

namespace Sys2Proof.Machine

/-! ### Memory of the owning partition (R359) -/

/-- The physical pieces of a range that lies in memory of the context's owner, outside control space (R359). -/
def State.ownerRange (s : State) (x addr len : Nat) (acc : Acc) : Option (List (Nat × Nat) × State) :=
  match (s.ctx x).owner with
  | none => none
  | some n =>
    match s.partRange n addr len acc with
    | some (ps, t) => if ps.all fun p => p.1 + p.2 ≤ controlBase then some (ps, t) else none
    | none => none

/-- An address lies in memory assigned to the context's owner, outside control space (R344). -/
def State.ownerHolds (s : State) (x addr : Nat) : Bool :=
  (((s.ctx x).owner.bind fun n => s.assignedAddr n addr).map fun pa => decide (pa < controlBase)).getD false

/-- Read bytes of a program or a list; a poisoned line cannot be read (R275). -/
def State.ownerRead (s : State) (x addr len : Nat) : Option (Bytes × State) :=
  match s.ownerRange x addr len .read with
  | some (ps, t) => if s.piecesPoisoned ps then none else some (t.readPieces ps)
  | none => none

/-- A physical address lies in a tier window. -/
def inTier (pa : Nat) : Bool := decide (tierBase ≤ pa ∧ pa < pcieBase)

/-- The pieces that a data address reaches, or the program fault of R361: 4, or 8 for a tier window. -/
def State.dataRange (s : State) (x addr len : Nat) (acc : Acc) : Except Nat (List (Nat × Nat) × State) :=
  match s.ownerRange x addr len acc with
  | some (ps, t) => if (s.ctx x).clsValid ∧ ps.any (fun p => inTier p.1) then .error 8 else .ok (ps, t)
  | none => .error 4

/-! ### The end of a program -/

/-- Set bits of EFLAGS (R347). -/
def State.flag (s : State) (x : Nat) (v : Byte) : State := s.modRun x fun r => { r with flags := r.flags ||| v }

/-- What an operation adds to EFLAGS: SHORT and LONG (R353). -/
def DevOp.flags (op : DevOp) : Byte :=
  let end_ := op.ended.getD (0, false, op.count)
  (if end_.2.2 < op.count then 0x02 else 0) ||| (if end_.2.1 ∨ op.excess then 0x04 else 0)

/-- The partner's ending status that has arrived for an operation (R347). -/
def DevOp.status (op : DevOp) (old : Byte) : Byte := match op.ended with
  | some (st, _, _) => st
  | none => old

/-- The entries of a span that are complete but for the last, which waits for the ending status (R362). -/
def fullEntries : List SpanEntry → Nat → List SpanEntry
  | e :: f :: es, n => if e.count ≤ n then e :: fullEntries (f :: es) (n - e.count) else []
  | _, _ => []

/-- The program ends: an operation still in progress is ended toward the partner (R361, R380, R382), and its staged
bytes are dropped. -/
def State.finishRun (s : State) (x status detail : Nat) : State :=
  let r := s.run x
  if r.result.isSome then s
  else
    let p := (s.ctx x).port
    let s := match r.op with
      | some op =>
        let s := s.noteProgress x
        let left := if (op.kind = 2 ∨ op.kind = 3) ∧ op.ended.isNone ∧ !op.due then some op else none
        let s := s.modRun x fun r =>
          { r with residual := if op.sent then op.count - op.moved else r.residual, flags := r.flags ||| op.flags,
                   device := op.status r.device, left := left,
                   crcs := (fullEntries op.entries op.moved).filter SpanEntry.crcStore }
        let s := if op.ended.isNone ∧ op.sent ∧ !op.due then
            s.sendSequenced p x .abort { s.blankFrame x with payload := beBytes 4 op.seq.toNat }
          else s
        s.purge p x
      | none => s
    s.modRun x fun r => { r with op := none, result := some (BitVec.ofNat 16 status, BitVec.ofNat 32 detail) }

/-- The bus error that an access of a mover is to meet, and the state without it. `m` is none for an access that any
mover of the die may make. -/
def State.takeBusErr (s : State) (d : Nat) (m : Option Nat) (pa : Nat) : Option BusError × State :=
  match (s.ioDie d).busErr.find? fun e => e.line = lineOf pa ∧ (m = none ∨ m = some e.mover) with
  | some e => (some e, s.modIoDie d fun x => { x with busErr := x.busErr.erase e })
  | none => (none, s)

/-- An access for a context meets what bus errors there are: within BUS_RETRY it goes on, beyond it the operation
halts (R380, R381). Answers whether the access was made. -/
def State.busAccess (s : State) (d : Nat) (m : Option Nat) (x pa : Nat) (final : Bool) : Bool × State :=
  match s.takeBusErr d m pa with
  | (none, s) => (true, s)
  | (some e, s) =>
    let limit := (s.ctx x).cfg.busRetry
    let s := s.modRun x fun r => { r with retries := min 255 (r.retries + min limit e.times) }
    let s := if final then s.flag x 0x01 else s
    if e.times ≤ limit then (true, s) else (false, s.finishRun x 0x0502 e.unit)

/-- Write the running CRC of an entry at its CRC_ADDR (R362). It waits until the mover's access can be made (R35, R38), and is
given up where bus errors halt it (R381): the first component says that it waits no longer. -/
def State.writeCrc (s : State) (x : Nat) (e : SpanEntry) : Bool × State :=
  let d := s.ctxCp x / 2
  let v := if e.crc64 then beBytes 8 (crc64 e.seen) else beBytes 4 (crc32c e.seen)
  match s.moverReach d 1 [(e.crcPa, v.length)] true fun s =>
      match s.busAccess d none x e.crcPa false with
      | (false, s) => ((), s)
      | (true, s) => ((), (s.moverWrite d e.crcPa v).flag x 0x10) with
  | (some _, s) => (true, s)
  | (none, s) => (false, s)

/-- The CRC of an entry of the operation in progress is written, once. -/
def State.storeCrc (s : State) (x : Nat) (e : SpanEntry) : State :=
  if !e.crcStore ∨ (s.run x).result.isSome then s
  else
    match s.writeCrc x e with
    | (false, s) => s
    | (true, s) => s.modRun x fun r => { r with op := r.op.map fun op =>
        { op with entries := op.entries.map fun f => if f.index = e.index then { f with crcStore := false } else f } }

/-- The CRCs that an ended program still owes (R348). -/
def State.storeLeft (s : State) (x : Nat) : State :=
  (s.run x).crcs.foldl (fun s e => match s.writeCrc x e with
    | (false, s) => s
    | (true, s) => s.modRun x fun r => { r with crcs := r.crcs.erase e }) s

/-- A CRC has not been written. -/
def Run.crcDue (r : Run) : Bool := !r.crcs.isEmpty || (r.op.map fun op => op.entries.any SpanEntry.crcStore).getD false

/-- The operation has ended well (R353, R354): no error of the partner, and no length mismatch but for a tolerant entry. -/
def DevOp.well (op : DevOp) (st : Byte) (long : Bool) (moved : Nat) : Bool :=
  !st.getLsbD 7 && (!(decide (moved < op.count) || long || op.excess) || ((op.entries.getLast?).map SpanEntry.tolerant).getD false)

/-- The ending status that has arrived ends the program too (R352). -/
def DevOp.ends (op : DevOp) : Bool := match op.ended with
  | some (st, long, moved) => !op.well st long moved || ((op.entries.getLast?).map SpanEntry.last).getD true
  | none => false

/-- The ending status takes effect (R352 to R354), the CRCs having been written. -/
def State.judge (s : State) (x : Nat) (op : DevOp) (st : Byte) (long : Bool) (moved : Nat) : State :=
  let last := op.entries.getLast?
  let s := s.modRun x fun r =>
    { r with device := op.status r.device, bytes := r.bytes + op.moved, flags := r.flags ||| op.flags }
  let s :=
    if st.getLsbD 7 then s.finishRun x 0x0507 st.toNat
    else if !op.well st long moved then s.finishRun x 0x0505 0
    else
      let s := s.purge (s.ctx x).port x
      if (last.map SpanEntry.last).getD true then s.finishRun x 0 0
      else
        let next := (last.map SpanEntry.addr).getD 0 + 32
        let index := (last.map SpanEntry.index).getD 0 + 1
        s.modRun x fun r => { r with op := none, next := next, index := index }
  s.modRun x fun r => { r with residual := op.count - moved }

/-- What follows from the bytes that have moved: CRCs of finished entries, and the ending status once the drain has
passed the operation's last byte (R362, R372). A CRC write that must wait holds the rest up. -/
def State.settle (s : State) (x : Nat) : State :=
  let s := s.noteProgress x
  match (s.run x).op with
  | none => s
  | some op =>
    let s := (fullEntries op.entries op.moved).foldl (fun s e => s.storeCrc x e) s
    if (s.run x).result.isSome then s
    else
      match op.ended with
      | some (st, long, moved) =>
        if (s.staging (s.ctx x).port).inq.any fun c => c.ctx = x then s.askDrain (s.ctx x).port true
        else
          let s := s.modRun x fun r => { r with op := r.op.map fun op => { op with entries := trimSeen op.entries moved } }
          let due (s : State) : List SpanEntry := (((s.run x).op.map fun op =>
            if op.well st long moved then op.entries else fullEntries op.entries op.moved).getD []).filter SpanEntry.crcStore
          let s := (due s).foldl (fun s e => s.storeCrc x e) s
          if (s.run x).result.isSome ∨ !(due s).isEmpty then s else s.judge x op st long moved
      | none => s

/-! ### Entries -/

/-- Read a data address list up to `need` bytes: its elements, how many were read, and the program fault met where
they end (R358, R361). -/
def State.readList (s : State) (x : Nat) : Nat → Nat → Nat → List (Nat × Nat) × Nat × Nat
  | 0, _, need => ([], 0, if need = 0 then 0 else 5)
  | k + 1, a, need =>
    if need = 0 then ([], 0, 0)
    else
      match s.ownerRead x a 16 with
      | none => ([], 0, 4)
      | some (b, _) =>
        if numAt b 12 4 ≠ 0 then ([], 1, 2) else
        let n := min need (numAt b 8 4)
        let r := State.readList s x k (a + 16) (need - n)
        (if n = 0 then r.1 else (numAt b 0 8, n) :: r.1, r.2.1 + 1, r.2.2)

/-- The program fault of an entry by itself (R361): reasons 1, 2, 7 and 11 without CRC_ADDR, or 0. -/
def entryFault (b : Bytes) : Nat :=
  let op := numAt b 0 1
  let flags := numAt b 1 1
  let jump := op = 5
  if 5 < op then 1
  else if 32 ≤ flags ∨ !allZero (slice b 18 6) ∨ flags % 4 = 3 ∨ (flags / 8 % 2 = 0 ∧ numAt b 24 8 ≠ 0) ∨
      (jump ∧ (flags ≠ 0 ∨ numAt b 2 2 ≠ 0 ∨ numAt b 16 2 ≠ 0 ∨ numAt b 24 8 ≠ 0)) then 2
  else if (jump ∨ op = 0) ∧ numAt b 4 4 ≠ 0 then 7
  else if (jump ∧ numAt b 8 8 % 32 ≠ 0) ∨ (op ≠ 0 ∧ !jump ∧ numAt b 8 8 % 16 ≠ 0) then 11
  else 0

/-- A program fault at the entry that the program has reached (R361). -/
def State.entryStop (s : State) (x reason : Nat) : State :=
  let s := s.modRun x fun r =>
    { r with op := none, lastAddr := some r.next, lastIndex := r.index, lastBytes := 0 }
  (s.noteProgress x).finishRun x 0x0504 reason

/-- The class definition that bounds a context's starts (R415), if it is bound. -/
def State.limits (s : State) (x : Nat) : Option ClassDef :=
  if (s.ctx x).clsValid then some (s.classDef (s.ctx x).cls) else none

/-- A JUMP or NOP (R351, R356). -/
def State.hopEntry (s : State) (x : Nat) (b : Bytes) : State :=
  let r := s.run x
  let jump := numAt b 0 1 = 5
  if 16 ≤ r.jumps then s.entryStop x 6
  else if !jump ∧ r.op.isSome then s.entryStop x 9
  else
    let s := s.modRun x fun r =>
      { r with jumps := r.jumps + 1, entries := r.entries + 1, lastAddr := some r.next, lastIndex := r.index,
               lastBytes := 0, index := r.index + 1, next := if jump then numAt b 8 8 else r.next + 32,
               nop := if jump then r.nop else (numAt b 1 1).testBit 1 }
    if !jump ∧ numAt b 1 1 % 2 = 1 then (s.noteProgress x).finishRun x 0 0 else s.noteProgress x

/-- A READ, WRITE, CONTROL or SENSE (R351, R352). The device operation starts when the last entry of its span has
been read, since its OP carries the whole COUNT (R353, R544). -/
def State.moveEntry (s : State) (x : Nat) (b : Bytes) : State :=
  let r := s.run x
  let kind := numAt b 0 1
  let flags := numAt b 1 1
  let count := numAt b 4 4
  let crcLen := if flags / 16 % 2 = 1 then 8 else 4
  let crcAt := if flags / 8 % 2 = 1 ∧ numAt b 24 8 % 8 = 0 then s.ownerRange x (numAt b 24 8) crcLen .write else none
  if r.nop ∨ (r.op.map fun o => o.kind != kind).getD false then s.entryStop x 9
  else if flags / 8 % 2 = 1 ∧ crcAt = none then s.entryStop x 10
  else
    let l := s.readList x (numAt b 16 2) (numAt b 8 8) count
    if l.2.2 = 2 then s.entryStop x 2 else
    let crcPa := match crcAt with
      | some (p :: _, _) => p.1
      | _ => 0
    let e : SpanEntry :=
      { addr := r.next, index := r.index, count := count, tolerant := flags / 4 % 2 = 1, last := flags % 2 = 1,
        crcStore := flags / 8 % 2 = 1, crc64 := flags / 16 % 2 = 1, crcPa := crcPa, elems := l.1, stop := l.2.2,
        seen := [] }
    let whole := flags / 2 % 2 = 0
    let op : DevOp := match r.op with
      | some o => { o with count := o.count + count, entries := o.entries ++ [e], whole := whole }
      | none =>
        { kind := kind, devOp := BitVec.ofNat 16 (numAt b 2 2), seq := 0, count := count, entries := [e],
          whole := whole, sent := false, due := true, here := 0, moved := 0, ended := none, excess := false }
    let excess := match s.limits x with
      | some d =>
        if d.maxBytes < r.bytes + op.count then 1
        else if d.maxElements < r.elements + l.2.1 then 3
        else if d.maxOps < r.ops + 1 then 4
        else 0
      | none => 0
    if excess ≠ 0 then (s.modRun x fun r => { r with op := none }).finishRun x 0x0302 excess
    else
      let s := s.modRun x fun r =>
        { r with op := some op, jumps := 0, entries := r.entries + 1, elements := r.elements + l.2.1,
                 ops := if whole then r.ops + 1 else r.ops, next := r.next + 32, index := r.index + 1 }
      if !whole then s
      else
        let s := s.noteProgress x
        -- without a usable path the operation waits in REDRIVE (R406)
        if s.usable x (s.ctx x).pathCur then s.launch x
        else
          match s.nextPath x with
          | some i => (s.modCtx x fun c => { c with pathCur := i }).launch x
          | none => s.failPath x

/-- The memory that executing the next entry reads: the entry, and its data address list, with the tables that translate them. -/
def State.entryPieces (s : State) (x : Nat) : List (Nat × Nat) :=
  let tables (addr len : Nat) : List (Nat × Nat) := ((s.ctx x).owner.map fun n => s.partTables n addr len).getD []
  let pieces (addr len : Nat) : List (Nat × Nat) :=
    tables addr len ++ ((s.ownerRange x addr len .read).map Prod.fst).getD []
  let next := (s.run x).next
  pieces next 32 ++ match s.ownerRead x next 32 with
    | some (b, _) =>
      if numAt b 0 1 = 0 ∨ 5 ≤ numAt b 0 1 then []
      else
        let l := s.readList x (numAt b 16 2) (numAt b 8 8) (numAt b 4 4)
        pieces (numAt b 8 8) (16 * l.2.1) ++ if l.2.2 = 4 then pieces (numAt b 8 8 + 16 * l.2.1) 16 else []
    | none => []

/-- A channel processor executes the next entry of an active program (R349 to R361), once memory can be read (R28, R306). -/
def State.transferEntry (s : State) (x : Nat) : State :=
  let r := s.run x
  let waits := (r.op.map DevOp.whole).getD false
  if (s.ctx x).op ≠ .active ∨ !s.served x ∨ r.result.isSome ∨ waits = true then s
  else if (match s.limits x with
      | some d => decide (d.maxEntries < r.entries + 1)
      | none => false) then (s.modRun x fun r => { r with op := none }).finishRun x 0x0302 2
  else if r.next % 32 ≠ 0 then s.entryStop x 3
  else
    match s.reach (s.entryPieces x) false fun t => ((), (s.entryPieces x).foldl (fun t p => t.dmaRead p.1 p.2) t) with
    | (none, s) => s
    | (some _, s) =>
    match s.ownerRead x r.next 32 with
    | none => s.entryStop x 3
    | some (b, s) =>
      let f := entryFault b
      if f ≠ 0 then s.entryStop x f
      else if numAt b 0 1 = 0 ∨ numAt b 0 1 = 5 then s.hopEntry x b
      else s.moveEntry x b

/-- TRANSFER_ENTRY (R351). -/
def execTransferEntry (ctx : CtxId) (s : State) : Host.Outcome State Fault Refusal := .next (s.transferEntry ctx)

/-! ### Completions -/

/-- The 32 bytes of results of a start (R347). -/
def State.ioResults (s : State) (x j : Nat) : Bytes :=
  let r := s.run x
  let e := s.entry j
  let residual := match r.op.or r.left with
    | some op => if op.sent then op.count - op.moved else r.residual
    | none => r.residual
  let flags := r.flags ||| (r.op.map DevOp.flags).getD 0
  let device := (r.op.map fun op => op.status r.device).getD r.device
  let (residual, seq, path) := match r.lastSeq with
    | some q => (residual, q, r.lastPath)
    | none =>
      let w := Config.noOperation s.now j
      (w.toNat % 2 ^ 32, e.seq, (w >>> 32).setWidth 8)
  let (point, addr) := match r.lastAddr with
    | some a => (beBytes 4 r.lastIndex ++ beBytes 4 r.lastBytes, a)
    | none =>
      let v := Config.noEntry s.now j
      (beBytes 8 (v.toNat % 2 ^ 64), (v >>> 64).toNat)
  beBytes 4 j ++ point ++ beBytes 4 residual ++ beBytes 8 addr ++
    beBytes 4 seq.toNat ++ [path, BitVec.ofNat 8 r.retries, flags, device]

/-- The results of a start that never left its queue: no entry executed. -/
def State.queuedResults (s : State) (j : Nat) : Bytes :=
  let v := Config.noEntry s.now j
  let w := Config.noOperation s.now j
  beBytes 4 j ++ beBytes 8 (v.toNat % 2 ^ 64) ++ beBytes 4 (w.toNat % 2 ^ 32) ++ beBytes 8 (v >>> 64).toNat ++
    beBytes 4 (s.entry j).seq.toNat ++ [(w >>> 32).setWidth 8, 0, 0, 0]

/-- The sibling of a FAULTED channel processor, or else a channel processor of the other die, serves the context
(R366, R409). -/
def State.takeOver (s : State) (x : Nat) : State :=
  if s.cpDead (s.ctxCp x) then
    match [1, 2, 3].find? fun k => !s.cpDead (Nat.xor (s.ctxCp x) k) with
    | some k => s.modCtx x fun c => { c with shift := Nat.xor c.shift k }
    | none => s
  else s

/-- A start becomes the active start of its context (R346). -/
def State.activate (s : State) (x : Nat) (r : StartRef) : State :=
  let e := s.entry r.entry
  let s := (s.takeOver x).modCtx x fun c => { c with op := .active, cur := r, program := e.program }
  let s := s.modRun x fun _ => Run.start e.program
  let s := s.modEntry r.entry fun e => if e.state = 1 then { e with state := 2 } else e
  s.noteProgress x

/-- The oldest queued start becomes active, or the context is IDLE (R338). -/
def State.nextStart (s : State) (x : Nat) : State :=
  match (s.ctx x).queue with
  | r :: rest => (s.modCtx x fun c => { c with queue := rest }).activate x r
  | [] => s.modCtx x fun c => { c with op := .idle }

/-- The start is its context's active one. -/
def State.isActive (s : State) (j : Nat) : Bool :=
  let c := s.ctx (s.entry j).ctx
  (c.op == .active || c.op == .redrive) && c.cur.entry == j

/-- The end of a start counts as posted for its context (R338, R399), which takes up the next one, or halts. -/
def State.startEnds (s : State) (j : Nat) : State :=
  let x := (s.entry j).ctx
  match (s.run x).result with
  | some (status, _) =>
    if !s.isActive j then s
    else if status = 0x0502#16 then s.modCtx x fun c => { c with op := .halted }
    else s.nextStart x
  | none => s

/-- The reply of a completion has been written to its slot, and REPLY_PROD has passed it: the completion is posted (R399, R402). -/
def State.postedNow (s : State) (j : Nat) : State :=
  match (s.entry j).posting with
  | 1 => (s.modEntry j fun e => { e with state := 4, posting := 0 }).startEnds j
  | 2 => s.modEntry j fun e => { e with state := 5, posting := 0 }
  | _ => s

/-- The progress point of an active start goes into its entry as it stands (R391, R400). -/
def State.exactProgress (s : State) (j : Nat) : State :=
  let c := s.ctx (s.entry j).ctx
  if s.isActive j then s.modEntry j fun e => { e with entryIndex := c.entryIndex, byteOffset := c.byteOffset } else s

/-- The late outcome of an entry (R400). -/
def State.lateEnd (s : State) (j : Nat) (status : BitVec 16) : State :=
  let e := s.entry j
  ((s.exactProgress j).modEntry j fun e => { e with state := 6, status := status }).eventItem (0x9D0 + s.ctxCp e.ctx / 2)
    { payload := BitVec.ofNat 48 (status.toNat * 2 ^ 32 + j), queue := e.ring, prio := 0, entry := some j }

/-- The reply of a completion is to be written (R347): that of a late one where `late` is set. One on an internal ring is posted,
consumed and retired at once. -/
def State.postReply (s : State) (j : Nat) (late : Bool) (status : BitVec 16) (detail : BitVec 32) (results : Bytes) : State :=
  let e := s.entry j
  let inside := decide (1024 ≤ e.ring)
  let s := s.modEntry j fun e =>
    { e with status := status, posted := status, detail := detail, results := results, posting := if late then 2 else 1
             consumed := e.consumed || inside }
  let s := s.reply e.ring
    { op := 0x0400, tag := e.tag, status := status, detail := detail, partition := e.part, completion := true,
      checkOnly := false, results := results, entry := if inside then none else some j }
  if inside then (s.postedNow j).retire j else s

/-- A start ends: its completion is to be posted, or the outcome of a late one is recorded (R347, R399, R400). -/
def State.endStart (s : State) (j : Nat) (status : BitVec 16) (detail : BitVec 32) (results : Bytes) : State :=
  if (s.entry j).state = 5 then (s.lateEnd j status).startEnds j
  else (s.exactProgress j).postReply j false status detail results

/-- Every byte the program sent is acknowledged, every byte received is in memory, and every CRC is written (R348). -/
def State.ioSettled (s : State) (x : Nat) : Bool :=
  !((s.conv x).unacked.any fun u => u.ty == .data) && (s.run x).crcs.isEmpty &&
    !((s.staging (s.ctx x).port).inq.any fun c => c.ctx = x)

/-- The completion of the active start is written (R338, R348). -/
def State.complete_ (s : State) (x : Nat) : State :=
  let s := s.storeLeft x
  let c := s.ctx x
  match (s.run x).result with
  | some (status, detail) =>
    if (c.op = .active ∨ c.op = .redrive) ∧ s.served x ∧ s.ioSettled x ∧ (s.entry c.cur.entry).posting = 0 then
      s.endStart c.cur.entry status detail (s.ioResults x c.cur.entry)
    else s
  | none => s

/-- Write the oldest waiting reply of a ring into its next reply slot (R71, R72, R663). A reply that its slot
refused is kept until HALTED has been cleared; one whose slot cannot be reached yet waits. A completion is posted with it (R402). -/
def State.writeReply (s : State) (r : Nat) : State :=
  let x := s.ring r
  match x.outbox with
  | [] => s
  | m :: rest =>
    if x.freeSlots = 0 ∨ x.kept then s
    else
      match s.partAddr (r / 16) (x.slotAddr x.replyBase x.replyProd) .write with
      | none => (s.haltRing r 0x010E).modRing r fun x => { x with kept := true }
      | some f =>
        let b := replyBytes s.clock.tb m
        let gpa := x.slotAddr x.replyBase x.replyProd
        match s.reachVia (s.partTables (r / 16) gpa b.length) [(f.addr, b.length)] true fun s =>
          ((), (s.markPart (r / 16) gpa .write).dmaWrite 0 f.addr b) with
        | (none, s) => s
        | (some _, s) =>
        let s := s.modRing r fun x =>
          { x with outbox := rest, replyProd := x.replyProd + 1,
                   outstanding := if m.completion then x.outstanding - 1 else x.outstanding }
        let s := match m.entry with
          | some j =>
            if (s.entry j).state = 0 then s else (s.modEntry j fun e => { e with slot := some x.replyProd }).postedNow j
          | none => s
        s.eventItem r
          { payload := BitVec.ofNat 48 (m.status.toNat * 2 ^ 32 + m.tag.toNat), queue := x.replyProd.toNat, prio := 0,
            entry := m.entry }

/-- REPLY_WRITE (R72). -/
def execReplyWrite (ring : Fin 1024) (s : State) : Host.Outcome State Fault Refusal :=
  .next (s.writeReply ring)

/-- IO_COMPLETION (R348). -/
def execIoCompletion (ctx : CtxId) (s : State) : Host.Outcome State Fault Refusal := .next (s.complete_ ctx)

/-! ### START_IO -/

/-- The units of a bucket that make one start (R420). -/
def oneStart : Nat := 2 ^ 32 * 10 ^ 8

/-- A bucket refilled to the current tick (R420). -/
def Bucket.refill (b : Bucket) (d : ClassDef) (now : Nat) : Bucket :=
  { level := min (d.sigma * oneStart) (b.level + d.rho * 2 ^ 32 * (now - b.tick)), tick := now }

/-- The envelope's refusal of a start, as its detail word (R416, R420). -/
def State.envelope (s : State) (x : Nat) : Option Nat :=
  let c := s.ctx x
  if !c.clsValid then none
  else if s.cst (cellNo 0x0E c.cls) ≠ .running then some 0xFFFFFFFF
  else
    let d := s.classDef c.cls
    let b := (s.bucket x).refill d s.now
    let rate := d.rho * 2 ^ 32
    if oneStart ≤ b.level then none else some (min 0xFFFFFFFF ((oneStart - b.level + rate - 1) / rate))

/-- The lowest FREE entry of a journal (R390). -/
def lowestFree : Tab JEntry → Nat → Option Nat
  | [], n => if n < 1048576 then some n else none
  | (j, _) :: t, n => if j = n then lowestFree t (n + 1) else if n < 1048576 then some n else none

/-- The entry that a start would take (R344, R390). -/
def State.freeEntry (s : State) : Option Nat :=
  if s.copyServes 0 || s.copyServes 1 then lowestFree s.io.journal 0 else none

/-- A reply or an item of the ring's announces the completion of the start that held an entry before. -/
def State.linked (s : State) (j : Nat) : Bool :=
  (s.queues.any fun e => (e.2.items.any fun i => i.entry == some j) || e.2.pend.any fun p => p.2.entry == some j) ||
  (s.sources.any fun e => e.1 != 0x9D2 && e.2.backlog.any fun i => i.entry == some j) ||
  s.rings.any fun e => e.2.outbox.any fun m => m.entry == some j

/-- What announces an earlier completion of an entry no longer belongs to it. -/
def State.unlink (s : State) (j : Nat) : State :=
  let cut (e : Option Nat) : Option Nat := if e = some j then none else e
  { s with
    queues := s.queues.map fun e => (e.1, { e.2 with
      items := e.2.items.map fun i => { i with entry := cut i.entry }
      pend := e.2.pend.map fun p => (p.1, { p.2 with entry := cut p.2.entry }) })
    sources := s.sources.map fun e => if e.1 = 0x9D2 then e else (e.1, { e.2 with
      backlog := e.2.backlog.map fun i => { i with entry := cut i.entry } })
    rings := s.rings.map fun e => (e.1, { e.2 with outbox := e.2.outbox.map fun m => { m with entry := cut m.entry } }) }

/-- The entry that a start takes (R388, R390), and its place in the envelope (R420). -/
def State.enterStart (s : State) (r : Req) (x j program : Nat) : State :=
  let s := if s.linked j then s.unlink j else s
  let c := s.ctx x
  let d := s.classDef c.cls
  let e : JEntry :=
    { JEntry.free with
      state := 1, timed := c.clsValid, path := BitVec.ofNat 8 c.port, tag := r.pk.tag, ring := r.pk.ring.val, ctx := x,
      program := program, part := r.pk.partition, seq := (Config.noOperation s.now j >>> 40).setWidth 32 }
  let s := (s.modEntry j fun _ => e).modIo fun i =>
    { i with mirror := i.mirror.map fun m => { m with held := m.held.filter (· != j) } }
  if c.clsValid then
    s.modIo fun i => { i with buckets := tabMod ⟨0, 0⟩ i.buckets x fun b =>
      let b := b.refill d s.now
      { b with level := b.level - oneStart } }
  else s

/-- The acceptance tick of a start (R390): its deadline runs from here (R396), and it is active or queued (R346). -/
def State.admitStart (s : State) (j : Nat) : State :=
  let e := s.entry j
  let x := e.ctx
  let c := s.ctx x
  let d := s.classDef c.cls
  let deadline := s.now + d.l / 10
  let s := if e.timed then
      s.modEntry j fun e => { e with deadline := deadline, lateTick := deadline + d.lateMs * 100000 }
    else s
  let ref : StartRef := ⟨e.tag, e.ring, j⟩
  if c.op = .idle then s.activate x ref else s.modCtx x fun c => { c with queue := c.queue ++ [ref] }

/-- The member that holds the bundle copy of a context's entries, where mirroring is in force (R412, R413). -/
def State.mirrorOf (s : State) (x : Nat) : Option Nat :=
  (s.io.mirror.filter fun m => m.on && decide (m.first ≤ x ∧ x < m.first + m.count)).map fun m => (m.partner.headD 0).toNat

/-- A start waits for the acknowledgement of the bundle copy (R390, R413). -/
def State.awaitsCopy (s : State) (j : Nat) : Bool := s.bundle.sends.any fun e => e.op == 0x0400 && e.word.toNat == j

/-- The starts of a context that wait so. -/
def State.startsWaiting (s : State) (x : Nat) : Nat :=
  (s.bundle.sends.filter fun e => e.op == 0x0400 && (s.entry e.word.toNat).ctx == x).length

/-- START_IO (R343 to R346). The reply of a start whose entry is mirrored waits for the bundle copy (R390, R413). -/
def opStartIo : Op where
  code := 0x0400
  len := exactly 2
  on := kindIn [0x0D]
  classes := any012
  run r s :=
    let x := cellIndex r.cell
    let c := s.ctx x
    let program := (r.word 0).toNat
    let options := r.num 8 1
    let st := s.cst r.cell
    if !allZero (slice r.pk.params 9 7) ∨ 1 < options then refuse 0x0105 0 s
    else if st = .faulted then refuse 0x0203 0 s
    else if st ≠ .running then refuse 0x0202 0 s
    else if program % 32 ≠ 0 ∨ !s.ownerHolds x program then refuse 0x0109 0 s
    else if options = 1 ∧ c.op ≠ .idle then refuse 0x0204 0 s
    else
      match s.envelope x with
      | some detail => refuse 0x0302 detail s
      | none =>
        if c.op ≠ .idle ∧ 8 ≤ c.queue.length + s.startsWaiting x then refuse 0x0440 0 s
        else
          match s.freeEntry with
          | none => refuse 0x0441 0 ([0, 1].foldl (fun s d => s.modCopy d fun k => { k with fullSeen := true }) s)
          | some j =>
            let t := s.enterStart r x j program
            match (if r.pk.checkOnly then none else s.mirrorOf x) with
            | none => accepted (t.admitStart j)
            | some m => ⟨later, 0, [], t.modBundle fun b =>
                { b with sends := b.sends ++ [⟨0x0400, r.pk, 1022, [], BitVec.ofNat 64 j, [m], 0⟩] }⟩

/-- START_IO (R344). -/
def execStartIo (pk : Pkt) (s : State) : Host.Outcome State Fault Refusal := .next (submit opStartIo pk s)

/-! ### RESUME and CANCEL -/

/-- RESUME (R384). -/
def opResume : Op where
  code := 0x0401
  len := exactly 0
  on := kindIn [0x0D]
  classes := any012
  run r s :=
    let x := cellIndex r.cell
    if s.cst r.cell = .faulted then refuse 0x0203 0 s
    else if (s.ctx x).op ≠ .halted then refuse 0x0240 0 s
    else done (s.nextStart x)

/-- RESUME (R384). -/
def execResume (pk : Pkt) (s : State) : Host.Outcome State Fault Refusal := .next (submit opResume pk s)

/-- Every queued start of a context is CANCELLED (R341, R384). -/
def State.cancelQueue (s : State) (x : Nat) : State :=
  let q := (s.ctx x).queue
  q.foldl (fun s r => s.endStart r.entry 0x0508 0 (s.queuedResults r.entry)) (s.modCtx x fun c => { c with queue := [] })

/-- CANCEL (R384). -/
def opCancel : Op where
  code := 0x0402
  len := exactly 0
  on := kindIn [0x0D]
  classes := any012
  run r s :=
    let x := cellIndex r.cell
    doneWith (beBytes 8 (s.ctx x).queue.length) (s.cancelQueue x)

/-- CANCEL (R384). -/
def execCancel (pk : Pkt) (s : State) : Host.Outcome State Fault Refusal := .next (submit opCancel pk s)

/-! ### Failures of a path and of a channel processor -/

/-- PATH_FAILURE (R403). -/
def execPathFailure (ctx : CtxId) (s : State) : Host.Outcome State Fault Refusal := .next (s.failPath ctx)

/-- The start goes on with the next usable path, once the failed port's queue is drained; the operation in progress is re-driven
on it (R403, R404). -/
def State.redrive (s : State) (x : Nat) : State :=
  let c := s.ctx x
  match s.nextPath x with
  | some i =>
    if c.op = .redrive ∧ s.served x ∧ !((s.staging c.port).inq.any fun k => k.ctx = x) then
      let s := s.modCtx x fun c => { c with op := .active, pathCur := i }
      let s := s.modEntry c.cur.entry fun e => { e with state := if e.state = 3 then 2 else e.state }
      match (s.run x).op with
      | some op =>
        if !op.whole ∨ op.ended.isSome then s
        else
          let s := s.modEntry c.cur.entry fun e => { e with redriven := true }
          let s := (s.modRun x fun r => { r with op := some { op.rewind with due := true } }).flag x 0x28
          ([0, 1].foldl (fun s d => s.modCopy d fun k => { k with redrives := satAdd k.redrives 1 }) s).launch x
      | none => s
    else s
  | none => s

/-- REDRIVE_SEND (R404). -/
def execRedriveSend (ctx : CtxId) (s : State) : Host.Outcome State Fault Refusal := .next (s.redrive ctx)

/-- PATH_RETURN (R406): a port of the path group that PATH_MASK allows has returned to service. -/
def execPathReturn (ctx : CtxId) (port : PortId) (s : State) : Host.Outcome State Fault Refusal :=
  let c := s.ctx ctx
  .next (if (List.range c.cfg.pathCount).any fun i => s.usable ctx i && c.pathPort i == port.val then s.redrive ctx
    else s)

/-- How far the progress point of the mirror copy lies behind, when the other die takes a context over (R336, R409). -/
def State.mirrorBehind (s : State) (x : Nat) : Nat := min (min (Config.mirrorLag s.now x) 65536) (s.run x).lastBytes

/-- The surviving die carries a context on from its mirror copy (R336, R366, R409): the operation in progress is taken back to
the progress point there, and waits to be re-driven. -/
def State.carryOver (s : State) (x : Nat) : State :=
  let lag := s.mirrorBehind x
  let s := s.modRun x fun r => { r with op := r.op.map fun op =>
    if op.ended.isSome then op else ({ op with moved := op.moved - lag } : DevOp).rewind }
  match (s.run x).op with
  | some op => if op.ended.isSome then s else (s.purge (s.ctx x).port x).failPath x
  | none => if s.usable x (s.ctx x).pathCur then s else s.failPath x

/-- A context of a FAULTED channel processor passes on (R366, R409): its sibling resumes the operation in progress from its
progress point on the same path. -/
def State.passOn (s : State) (x cp : Nat) : State :=
  let s := s.takeOver x
  if s.ctxCp x = cp then s
  else if s.ctxCp x / 2 ≠ cp / 2 then s.carryOver x
  else
    match (s.run x).op with
    | some op =>
      if (s.ctx x).op = .active ∧ op.sent ∧ op.ended.isNone then
        let s := (s.flag x 0x20).purge (s.ctx x).port x
        let s := s.modEntry (s.ctx x).cur.entry fun e => { e with redriven := true }
        (s.modRun x fun r => { r with op := some { op.rewind with due := true } }).launch x
      else s
    | none => s

/-- CP_TAKEOVER (R366, R409). -/
def execCpTakeover (cp : Fin 4) (s : State) : Host.Outcome State Fault Refusal :=
  .next (if s.cpDead cp then
    ((s.io.ctxs.map Prod.fst).filter fun x => s.ctxCp x == cp.val).foldl (fun s x => s.passOn x cp) s
  else s)

/-- Both copies of the journal are lost (R409 to R411): no record of any start remains, and nothing of one is re-driven. -/
def State.loseRecords (s : State) : State :=
  if s.copyServes 0 || s.copyServes 1 then s
  else
    let ours (x : Nat) : Bool := decide (x < 131072)
    s.modIo fun i =>
      { i with
        journal := [], runs := []
        ctxs := i.ctxs.map fun e => (e.1, { e.2 with op := .idle, queue := [] })
        convs := i.convs.map fun e => (e.1, { e.2 with unacked := [], syncPort := none })
        staging := i.staging.map fun e => (e.1,
          { e.2 with inq := e.2.inq.filter fun c => !ours c.ctx, outq := e.2.outq.filter fun c => !ours c.1 }) }

end Sys2Proof.Machine
end

