-- ==== Sys2Proof/Machine/Sorrel.lean ====
section
/-! DEFINITION. Sorrel (chapter 09): the admission test of R425, BIND, UNBIND, and DMA_CAP_SET. -/

namespace Sys2Proof.Machine

/-- Put an element into a list in rising order of a key, after its equals. -/
def insertBy {α : Type} (key : α → Nat) (x : α) : List α → List α
  | [] => [x]
  | y :: l => if key x < key y then x :: y :: l else y :: insertBy key x l

/-- A list in rising order of a key. -/
def sortBy {α : Type} (key : α → Nat) (l : List α) : List α := l.foldl (fun m x => insertBy key x m) []

/-- A quotient rounded up. -/
def ceilDiv (a b : Nat) : Nat := (a + b - 1) / b

/-! ### The figures of R422 -/

def ClassDef.x (d : ClassDef) : Nat := ceilDiv (d.maxBytes * 10) 72
def ClassDef.k (d : ClassDef) : Nat := 150 * d.maxEntries + 10 * d.maxElements + 400
def ClassDef.s (d : ClassDef) : Nat := d.k + d.x + d.partnerNs * d.maxOps

/-- The memory work of a start at a share in lines per µs. -/
def ClassDef.mem (d : ClassDef) (share : Nat) : Nat := ceilDiv (d.maxBytes * 1000) (share * 256)

/-- The figures by which a change is judged: the running classes with it applied, the bindings, the shares of the
DMA cap and MOVE_MAX of each I/O die. -/
structure Plan where
  defs    : List (Nat × ClassDef)
  binds   : List Binding
  shares  : List Nat
  moveMax : List Nat

/-- The classes that are RUNNING, with their definitions, in rising order. -/
def State.runningClasses (s : State) : List (Nat × ClassDef) :=
  (List.range 256).filterMap fun n => if s.cst (cellNo 0x0E n) = .running then some (n, s.classDef n) else none

/-- MOVE_MAX of an I/O die, as it will be from the next tick. -/
def State.moveMaxOf (s : State) (d : Nat) : Nat := ((s.ioDie d).nextMax).getD (s.ioDie d).moveMax

/-- The plan as things stand. -/
def State.plan (s : State) : Plan :=
  { defs := s.runningClasses, binds := s.io.bindings, shares := [s.io.share0, s.io.capLines - s.io.share0],
    moveMax := [s.moveMaxOf 0, s.moveMaxOf 1] }

/-- The ports in a context's PATHS. -/
def State.pathsOf (s : State) (x : Nat) : List Nat :=
  distinct (((s.ctx x).cfg.paths.take (s.ctx x).cfg.pathCount).map BitVec.toNat)

/-- The ports in the PATHS of a binding's contexts. -/
def State.bindPorts (s : State) (b : Binding) : List Nat := distinct (b.ctxs.flatMap s.pathsOf)

/-- The I/O die of a binding, and its first context. -/
def Binding.first (b : Binding) : Nat := b.ctxs.headD 0
def Binding.die (b : Binding) : Nat := b.first / 65536

/-- The ports of an I/O die that carry a deadline binding: one mover is reserved for each (R424). -/
def State.reservedPorts (s : State) (binds : List Binding) (d : Nat) : List Nat :=
  (distinct (binds.flatMap s.bindPorts)).filter fun p => p / 128 == d

/-- Where the host stage of the owner of context `x` puts a declared buffer range (R417), page by page: none where it
has no translation. The range is declared, not accessed, so no permission and no owner is checked. -/
def State.declared (s : State) (x addr len : Nat) : Option (List Nat) :=
  match (s.ctx x).owner.bind s.hostRoot with
  | none => none
  | some root => (pagePieces (len / 4096 + 2) addr len).mapM fun p =>
      if p.1 < 2 ^ 52 then (walk (fun a => some (s.entryAt a)) p.1 hostLevels root).map Leaf.addr else none

/-- A declared buffer range of a binding touches a tier window. -/
def State.bindInTier (s : State) (b : Binding) : Bool :=
  b.ranges.any fun r => ((s.declared b.first r.1 r.2).getD []).any inTier

/-- The port group may sleep (R29): no lane of it is an Ethernet lane. -/
def State.groupSleeps (s : State) (g : Nat) : Bool :=
  (List.range 16).all fun l => (s.port (16 * g + l)).cfg.mode != 2 && (s.port (16 * g + l)).cfg.mode != 3

/-- The wake term W of a binding (R423). -/
def State.wakeTerm (s : State) (b : Binding) : Nat :=
  if b.hold then 0 else (if (s.bindPorts b).any fun p => s.groupSleeps (groupOfPort p) then 4000 else 0) + 2000

/-- A refusal of the admission test (R426): KIND, CLASS, RESOURCE, VALUE, LIMIT. -/
structure Infeasible where
  kind  : Nat
  cls   : Nat
  cell  : Nat
  value : Nat
  limit : Nat
  deriving DecidableEq, Repr

/-- The results of R426. -/
def Infeasible.bytes (i : Infeasible) : Bytes :=
  beBytes 1 i.kind ++ beBytes 1 i.cls ++ zeros 2 ++ beBytes 4 i.cell ++ beBytes 4 (min 0xFFFFFFFF i.value) ++
    beBytes 4 i.limit

/-- A binding together with its class's definition, as the test reads them. -/
structure Load where
  cls   : Nat
  d     : ClassDef
  b     : Binding
  ports : List (Nat × Nat)

/-- The bindings of running classes, in class order and then by FIRST; `ports` counts the contexts of the binding on
each port. -/
def State.loads (s : State) (p : Plan) : List Load :=
  let l := p.binds.filterMap fun b =>
    ((p.defs.find? fun c => c.1 = b.cls).map Prod.snd).map fun d =>
      ({ cls := b.cls, d := d, b := b,
         ports := (s.bindPorts b).map fun q => (q, (b.ctxs.filter fun x => (s.pathsOf x).contains q).length) } : Load)
  sortBy (fun l => l.cls * 2 ^ 17 + l.b.first) l

/-- How many contexts of a binding use a port. -/
def Load.on (l : Load) (q : Nat) : Nat := ((l.ports.find? fun e => e.1 = q).map Prod.snd).getD 0

/-- The sum of a figure over bindings. -/
def total (l : List Load) (f : Load → Nat) : Nat := l.foldl (fun n x => n + f x) 0

/-- The lowest class of some bindings. -/
def lowestClass (l : List Load) : Nat := ((minBy (fun x => x.cls) l).map Load.cls).getD 0

/-- A check of a rate in parts per million, given times 1,000 (R422). -/
def rateCheck (kind cls cell u : Nat) : Option Infeasible :=
  if 900000 * 1000 < u then some ⟨kind, cls, cell, ceilDiv u 1000, 900000⟩ else none

/-- The largest of the four terms of R425; a tie names the earlier. -/
def largestTerm : List (Nat × Nat) → Nat × Nat
  | [] => (0, 0)
  | t :: l =>
    let r := largestTerm l
    if r.1 ≤ t.1 then t else r

/-- The queueing delays of R425. -/
def portDelay (ls : List Load) (q : Nat) : Nat := total ls (fun l => l.on q * l.d.sigma * l.d.x) + 572
def cpDelay (ls : List Load) (d : Nat) : Nat :=
  total (ls.filter fun l => l.b.die = d) (fun l => l.b.ctxs.length * l.d.sigma * l.d.k) + 150
def memDelay (p : Plan) (ls : List Load) (d : Nat) : Nat :=
  total (ls.filter fun l => l.b.die = d)
    (fun l => l.b.ctxs.length * l.d.sigma * l.d.mem (p.shares.getD d 0)) + 1000

/-- The latency check of one binding (R425, kind 9). -/
def State.latencyCheck (s : State) (p : Plan) (ls : List Load) (l : Load) : Option Infeasible :=
  let die := l.b.die
  let ports := sortBy id (l.ports.map Prod.fst)
  let worst := largestTerm (ports.map fun q => (portDelay ls q, cellNo 6 q))
  let terms :=
    [((l.d.sigma - 1) * l.d.s, cellNo 0x0D l.b.first), (2 * worst.1, worst.2),
     (cpDelay ls die, cellNo 0x0A (2 * die)), (memDelay p ls die, cellNo 0x16 die)]
  let d := terms.foldl (fun n t => n + t.1) 0 + l.d.s + 40000 + s.wakeTerm l.b + 738
  if l.d.l < d then some ⟨9, l.cls, (largestTerm terms).2, d, l.d.l⟩ else none

/-- The admission test (R425): the first failure, or none. -/
def State.admission (s : State) (p : Plan) : Option Infeasible :=
  let ls := s.loads p
  let on (d : Nat) := ls.filter fun l => l.b.die = d
  let ports := sortBy id (distinct (ls.flatMap fun l => l.ports.map Prod.fst))
  let checks : List (Option Infeasible) :=
    (p.defs.map fun c =>
      if c.2.l < c.2.s + 40738 then some ⟨1, c.1, cellNo 0x0E c.1, c.2.s + 40738, c.2.l⟩ else none) ++
    (ls.map fun l => if s.bindInTier l.b then some ⟨2, l.cls, cellModule, 0, 0⟩ else none) ++
    ([0, 1].map fun d =>
      let n := (s.reservedPorts p.binds d).length + p.moveMax.getD d 0
      let users := p.binds.filter fun b => (s.bindPorts b).any fun q => q / 128 == d
      if 32 < n then
        some ⟨3, ((minBy Binding.cls users).map Binding.cls).getD 0, cellNo 0x16 d, n, 32⟩
      else none) ++
    ([0, 1].map fun d =>
      let n := total (on d) fun l => l.b.ctxs.length * (l.d.sigma * 10 ^ 9 + l.d.rho * 400)
      if 2560 * 10 ^ 9 < n then some ⟨4, lowestClass (on d), cellNo 0x12 (1 + d), ceilDiv n (10 ^ 9), 2560⟩
      else none) ++
    ((sortBy (fun l => l.b.first) ls).map fun l =>
      rateCheck 5 l.cls (cellNo 0x0D l.b.first) (l.d.rho * l.d.s)) ++
    (ports.map fun q =>
      let us := ls.filter fun l => 0 < l.on q
      rateCheck 6 (lowestClass us) (cellNo 6 q) (total us fun l => l.on q * l.d.rho * l.d.x)) ++
    ([0, 1].map fun d =>
      rateCheck 7 (lowestClass (on d)) (cellNo 0x0A (2 * d))
        (total (on d) fun l => l.b.ctxs.length * l.d.rho * l.d.k)) ++
    ([0, 1].map fun d =>
      rateCheck 8 (lowestClass (on d)) (cellNo 0x16 d)
        (total (on d) fun l => l.b.ctxs.length * l.d.rho * l.d.mem (p.shares.getD d 0))) ++
    (ls.map fun l => s.latencyCheck p ls l)
  checks.findSome? id

/-- REFUSED_INFEASIBLE with its detail and results (R426). -/
def infeasible (i : Infeasible) (s : State) : Res := ⟨0x0300, i.cell, i.bytes, s⟩

/-! ### BIND and UNBIND -/

/-- The contexts of a range, where it is legal: 1 to 65,536 of them on one I/O die (R417). -/
def ctxRange (first count : Nat) : Option (List Nat) :=
  if 1 ≤ count ∧ count ≤ 65536 ∧ first + count ≤ 131072 ∧ first / 65536 = (first + count - 1) / 65536 then
    some ((List.range count).map (first + ·))
  else none

/-- The memory channels that a binding with HOLD_AWAKE holds: those of the sets of its ranges, or every
channel (R423). -/
def State.bindChans (s : State) (b : Binding) : List Nat :=
  if b.ranges.isEmpty then List.range 24
  else
    distinct (b.ranges.flatMap fun r =>
      ((s.declared b.first r.1 r.2).getD []).flatMap fun p => ((s.memSet p).map MemSet.channels).getD [])

/-- The cells that a binding holds awake (R423). -/
def State.bindHolds (s : State) (b : Binding) : List Nat :=
  if b.hold ∧ !b.ctxs.isEmpty then
    sortBy id (distinct ((s.bindPorts b).map fun p => cellNo 5 (groupOfPort p))) ++
      sortBy id ((s.bindChans b).map (cellNo 4))
  else []

/-- Raise the binding count of a cell; an ASLEEP cell wakes (R25, R26). -/
def State.bindHoldUp (s : State) (c : Nat) : State :=
  ((s.modCell c fun x => { x with bindHold := x.bindHold + 1 }).heldAwake c).wakeNow c

/-- Lower the binding count of a cell. -/
def State.bindHoldDown (s : State) (c : Nat) : State := s.modCell c fun x => { x with bindHold := x.bindHold - 1 }

/-- BIND (R417, R418, R423, R425). -/
def opBind : Op where
  code := 0x0600
  len := exactly 10
  on := kindIn [0x0E]
  classes := mgr
  run r s :=
    let n := cellIndex r.cell
    let first := r.num 0 4
    let flags := r.num 8 1
    let ranges := r.num 9 1
    let buffer (i : Nat) : Nat × Nat := (r.num (16 + 16 * i) 8, r.num (24 + 16 * i) 8)
    if !allZero (slice r.pk.params 10 6) then refuse 0x0105 0 s
    else
    match ctxRange first (r.num 4 4) with
    | none => refuse 0x0109 0 s
    | some xs =>
      let owner := (s.ctx first).owner
      let rs := (List.range ranges).map buffer
      if 1 < flags ∨ 4 < ranges ∨ !allZero (slice r.pk.params (16 + 16 * ranges) (64 - 16 * ranges)) ∨
          owner = none ∨ xs.any (fun x => (s.ctx x).owner ≠ owner) ∨
          rs.any (fun b => (s.declared first b.1 b.2).isNone) then refuse 0x0109 0 s
      else
        match xs.find? fun x => s.cst (cellNo 0x0D x) ≠ .stopped, xs.find? fun x => (s.ctx x).clsValid with
        | some x, _ => refuse 0x0201 (cellNo 0x0D x) s
        | none, some x => refuse 0x0251 (cellNo 0x0D x) s
        | none, none =>
          let b : Binding := { cls := n, ctxs := xs, hold := flags == 1, ranges := rs, held := [] }
          let b := { b with held := s.bindHolds b }
          match s.admission { s.plan with binds := s.io.bindings ++ [b] } with
          | some i => infeasible i s
          | none =>
            match b.held.find? fun c => 65535 ≤ (s.cell c).bindHold with
            | some c => refuse 0x0404 c s
            | none =>
              let s := b.held.foldl (fun s c => s.bindHoldUp c) s
              let s := s.modIo fun i => { i with bindings := i.bindings ++ [b] }
              let d := s.classDef n
              done (xs.foldl (fun s x =>
                (s.modCtx x fun c => { c with cls := n, clsValid := true }).modIo fun i =>
                  { i with buckets := tabPut ⟨0, 0⟩ i.buckets x { level := d.sigma * oneStart, tick := s.now } }) s)

/-- BIND (R417). -/
def execBind (pk : Pkt) (s : State) : Host.Outcome State Fault Refusal := .next (submit opBind pk s)

/-- UNBIND (R419). -/
def opUnbind : Op where
  code := 0x0601
  len := exactly 10
  on := kindIn [0x0E]
  classes := mgr
  run r s :=
    let n := cellIndex r.cell
    if !allZero (slice r.pk.params 10 6) then refuse 0x0105 0 s
    else
    match ctxRange (r.num 0 4) (r.num 4 4) with
    | none => refuse 0x0109 0 s
    | some xs =>
      match xs.find? fun x => s.cst (cellNo 0x0D x) ≠ .stopped with
      | some x => refuse 0x0201 (cellNo 0x0D x) s
      | none =>
        let s := s.io.bindings.foldl (fun s b =>
          if b.cls ≠ n ∨ !(b.ctxs.any fun x => xs.contains x) then s
          else
            let left : Binding := { b with ctxs := b.ctxs.filter fun x => !xs.contains x }
            let left := { left with held := s.bindHolds left }
            let s := (b.held.filter fun c => !left.held.contains c).foldl (fun s c => s.bindHoldDown c) s
            let s := (left.held.filter fun c => !b.held.contains c).foldl (fun s c => s.bindHoldUp c) s
            let s := (b.ctxs.filter fun x => xs.contains x).foldl (fun s x =>
              (s.modCtx x fun c => { c with clsValid := false }).modIo fun i =>
                { i with buckets := tabErase i.buckets x }) s
            s.modIo fun i =>
              { i with bindings := i.bindings.flatMap fun o =>
                  if o = b then (if left.ctxs.isEmpty then [] else [left]) else [o] }) s
        done s

/-- UNBIND (R419). -/
def execUnbind (pk : Pkt) (s : State) : Host.Outcome State Fault Refusal := .next (submit opUnbind pk s)

/-! ### The DMA cap -/

/-- The highest cap in lines per µs: 4,296, or 90% of the peak of R34 where that is less (R36). -/
def State.capMax (s : State) : Nat :=
  if (List.range 24).any fun i => (s.chan i).rate = 1#4 then 3780 else 4296

/-- DMA_CAP_SET (R40). -/
def opDmaCapSet : Op where
  code := 0x0406
  len := exactly 1
  on := kindIn [0x18]
  classes := mgr
  run r s :=
    let w := r.word 0
    let cap := bits w 12 0
    let share := bits w 28 16
    if badWord w 0x1FFF1FFF ≠ 0 then refuse (badWord w 0x1FFF1FFF) 0 s
    else if cap < 128 ∨ s.capMax < cap ∨ share < 64 ∨ cap < share + 64 then
      refuse 0x0109 0 s
    else
      match s.admission { s.plan with shares := [share, cap - share] } with
      | some i => infeasible i s
      | none => done (s.modIo fun i => { i with nextCap := some (cap, share) })

/-- DMA_CAP_SET (R40). -/
def execDmaCapSet (pk : Pkt) (s : State) : Host.Outcome State Fault Refusal := .next (submit opDmaCapSet pk s)

end Sys2Proof.Machine
end

