-- ==== Sys2Proof/Machine/Movers.lean ====
section
/-! DEFINITION. Data movers and staging queues (chapter 08): grants, drains, fills, MOVE, bus errors, and the DMA
cap's tokens (R35 to R38). -/

namespace Sys2Proof.Machine

/-! ### A mover's accesses -/

/-- A mover's read: memory, or a root port's window (R563). A read trains the line's slice (R249). -/
def State.moverRead (s : State) (d m pa n : Nat) : Bytes × State :=
  if pcieBase ≤ pa then s.pcieRead pa n
  else (s.bytesAt pa n, (s.dmaRead pa n).trainStream (cellNo 0x0B (32 * d + m)) (lineOf pa))

/-! ### Where the next byte of an operation goes -/

/-- Where a place in an operation falls: an element of an entry, with how much of it lies before; or the program
fault where the list ends; or past the last byte. -/
inductive Extent where
  | bytes (entry : Nat) (addr len skip : Nat) (final : Nat)
  | stop (reason : Nat)
  | past
  deriving DecidableEq, Repr

/-- Find a place in the elements of one entry; `final` is the bytes of the entry from that element on. -/
def elemExtent (e : SpanEntry) : List (Nat × Nat) → Nat → Nat → Extent
  | [], _, _ => .stop e.stop
  | (a, n) :: l, off, left => if off < n then .bytes e.index a n off left else elemExtent e l (off - n) (left - n)

/-- Find a place in the entries of a span. -/
def spanExtent : List SpanEntry → Nat → Extent
  | [], _ => .past
  | e :: es, off => if off < e.count then elemExtent e e.elems off e.count else spanExtent es (off - e.count)

/-- A piece that an access of the operation may take: the physical address, its bytes, and the entry; or why not: its translation waits for memory, or the operation has no further bytes. -/
inductive Piece where
  | ok (pa n entry : Nat) (final : Bool) (s : State)
  | fault (reason : Nat)
  | wait (s : State)
  | none

/-- The next piece of an operation, at most `room` bytes and within one line; each element is checked whole before
any byte of it moves (R359, R361). -/
def State.nextPiece (s : State) (x : Nat) (op : DevOp) (off room : Nat) (acc : Acc) : Piece :=
  match spanExtent op.entries off with
  | .past => .none
  | .stop r => .fault r
  | .bytes e a len skip left =>
    match (if skip = 0 then s.dataRange x a len acc else .ok ([], s)) with
    | .error r => .fault r
    | .ok _ =>
      match s.tablesWait (((s.ctx x).owner.map fun n => s.partTables n (a + skip) 1).getD []) with
      | some t => .wait t
      | none =>
      let n := min (min room (len - skip)) (256 - (a + skip) % 256)
      match s.dataRange x (a + skip) n acc with
      | .error r => .fault r
      | .ok (p :: _, t) => .ok p.1 n e (decide (left ≤ skip + n)) t
      | .ok ([], _) => .none

/-- Record bytes that an entry has moved, for its CRC (R362). -/
def DevOp.see (op : DevOp) (entry : Nat) (bs : Bytes) : DevOp :=
  { op with entries := op.entries.map fun e =>
      if e.index = entry ∧ e.crcStore then { e with seen := e.seen ++ bs } else e }

/-! ### Drains -/

/-- Take up to `n` bytes of the context at the head of an inbound queue: the bytes, the credits due, the rest. -/
def takeIn (x : Nat) : Nat → List Chunk → Bytes × Nat × List Chunk
  | _, [] => ([], 0, [])
  | n, c :: l =>
    if c.ctx ≠ x ∨ n = 0 then ([], 0, c :: l)
    else if n < c.bytes.length then (c.bytes.take n, 0, { c with bytes := c.bytes.drop n } :: l)
    else
      let r := takeIn x (n - c.bytes.length) l
      (c.bytes ++ r.1, c.credits + r.2.1, r.2.2)

/-- The bytes of one context at the head of a queue. -/
def headRun (x : Nat) : List Chunk → Nat
  | [] => 0
  | c :: l => if c.ctx = x then c.bytes.length + headRun x l else 0

/-- The PCP of a tagged frame (R561), else 0. -/
def framePcp (frame : Bytes) : Nat := if numAt frame 12 2 = 0x8100 then numAt frame 14 1 / 32 else 0

/-- The accesses of a mover for a MOVE, an Ethernet port or a root port meet what bus errors there are: BUS_RETRY is 3, which
R380 gives for a MOVE and which is the model's choice for the others (log entry 128). Beyond it, the unit that answered. -/
def State.moveBus (s : State) (d : Nat) (m : Option Nat) (ps : List (Nat × Nat)) : Option Nat × State :=
  ps.foldl (fun (r : Option Nat × State) p => (linesOf p.1 p.2).foldl (fun r l =>
    match r with
    | (some u, s) => (some u, s)
    | (none, s) =>
      match s.takeBusErr d m (256 * l) with
      | (some e, s) => (if e.times ≤ 3 then none else some e.unit, s)
      | (none, s) => (none, s)) r) (none, s)

/-- A mover makes an access to pieces that may meet a bus error: the unit that answers with one that halts it, or what it
gives. -/
def State.moverAccess {α : Type} (s : State) (d : Nat) (m : Option Nat) (ps : List (Nat × Nat)) (write : Bool) (act : State → α × State) :
    Option (Except Nat α) × State :=
  s.moverReach d (pieceLines ps) ps write fun s => match s.moveBus d m ps with
    | (some u, s) => (.error u, s)
    | (none, s) => (.ok (act s).1, (act s).2)

/-- The owner's buffer takes a received Ethernet frame, and its ETH_RECV completes (R561). The first component says that the
frame has left the queue. -/
def State.ethDeliver (s : State) (p m : Nat) (frame : Bytes) : Bool × State :=
  let d := p / 128
  match (s.port p).ethRecvs with
  | [] => (false, s)
  | (addr, _, who) :: rest =>
    let used (s : State) : State := s.modPort p fun q => { q with ethRecvs := rest }
    let tag := numAt frame 12 2 = 0x8100
    let n := (s.port p).cfg.owner
    match s.tablesWait (s.partTables n addr frame.length), s.partRange n addr frame.length .write with
    | some t, _ => (false, t)
    | none, none => (true, (used s).complete who 0x0504 4 [])
    | none, some (ps, t) =>
      if ps.any fun e => controlBase < e.1 + e.2 then (true, (used s).complete who 0x0504 4 [])
      else
        match t.moverAccess d (some m) ps true fun t => ((), t.writePieces d ps frame) with
        | (none, t) => (false, t)
        | (some (.error u), t) => (true, (used t).complete who 0x0502 u [])
        | (some (.ok _), t) =>
          (true, (used t).complete who 0 0 (beBytes 4 frame.length ++ beBytes 4 (b1 (decide tag) + 2 * framePcp frame)))

/-- One access of a drain (R357 to R362, R370 to R372); the first component says that the drain may go on, the mover having
neither to wait nor nothing left. -/
def State.drainStep (s : State) (p m : Nat) : Bool × State :=
  let d := p / 128
  let set (inq : List Chunk) (s : State) : State := s.modStaging p fun g => { g with inq := inq }
  match (s.staging p).inq with
  | [] => (false, s)
  | c :: rest =>
    if c.ctx = 131072 then
      match s.ethDeliver p m c.bytes with
      | (true, s) => (true, set rest s)
      | r => r
    else if c.ctx = 131073 then
      let n := (s.port p).cfg.owner
      match s.tablesWait (s.partTables n c.addr c.bytes.length), s.partRange n c.addr c.bytes.length .write with
      | some t, _ => (false, t)
      | none, some (ps, t) =>
        match t.moverAccess d (some m) ps true fun t => ((), t.writePieces d ps c.bytes) with
        | (none, t) => (false, t)
        | (some (.error _), t) => (true, (set rest t).reportCell (cellNo 5 (groupOfPort p)) 1)
        | (some (.ok _), t) => (true, set rest t)
      | none, none => (true, (set rest s).reportCell (cellNo 5 (groupOfPort p)) 1)
    else if c.ctx = 131074 then
      let n := (s.port p).cfg.owner
      let answer (s : State) (i : LineItem) : State := (set rest s).modPort p fun q => { q with sent := q.sent ++ [i] }
      let fails (s : State) : State := (answer s .unsupportedRequest).reportCell (cellNo 5 (groupOfPort p)) 1
      match s.tablesWait (s.partTables n c.addr c.credits), s.partRange n c.addr c.credits .read with
      | some t, _ => (false, t)
      | none, some (ps, t) =>
        match t.moverAccess d (some m) ps false fun t => t.readPieces ps with
        | (none, t) => (false, t)
        | (some (.error _), t) => (true, fails t)
        | (some (.ok b), t) => (true, answer t (.readData b))
      | none, none => (true, fails s)
    else
      let x := c.ctx
      let drop (s : State) : State := (set rest s).freeCredits p x c.credits
      match (s.run x).op with
      | none => (true, drop s)
      | some op =>
        if (op.kind ≠ 1 ∧ op.kind ≠ 4) ∨ (s.ctx x).port ≠ p then (true, drop s)
        else
          match s.nextPiece x op op.moved (headRun x (c :: rest)) .write with
          | .none => (true, (drop (s.modRun x fun r => { r with op := some { op with excess := true } })).settle x)
          | .fault r => (true, s.finishRun x 0x0504 r)
          | .wait t => (false, t)
          | .ok pa n e final t =>
            let (bs, credits, inq) := takeIn x n (c :: rest)
            match t.moverReach d 1 [(pa, n)] true fun t =>
              match t.busAccess d (some m) x pa final with
              | (false, t) => (false, t)
              | (true, t) => (true, t.moverWrite d pa bs) with
            | (none, t) => (false, t)
            | (some false, t) => (true, t)
            | (some true, t) =>
              let t := ((set inq t).freeCredits p x credits).modRun x fun r =>
                { r with op := r.op.map fun op => { (op.see e bs) with moved := op.moved + n } }
              (true, t.settle x)

/-- What a drain empties its queue to (R370 to R372). -/
def Staging.target (g : Staging) : Nat := if g.toZero then 0 else g.low * 256

/-- A drain has reached its target: no more bytes than that are left, and no read of an endpoint. -/
def State.drained (s : State) (p : Nat) : Bool :=
  decide ((s.staging p).inFill ≤ (s.staging p).target) && !((s.staging p).inq.any fun c => c.ctx = 131074)

/-- A drain goes on until its target, or until it must wait. -/
def State.drain : Nat → Nat → Nat → State → State
  | 0, _, _, s => s
  | k + 1, p, m, s =>
    if s.drained p then s
    else
      match s.drainStep p m with
      | (false, s) => s
      | (true, s) => State.drain k p m s

/-! ### Fills -/

/-- The context whose bytes are staged next: one bound to a class first, then the one with the fewest bytes staged. -/
def State.nextWriter (s : State) (p : Nat) : Option Nat :=
  let held (x : Nat) : Nat := ((s.staging p).outq.filter fun c => c.1 = x).foldl (fun n c => n + c.2.length) 0
  minBy (fun x => (if (s.ctx x).clsValid then 0 else 2 ^ 40) + held x) (s.writers p)

/-- One access of a fill (R373, R382); the first component says that the fill may go on. -/
def State.fillStep (s : State) (p m : Nat) : Bool × State :=
  let d := p / 128
  match s.nextWriter p with
  | none => (false, s)
  | some x =>
    match (s.run x).op with
    | none => (false, s)
    | some op =>
      match s.nextPiece x op op.here 256 .read with
      | .none => (false, s)
      | .fault r => (true, s.finishRun x 0x0504 r)
      | .wait t => (false, t)
      | .ok pa n e final t =>
        match t.moverReach d 1 [(pa, n)] false fun t =>
          match t.busAccess d (some m) x pa final with
          | (false, t) => (none, t)
          | (true, t) =>
            if pa < pcieBase ∧ t.poisoned pa n then (none, (t.dmaRead pa n).finishRun x 0x0506 0)
            else
              let (bs, t) := t.moverRead d m pa n
              (some bs, t) with
        | (none, t) => (false, t)
        | (some none, t) => (true, t)
        | (some (some bs), t) =>
          let t := t.modStaging p fun g => { g with outq := g.outq ++ [(x, bs)] }
          (true, t.modRun x fun r =>
            { r with op := r.op.map fun op => { (op.see e bs) with here := op.here + n } })

/-- A fill goes on to HIGH, until no operation has bytes left, or until it must wait. -/
def State.fill : Nat → Nat → Nat → State → State
  | 0, _, _, s => s
  | k + 1, p, m, s =>
    if (s.staging p).high * 256 ≤ (s.staging p).outFill then s
    else
      match s.fillStep p m with
      | (false, s) => s
      | (true, s) => State.fill k p m s

/-- A fill has reached its end (R373). -/
def State.filled (s : State) (p : Nat) : Bool :=
  decide ((s.staging p).high * 256 ≤ (s.staging p).outFill) || (s.writers p).isEmpty

/-! ### MOVE -/

/-- Change a MOVE. -/
def State.modMove (s : State) (id : Nat) (f : MoveJob → MoveJob) : State :=
  s.modIo fun i => { i with moves := i.moves.map fun j => if j.id = id then f j else j }

/-- The pieces of a range of a partition for a MOVE (R359, R378). -/
def State.moveRange (s : State) (n addr len : Nat) (acc : Acc) : Option (List (Nat × Nat) × State) :=
  match s.partRange n addr len acc with
  | some (ps, t) => if ps.all fun p => p.1 + p.2 ≤ controlBase then some (ps, t) else none
  | none => none

/-- The next bytes of a segment: the offset and the length, within one line of the source and one of the destination
(R377). -/
def movePiece (src dst len off : Nat) : Nat × Nat :=
  if src < dst ∧ dst < src + len then
    let left := len - off
    let n := min left (min ((src + left - 1) % 256 + 1) ((dst + left - 1) % 256 + 1))
    (left - n, n)
  else (off, min (len - off) (min (256 - (src + off) % 256) (256 - (dst + off) % 256)))

/-- The bytes that a copy of `bs` from `a` to `c`, byte by byte, leaves there where the two overlap in memory (R377). -/
def copied (down : Bool) (a c : Nat) (bs : Bytes) : Bytes :=
  let n := bs.length
  if !down ∧ a < c ∧ c < a + n then (List.range n).map fun i => bs.getD (i % (c - a)) 0
  else if down ∧ c < a ∧ a < c + n then (List.range n).map fun i => bs.getD (i + (a - c) * ((n - 1 - i) / (a - c))) 0
  else bs

/-- The bytes of a segment, once they have been read (R377); a poisoned one is a poisoned line that the MOVE reads (R382). -/
def State.segmentOf (s : State) (m : Nat) (j : MoveJob) : Except (Nat × Nat) (Option Bytes) × State :=
  match j.held with
  | some b => (.ok (some b), s)
  | none =>
    let at_ := j.list + 32 * j.seg
    match s.tablesWait (s.partTables j.part at_ 32), s.moveRange j.part at_ 32 .read with
    | some t, _ => (.ok none, t)
    | none, none => (.error (0x0504, 4), s)
    | none, some (ps, t) =>
      match t.moverAccess j.die (some m) ps false fun t => ((t.piecesPoisoned ps, (t.readPieces ps).1), (t.readPieces ps).2) with
      | (none, t) => (.ok none, t)
      | (some (.error u), t) => (.error (0x0502, u), t)
      | (some (.ok (true, _)), t) => (.error (0x0506, j.seg), t)
      | (some (.ok (false, b)), t) => (.ok (some b), t.modMove j.id fun j => { j with held := some b })

/-- One access pair of a MOVE (R376 to R378, R382); the first component says that the MOVE may go on: it has not ended, and
its mover need not wait. -/
def State.moveStep (s : State) (m : Nat) (j : MoveJob) : Bool × State :=
  let d := j.die
  let stop (st dt : Nat) (s : State) : Bool × State := (true, s.modMove j.id fun j => { j with result := some (st, dt) })
  if j.result.isSome then (false, s)
  else if j.segments ≤ j.seg then stop 0 0 s
  else
    match s.segmentOf m j with
    | (.error (st, dt), t) => stop st dt t
    | (.ok none, t) => (false, t)
    | (.ok (some b), t) =>
      let src := numAt b 0 8
      let dst := numAt b 8 8
      let len := numAt b 16 4
      if numAt b 20 12 ≠ 0 then stop 0x0504 2 t
      else if len ≤ j.off then
        (true, t.modMove j.id fun j =>
          { j with seg := j.seg + 1, off := if j.seg + 1 < j.segments then 0 else j.off, held := none })
      else if j.off = 0 ∧ ((t.moveRange j.part src len .read).isNone ∨ (t.moveRange j.part dst len .write).isNone) then
        stop 0x0504 4 t
      else
        let (o, n) := movePiece src dst len j.off
        match t.tablesWait (t.partTables j.part (src + o) n ++ t.partTables j.part (dst + o) n) with
        | some u => (false, u)
        | none =>
        match t.moveRange j.part (src + o) n .read with
        | none | some ([], _) => stop 0x0504 4 t
        | some (a :: _, t1) =>
          match t1.moveRange j.part (dst + o) n .write with
          | none | some ([], _) => stop 0x0504 4 t
          | some (c :: _, t2) =>
            match t2.reach [a] false fun t => ((), t) with
            | (none, t) => (false, t)
            | (some _, t) =>
            match t.moverReach d 2 [c] true fun t =>
              match t.moveBus d (some m) [(a.1, n), (c.1, n)] with
              | (some u, t) => (some (0x0502, u), t)
              | (none, t) =>
                if a.1 < pcieBase ∧ t.poisoned a.1 n then
                  let t := t.dmaRead a.1 n
                  (some (0x0506, j.seg), if c.1 < pcieBase then t.poisonLine (lineOf c.1) else t)
                else
                  let (bs, t) := t.moverRead d m a.1 n
                  let down := decide (src < dst ∧ dst < src + len)
                  ((none : Option (Nat × Nat)), t.moverWrite d c.1 (copied down a.1 c.1 bs)) with
            | (none, t) => (false, t)
            | (some (some (st, dt)), t) => stop st dt t
            | (some none, t) => (true, t.modMove j.id fun j => { j with off := j.off + n })

/-- A MOVE goes on until it ends or must wait. -/
def State.moveOn : Nat → Nat → Nat → State → State
  | 0, _, _, s => s
  | k + 1, id, m, s =>
    match s.io.moves.find? fun j => j.id = id with
    | none => s
    | some j =>
      match s.moveStep m j with
      | (false, s) => s
      | (true, s) => State.moveOn k id m s

/-! ### Serving a request -/

/-- Release a mover. -/
def State.release (s : State) (d m : Nat) : State := s.modIoDie d fun x => { x with serving := tabErase x.serving m }

/-- A granted mover goes on with its request as far as tokens allow. A fill that has reached its end releases its
mover; a drain does so in INBOUND_DRAIN_END, a MOVE in MOVE_COMPLETE. -/
def State.serve (s : State) (d m : Nat) : State :=
  match tabFind (s.ioDie d).serving m with
  | some (.drain p) => s.drain 65536 p m
  | some (.fill p) =>
    let s := s.fill 65536 p m
    if s.filled p then (s.release d m).sendOut p else s
  | some (.move id) => s.moveOn 131072 id m
  | none => s

/-- A staging request whose oldest byte belongs to a context bound to a class (R368). -/
def State.timedJob (s : State) : MoverJob → Bool
  | .drain p => (((s.staging p).inq.head?).map fun c => (s.ctx c.ctx).clsValid).getD false
  | .fill p =>
    match (s.staging p).outq with
    | c :: _ => (s.ctx c.1).clsValid
    | [] => ((s.writers p).head?.map fun x => (s.ctx x).clsValid).getD false
  | .move _ => false

/-- The request that is granted next, and to which mover (R368, R424). Movers from 31 downwards are reserved for the
first step. -/
def State.grantNext (s : State) (d : Nat) : Option (MoverJob × Nat) :=
  let x := s.ioDie d
  let free := (List.range 32).filter fun m => (tabFind x.serving m).isNone && s.cst (cellNo 0x0B (32 * d + m)) == .running
  let kept := 32 - (s.reservedPorts s.io.bindings d).length
  let open_ := free.filter fun m => m < kept
  let moves := (x.serving.filter fun e => match e.2 with
    | .move _ => true
    | _ => false).length
  let isMove (j : MoverJob) : Bool := match j with
    | .move _ => true
    | _ => false
  match x.requests.find? fun j => s.timedJob j, free.getLast? with
  | some j, some m => some (j, m)
  | _, _ =>
    match open_.head? with
    | none => none
    | some m =>
      match x.requests.find? fun j => !isMove j && !s.timedJob j with
      | some j => some (j, m)
      | none =>
        if moves < x.moveMax then (x.requests.find? isMove).map fun j => (j, m) else none

/-- MOVER_GRANT (R368). -/
def execMoverGrant (d : Fin 2) (s : State) : Host.Outcome State Fault Refusal :=
  .next (match s.grantNext d with
  | none => s
  | some (j, m) =>
    let s := s.modIoDie d fun x => { x with requests := x.requests.erase j, serving := tabInsert x.serving m j }
    let s := match j with
      | .drain p => s.modStaging p fun g => { g with tailAt := none }
      | _ => s
    s.serve d m)

/-- The tail timer is armed (R371). -/
def State.armTail (s : State) (p : Nat) : State := s.modStaging p fun g => { g with tailAt := some (s.now + g.tail) }

/-- INBOUND_DRAIN_END (R370, R371). -/
def execInboundDrainEnd (port : PortId) (s : State) : Host.Outcome State Fault Refusal :=
  let d := port.val / 128
  .next (match (s.ioDie d).serving.find? fun e => e.2 = .drain port with
  | none => s
  | some (m, _) =>
    let s := s.serve d m
    let g := s.staging port
    if s.drained port then
      let s := (s.release d m).modStaging port fun g => { g with toZero := false, tailAt := none }
      if g.inFill = 0 then s else s.armTail port
    else s)

/-- The tail timer of an inbound queue expires (R371). -/
def State.tailExpire (s : State) (p : Nat) : State :=
  match (s.staging p).tailAt with
  | some t =>
    if s.now < t then s
    else
      (s.modStaging p fun g => { g with tailAt := none, flushes := satAdd g.flushes 1 }).askDrain p true
  | none => s

/-- TAIL_TIMER_EXPIRY (R371). -/
def execTailTimerExpiry (port : PortId) (s : State) : Host.Outcome State Fault Refusal := .next (s.tailExpire port)

/-- OUTBOUND_FILL (R373): the queue at LOW asks for a mover; one that it has goes on. -/
def execOutboundFill (port : PortId) (s : State) : Host.Outcome State Fault Refusal :=
  let d := port.val / 128
  .next (match (s.ioDie d).serving.find? fun e => e.2 = .fill port with
  | some (m, _) => s.serve d m
  | none => s.sendOut port)

/-- DMA_TOKEN_REFILL (R37, R38, R40): the movers that waited go on, and so do the CRC writes that did. -/
def execDmaTokenRefill (d : Fin 2) (s : State) : Host.Outcome State Fault Refusal :=
  let s := match s.io.nextCap with
    | some (cap, share) => s.modIo fun i => { i with capLines := cap, share0 := share, nextCap := none }
    | none => s
  let share := if d = 0 then s.io.share0 else s.io.capLines - s.io.share0
  let s := s.modIoDie d fun x => { x with tokens := share }
  let s := ((s.ioDie d).serving.map Prod.fst).foldl (fun s m => s.serve d m) s
  .next (((s.io.runs.map Prod.fst).filter fun x => s.ctxCp x / 2 == d.val && (s.run x).crcDue).foldl (fun s x => s.settle x) s)

/-- BUS_ERROR_RETRY (R380): the mover's next access to the line is answered with an error so many times. -/
def execBusErrorRetry (mover : Fin 64) (pa unit times : Nat) (s : State) : Host.Outcome State Fault Refusal :=
  let d := mover.val / 32
  let m := mover.val % 32
  let s := s.modIoDie d fun x => { x with busErr := x.busErr ++ [⟨m, lineOf pa, unit, times⟩] }
  .next (s.serve d m)

/-- A mover fails (R379, R383): another one goes on with its request, but a MOVE ends with the progress reached. -/
def State.moverFault (s : State) (d m : Nat) : State :=
  let s := (s.failCell (cellNo 0x0B (32 * d + m))).reportCell (cellNo 0x0B (32 * d + m)) 2
  match tabFind (s.ioDie d).serving m with
  | none => s
  | some j =>
    let s := s.release d m
    let s := s.modIoDie d fun x =>
      { x with busErr := x.busErr.filter fun e => e.mover != m }
    match j with
    | .move id =>
      s.modMove id fun j => { j with result := some (j.result.getD (0x0503, cellNo 0x0B (32 * d + m))) }
    | j => s.modIoDie d fun x => { x with requests := j :: x.requests }

/-- An I/O die fails: its MOVEs end with the progress reached (R379). -/
def State.movesFail (s : State) (d : Nat) : State :=
  (s.modIo fun i => { i with moves := i.moves.map fun j =>
    if j.die = d then { j with result := some (j.result.getD (0x0503, cellNo 0x16 d)) } else j }).modIoDie d fun x =>
      { x with requests := x.requests.filter fun r => match r with
          | .move _ => false
          | _ => true }

/-- MOVER_FAULT (R383). -/
def execMoverFault (mover : Fin 64) (s : State) : Host.Outcome State Fault Refusal :=
  .next (s.moverFault (mover / 32) (mover % 32))

/-- The MOVEs that movers of a die serve, for the choice of R376. -/
def State.movesActive (s : State) (d : Nat) : Nat :=
  ((s.ioDie d).serving.filter fun e => match e.2 with
    | .move _ => true
    | _ => false).length

/-- MOVE (R376). DIE 0xFF passes over a FAULTED die, and a MOVE of a FAULTED die ends as one whose die fails (R379): the model's
choice (log entry 112). -/
def opMove : Op where
  code := 0x0403
  len := exactly 2
  on := kindIn [0x14]
  classes := any012
  run r s :=
    let list := r.num 0 8
    let segments := r.num 8 2
    let die := r.num 10 1
    if !allZero (slice r.pk.params 11 5) then refuse 0x0105 0 s
    else if list % 32 ≠ 0 ∨ segments = 0 ∨ (1 < die ∧ die ≠ 0xFF) then refuse 0x0109 0 s
    else
      let dead (d : Nat) : Bool := s.cst (cellNo 0x16 d) == .faulted
      let fewer := if s.movesActive 1 < s.movesActive 0 then 1 else 0
      let d := if die ≠ 0xFF then die else if dead fewer then 1 - fewer else fewer
      let id := s.io.moveId
      let j : MoveJob :=
        { id := id, part := cellIndex r.cell, die := d, list := list, segments := segments, seg := 0, off := 0, held := none,
          result := if dead d then some (0x0503, cellNo 0x16 d) else none, who := r.who }
      let t := s.modIo fun i => { i with moves := i.moves ++ [j], moveId := id + 1 }
      accepted (if dead d then t else t.askMover d (.move id))

/-- MOVE (R377). -/
def execMove (pk : Pkt) (s : State) : Host.Outcome State Fault Refusal := .next (submit opMove pk s)

/-- MOVE_COMPLETE (R378, R379): the MOVE at a place in the list of those under way has ended. -/
def execMoveComplete (job : Nat) (s : State) : Host.Outcome State Fault Refusal :=
  .next (match s.io.moves[job]? with
  | none => s
  | some j =>
    match j.result with
    | none => s
    | some (st, dt) =>
      let s := match (s.ioDie j.die).serving.find? fun e => e.2 = .move j.id with
        | some (m, _) => s.release j.die m
        | none => s
      let s := s.modIoDie j.die fun x => { x with requests := x.requests.erase (.move j.id) }
      (s.modIo fun i => { i with moves := i.moves.filter fun k => k.id != j.id }).complete j.who st dt
        (beBytes 4 j.seg ++ beBytes 4 j.off ++ zeros 8))

/-- STAGE_SET (R375). -/
def opStageSet : Op where
  code := 0x0404
  len := exactly 1
  on := kindIn [0x06]
  classes := mgr
  run r s :=
    let w := r.word 0
    let high := bits w 7 0
    let low := bits w 15 8
    let tail := bits w 31 16
    if 2 ^ 32 ≤ w.toNat then refuse 0x0105 0 s
    else if high = 0 ∨ 128 < high ∨ high ≤ low ∨ tail = 0 then refuse 0x0109 0 s
    else done (s.modStaging (cellIndex r.cell) fun g => { g with next := some (high, low, tail) })

/-- STAGE_SET (R375). -/
def execStageSet (pk : Pkt) (s : State) : Host.Outcome State Fault Refusal := .next (submit opStageSet pk s)

/-- MOVER_SET (R375, R424). -/
def opMoverSet : Op where
  code := 0x0405
  len := exactly 1
  on := kindIn [0x16]
  classes := mgr
  run r s :=
    let w := r.word 0
    let n := bits w 5 0
    let d := cellIndex r.cell
    if badWord w 0x3F ≠ 0 then refuse (badWord w 0x3F) 0 s
    else if 24 < n ∨ 32 < (s.reservedPorts s.io.bindings d).length + n then refuse 0x0109 0 s
    else done (s.modIoDie d fun x => { x with nextMax := some n })

/-- MOVER_SET (R375). -/
def execMoverSet (pk : Pkt) (s : State) : Host.Outcome State Fault Refusal := .next (submit opMoverSet pk s)

/-- What the next tick does to a port's staging: STAGE_SET takes effect; a HIGH at or below the fill asks for a
mover (R375). -/
def State.stagingTick (s : State) (p : Nat) : State :=
  match (s.staging p).next with
  | some (high, low, tail) =>
    let s := s.modStaging p fun g => { g with high := high, low := low, tail := tail, next := none }
    let s := if high * 256 ≤ (s.staging p).inFill then s.askDrain p false else s
    s.askFill p
  | none => s

/-- What the next tick does to an I/O die: MOVER_SET takes effect (R375). -/
def State.ioDieTick (s : State) (d : Nat) : State :=
  s.modIoDie d fun x => { x with moveMax := (x.nextMax).getD x.moveMax, nextMax := none }

end Sys2Proof.Machine
end

