-- ==== Sys2Proof/Machine/Journal.lean ====
section
/-! DEFINITION. The Yarrow journal (chapter 09): deadlines at run time, uncorrectable errors, the journal commands,
and mirroring to a bundle partner. -/

namespace Sys2Proof.Machine

/-- The 32 bytes of an entry (R388). -/
def JEntry.bytes (e : JEntry) : Bytes :=
  let time := if e.timed ∧ 1 ≤ e.state ∧ e.state ≤ 3 then e.deadline % 2 ^ 28
    else if e.state = 5 then e.lateTick % 2 ^ 28 else 0
  beBytes 1 (e.state * 32 + b1 e.timed * 16 + b1 e.lateAcked * 8 + b1 e.consumed * 4 + b1 e.redriven * 2 +
      b1 e.reposted) ++
    [e.path] ++ beBytes 2 (if e.state < 4 then 0 else e.status.toNat) ++ beBytes 4 e.tag.toNat ++
    beBytes 4 e.seq.toNat ++ beBytes 4 (e.ring % 16 * 2 ^ 28 + time) ++
    beBytes 8 (e.ctx * 2 ^ 47 + e.program / 32 % 2 ^ 47) ++ beBytes 4 e.entryIndex.toNat ++ beBytes 4 e.byteOffset.toNat

/-- The entry that 32 bytes give (R388). -/
def entryOf (b : Bytes) : JEntry :=
  let flags := numAt b 0 1
  let time := numAt b 12 4 % 2 ^ 28
  if flags / 32 = 0 then JEntry.free
  else
    { JEntry.free with
      state := flags / 32, timed := flags.testBit 4, lateAcked := flags.testBit 3, consumed := flags.testBit 2
      redriven := flags.testBit 1, reposted := flags.testBit 0, path := b.getD 1 0, status := BitVec.ofNat 16 (numAt b 2 2)
      tag := BitVec.ofNat 32 (numAt b 4 4), seq := BitVec.ofNat 32 (numAt b 8 4), ring := numAt b 12 4 / 2 ^ 28
      deadline := time, lateTick := time, ctx := numAt b 16 8 / 2 ^ 47, program := numAt b 16 8 % 2 ^ 47 * 32
      entryIndex := BitVec.ofNat 32 (numAt b 24 4), byteOffset := BitVec.ofNat 32 (numAt b 28 4) }

/-- Change both copies' status. -/
def State.modCopies (s : State) (f : JCopy → JCopy) : State := [0, 1].foldl (fun s d => s.modCopy d f) s

/-! ### Deadlines -/

/-- The context's active operation waits only for its partner (R398). -/
def State.waitsPartner (s : State) (x : Nat) : Bool :=
  let c := s.ctx x
  match (s.run x).op with
  | some op =>
    c.op == .active && op.sent && !op.due && op.ended.isNone &&
      !((s.staging c.port).inq.any fun k => k.ctx = x) &&
      ((op.kind != 2 && op.kind != 3) || decide (op.count ≤ op.moved))
  | none => false

/-- The start's ending status has reached the channel processor: that of its last device operation (R397). -/
def State.hasEnded (s : State) (j : Nat) : Bool :=
  let r := s.run (s.entry j).ctx
  s.isActive j && (r.result.isSome || (r.op.map DevOp.ends).getD false)

/-- The cutoff tick of a timed start passes without its ending status: a late completion is posted (R397 to
R399). -/
def State.cutoff (s : State) (j : Nat) : State :=
  let e := s.entry j
  if e.timed ∧ 1 ≤ e.state ∧ e.state ≤ 3 ∧ e.posting = 0 ∧ e.deadline ≤ s.now + 40 ∧ !s.hasEnded j ∧ !s.awaitsCopy j then
    let status : BitVec 16 := if s.waitsPartner e.ctx then 0x0501 else 0x0509
    let results := if s.isActive j then s.ioResults e.ctx j else s.queuedResults j
    let s := s.modCopies fun c => { c with lateSeen := true, latePosts := satAdd c.latePosts 1 }
    s.postReply j true status 0 results
  else s

/-- DEADLINE_CUTOFF (R397). -/
def execDeadlineCutoff (entry : EntryId) (s : State) : Host.Outcome State Fault Refusal := .next (s.cutoff entry)

/-- A late operation has not ended by its late limit: ABANDONED (R401). -/
def State.lateLimit (s : State) (j : Nat) : State :=
  let e := s.entry j
  if e.state = 5 ∧ e.lateTick ≤ s.now ∧ !s.hasEnded j then
    let s := s.modCopies fun c => { c with abandonSeen := true, abandons := satAdd c.abandons 1 }
    if s.isActive j then ((s.finishRun e.ctx 0x050A 0).lateEnd j 0x050A).startEnds j
    else (s.modCtx e.ctx fun c => { c with queue := c.queue.filter fun r => r.entry != j }).lateEnd j 0x050A
  else s

/-- LATE_LIMIT_EXPIRY (R401). -/
def execLateLimitExpiry (entry : EntryId) (s : State) : Host.Outcome State Fault Refusal := .next (s.lateLimit entry)

/-! ### Copies -/

/-- JOURNAL_ENTRY_UE (R409): the other copy repairs the entry, unless it meets an error of its own there in the same tick, which
is the model's choice (log entry 127); without one, an entry whose start is active or queued is
rebuilt from its context, and any other is retired. -/
def execJournalEntryUe (copy : Fin 2) (entry : EntryId) (s : State) : Host.Outcome State Fault Refusal :=
  let cell := cellNo 0x12 (1 + copy.val)
  let st := (s.entry entry).state
  let other := 1 - copy.val
  let s := s.modCopy copy fun c => { c with copyUe := true, bad := insertNat c.bad entry }
  .next (if s.copyServes other ∧ !(s.copy other).bad.contains entry.val then s.reportCell cell 1
    else
      let s := s.reportCell cell 2
      if st = 4 ∨ st = 6 then s.modEntry entry fun _ => JEntry.free else s)

/-- What the next tick finds in the copies of the journal: every entry repaired (R409). -/
def State.copiesTick (s : State) : State := s.modCopies fun c => { c with bad := [] }

/-- JOURNAL_REBUILD_COMPLETE (R395). -/
def execJournalRebuildComplete (copy : Fin 2) (s : State) : Host.Outcome State Fault Refusal :=
  let c := s.copy copy
  .next (if c.rebuilding then
    let s := s.modCopy copy fun c => { c with rebuilding := false, rebuildWho := none }
    match c.rebuildWho with
    | some who => s.complete who 0 0 []
    | none => s
  else s)

/-! ### Commands -/

/-- The cells that the journal commands address: contexts, and the journal as a whole. -/
def ctxOrJournal (_ : State) (c : Nat) : Bool := cellKind c == 0x0D || c == cellJournal

/-- The entry may be named at the cell: at a context, its own entries alone (R428). -/
def State.entryAtCell (s : State) (cell j : Nat) : Bool :=
  cell == cellJournal || ((s.entry j).state != 0 && (s.entry j).ctx == cellIndex cell)

/-- Where an entry of the bundle copy lies in direct memory (R412). -/
def BundleCopy.entryAddr (c : BundleCopy) (j : Nat) : Nat := c.base + 32 * j

/-- An entry of the bundle copy is read, once what waits to be written there has been and memory can be read (R28, R306). -/
def State.copyRead (s : State) (j : Nat) : Option Res × State :=
  match s.io.copyOf with
  | none => (some (refuse 0x0109 0 s), s)
  | some c =>
    if !c.waits.isEmpty then (none, s)
    else
      match s.reach [(c.entryAddr j, 32)] false fun s => (s.bytesAt (c.entryAddr j) 32, s.dmaRead (c.entryAddr j) 32) with
      | (none, t) => (none, t)
      | (some b, t) =>
        let t := t.modIo fun i => { i with copyOf := some { c with unread := c.unread.filter (· != j) } }
        (some (doneWith b t), t)

/-- JOURNAL_READ (R428, R414): the copy's entry may have to wait for memory, and so its reply (log entry 129). -/
def opJournalRead : Op where
  code := 0x0500
  len := exactly 1
  on := ctxOrJournal
  classes c := if c = cellJournal then [1, 2, 3] else [0, 1, 2]
  run r s :=
    let w := r.word 0
    let j := bits w 19 0
    let mirror := bitOf w 32
    let bad := badWord w (if r.cell = cellJournal then 0x1000FFFFF else 0xFFFFF)
    if bad ≠ 0 then refuse bad 0 s
    else if r.pk.auth = 3 ∧ !mirror then refuse 0x010A 0 s
    else if mirror then
      if r.pk.checkOnly then (match s.io.copyOf with
        | some c => doneWith (s.bytesAt (c.entryAddr j) 32) s
        | none => refuse 0x0109 0 s)
      else
        match s.copyRead j with
        | (some r, _) => r
        | (none, t) => ⟨later, 0, [], t.modBundle fun b =>
            { b with sends := b.sends ++ [⟨0x0500, r.pk, 1022, [], BitVec.ofNat 64 j, [], 0⟩] }⟩
    else if !s.entryAtCell r.cell j then refuse 0x0109 0 s
    else doneWith (s.entry j).bytes s

/-- JOURNAL_READ (R428). -/
def execJournalRead (pk : Pkt) (s : State) : Host.Outcome State Fault Refusal := .next (submit opJournalRead pk s)

/-- LATE_ACK (R428, R431). -/
def opLateAck : Op where
  code := 0x0501
  len := exactly 1
  on := ctxOrJournal
  classes c := if c = cellJournal then [1, 2] else [0, 1, 2]
  run r s :=
    let w := r.word 0
    let j := bits w 19 0
    let bad := badWord w 0xFFFFF
    if bad ≠ 0 then refuse bad 0 s
    else if !s.entryAtCell r.cell j then refuse 0x0109 0 s
    else if (s.entry j).state ≠ 6 then refuse 0x0250 (s.entry j).state s
    else done ((s.modEntry j fun e => { e with lateAcked := true }).retire j)

/-- LATE_ACK (R428). -/
def execLateAck (pk : Pkt) (s : State) : Host.Outcome State Fault Refusal := .next (submit opLateAck pk s)

/-- The first entries from `n` on that pass a test, at most `need` of them. -/
def entriesFrom (ok : Nat → Bool) : Nat → Nat → Nat → List Nat
  | 0, _, _ => []
  | k + 1, n, need =>
    if need = 0 then []
    else if ok n then n :: entriesFrom ok k (n + 1) (need - 1)
    else entriesFrom ok k (n + 1) need

/-- JOURNAL_LIST (R428). -/
def opJournalList : Op where
  code := 0x0502
  len := exactly 1
  on _ c := cellKind c == 0x14 || c == cellJournal
  classes := tenantOnPart
  run r s :=
    let w := r.word 0
    let first := bits w 19 0
    let bad := badWord w 0xFF000FFFFF
    let ok (j : Nat) : Bool :=
      let e := s.entry j
      w.getLsbD (32 + e.state) &&
        (r.cell == cellJournal || (e.state != 0 && (s.ctx e.ctx).owner == some (cellIndex r.cell)))
    let found :=
      if w.getLsbD 32 ∧ r.cell = cellJournal then entriesFrom ok (1048576 - first) first 1015
      else ((s.io.journal.map Prod.fst).filter fun j => first ≤ j ∧ ok j).take 1015
    let listed := found.take 1014
    if bad ≠ 0 then refuse bad 0 s
    else
      doneWith (beBytes 4 (found.getD 1014 1048576) ++ beBytes 4 listed.length ++ listed.flatMap (beBytes 4)) s

/-- JOURNAL_LIST (R428). -/
def execJournalList (pk : Pkt) (s : State) : Host.Outcome State Fault Refusal := .next (submit opJournalList pk s)

/-! ### Paths in bundles (R44, R577) -/

/-- The membership settings in force (R572). -/
def State.bundleCfg (s : State) : Bytes := s.bundle.cfg.getD []

def cfgMembers (c : Bytes) : Nat := numAt c 8 1
def cfgParent (c : Bytes) : Nat := numAt c 9 1
def cfgMember (c : Bytes) (m : Nat) : Word := wordAt c (3 + m)

/-- The path of the module's bundle from the outermost bundle (R577). -/
def State.bundleHome (s : State) : Bytes :=
  let c := s.bundleCfg
  if cfgParent c = 0xFF then [] else (Config.bundleAbove (wordAt c 2)).take 12 ++ [BitVec.ofNat 8 (cfgParent c)]

/-- The module's path from the outermost bundle. -/
def State.modulePath (s : State) : Bytes := s.bundleHome ++ [BitVec.ofNat 8 s.bundle.index]

/-- What a path from the outermost bundle names, seen from this module: another bundle above it, its own bundle, or a member with
the path that remains. -/
inductive Reach where
  | above
  | bundle
  | member (m : Nat) (path : Bytes)

def reachOf (home path : Bytes) : Reach :=
  if path.take home.length ≠ home then .above
  else
    match path.drop home.length with
    | [] => .bundle
    | m :: rest => .member m.toNat rest

/-- A message to a module elsewhere in the bundles (log entry 71): its path, that of its sender with the sender's identity, and the
content, with zeros to a length that no other message has. -/
def routed (dest src : Bytes) (identity : Word) (content : Bytes) : Bytes :=
  let body := [BitVec.ofNat 8 dest.length] ++ dest ++ [BitVec.ofNat 8 src.length] ++ src ++ wordBytes identity ++ content
  let fill := (11 - body.length % 8) % 8
  [0xFD, BitVec.ofNat 8 fill] ++ body ++ zeros fill

/-- A message goes to the module at a path from the outermost bundle. -/
def State.sendTo (s : State) (path content : Bytes) : State :=
  let far := routed path s.modulePath s.vixia.fuses.serial content
  match reachOf s.bundleHome path with
  | .bundle => s
  | .above => s.modBundle fun b => { b with outbound := b.outbound ++ [(0x100, far)] }
  | .member m rest => s.modBundle fun b => { b with outbound := b.outbound ++ [(m, if rest.isEmpty then content else far)] }

/-! ### Bundle mirroring -/

/-- What the partner is told (log entry 71): of the mirroring, that it is in force, of its end, and of an entry; and what it
answers to an entry. -/
def mirrorSetup (m : Mirror) : Bytes :=
  beBytes 2 0x0503 ++ beBytes 4 m.first ++ beBytes 3 m.standby ++ beBytes 2 m.queue ++ beBytes 3 m.gib
def mirrorForce : Bytes := beBytes 4 0x0503
def mirrorEnd : Bytes := beBytes 2 0x0503
def mirrorEntry (j : Nat) (b : Bytes) : Bytes := beBytes 2 0x0500 ++ beBytes 4 j ++ b
def mirrorAck (j : Nat) (b : Bytes) : Bytes := beBytes 3 0x0500 ++ beBytes 4 j ++ b

/-- JOURNAL_MIRROR (R412, R429, R431). -/
def opJournalMirror : Op where
  code := 0x0503
  len := exactly 4
  on _ c := c == cellJournal
  classes := mgr
  run r s :=
    let len := r.num 0 1
    let partner := slice r.pk.params 1 len
    let first := r.num 16 4
    let count := r.num 20 4
    let standby := r.num 24 3
    let queue := r.num 27 2
    let m : Mirror :=
      { partner := partner, first := first, count := count, standby := standby, queue := queue, gib := r.num 29 3,
        on := false, who := r.who :: (s.io.mirror.map Mirror.who).getD [],
        sent := if len = 0 then s.io.mirror.bind Mirror.sent else none, held := [] }
    if !allZero (slice r.pk.params 15 1) ∨ (len ≤ 14 ∧ !allZero (slice r.pk.params (1 + len) (14 - len))) then
      refuse 0x0105 0 s
    else if 14 < len ∨ partner.any (fun b => decide (15 < b.toNat)) ∨ (len ≠ 0 ∧ (count = 0 ∨ 131072 < first + count ∨ 131072 < standby + count ∨ 1023 < queue)) then
      refuse 0x0109 0 s
    else
      match s.io.mirror with
      | some o =>
        if len ≠ 0 ∧ o.on ∧ o.partner ≠ partner then refuse 0x0252 ((o.partner.headD 0).toNat) s
        else
          let old := (o.sent.map Prod.fst).filter fun p => len ≠ 0 && p != partner
          let t := (old.map fun p => s.sendTo (s.bundleHome ++ p) mirrorEnd).getD s
          accepted (t.modIo fun i => { i with mirror := some m })
      | none => accepted (s.modIo fun i => { i with mirror := some m })

/-- JOURNAL_MIRROR (R412). -/
def execJournalMirror (pk : Pkt) (s : State) : Host.Outcome State Fault Refusal := .next (submit opJournalMirror pk s)

/-- EPOCH increases by 1 (R583), with its record; where Vixia does not run, or the buffer of the persistent log is full, the increase
waits for a record (R625). -/
def State.nextEpoch (s : State) : State :=
  let last := (s.vixia.buffer.filter fun r => r.kind == 6).foldl (fun n r => max n r.data.toNat) s.bundle.epoch.toNat
  if s.vixia.up ∧ s.vixia.buffer.length < 256 then s.log 6 0xFF 0 0 (BitVec.ofNat 64 (last + 1))
  else s.modVixia fun v => { v with epochDue := v.epochDue + 1 }

/-- The bytes of an entry as its mirroring sends them: zeros where it is FREE or of no mirrored context. -/
def State.mirrored (s : State) (m : Mirror) (j : Nat) : Bytes :=
  let e := s.entry j
  if e.state ≠ 0 ∧ m.first ≤ e.ctx ∧ e.ctx < m.first + m.count then e.bytes else zeros 32

/-- The partner of the mirroring can be reached: neither module is fenced (R586), and the partner has not failed (R409). -/
def State.mirrorRuns (s : State) (m : Mirror) : Bool :=
  let k := (m.partner.headD 0).toNat
  !m.partner.isEmpty && s.bundle.bstate != .fenced && (s.member k).fence == 0 && !(s.member k).failed

/-- The bundle copy holds every open entry of the range (R428). -/
def State.mirrorHeld (s : State) (m : Mirror) : Bool :=
  m.sent.isSome && s.io.journal.all fun e => allZero (s.mirrored m e.1) || m.held.contains e.1

/-- JOURNAL_MIRROR_COMPLETE (R428, R583, R586): mirroring is in force, or has stopped. A fence of this module or of the
partner wins. Mirroring that a fence stopped resumes by itself. Every JOURNAL_MIRROR that is still owed a completion receives
it with the latest one, which is the model's choice (log entry 130). -/
def execJournalMirrorComplete (s : State) : Host.Outcome State Fault Refusal :=
  .next (match s.io.mirror with
  | some m =>
    let index := (m.partner.headD 0).toNat
    let tell (s : State) (status detail : Nat) : State := m.who.foldr (fun w s => s.complete w status detail []) s
    let force (s : State) : State :=
      ((s.modIo fun i => { i with mirror := some { m with who := [], on := true } }).sendTo (s.bundleHome ++ m.partner)
        mirrorForce).nextEpoch
    let quiet := some { m with who := [] }
    if m.who.isEmpty then (if !m.on ∧ s.mirrorRuns m ∧ s.mirrorHeld m then force s else s)
    else if m.partner.isEmpty then
      let s := match m.sent with
        | some (p, _) => s.sendTo (s.bundleHome ++ p) mirrorEnd
        | none => s
      tell (s.modIo fun i => { i with mirror := none }) 0 0
    else if s.bundle.bstate = .fenced then tell (s.modIo fun i => { i with mirror := quiet }) 0x02B1 (2 ^ s.bundle.index)
    else if (s.member index).fence ≠ 0 then tell (s.modIo fun i => { i with mirror := quiet }) 0x02B1 (2 ^ index)
    else if s.mirrorHeld m then tell (force s) 0 0
    else s
  | none => s)

/-- The partner of a mirroring that runs is told of it, and then of every entry that has changed; a progress point goes with
the next change (R413, R586). -/
def State.mirrorStep (s : State) : State :=
  match s.io.mirror with
  | none => s
  | some m =>
    let tell (s : State) (l : List Bytes) (m : Mirror) : State :=
      l.foldl (fun s x => s.sendTo (s.bundleHome ++ m.partner) x) (s.modIo fun i => { i with mirror := some m })
    if !s.mirrorRuns m then s
    else
      match m.sent with
      | none => tell s [mirrorSetup m] { m with sent := some (m.partner, []), held := [] }
      | some (p, sent) =>
        let known := s.io.journal.map Prod.fst
        let all := known ++ (sent.map Prod.fst).filter fun j => !known.contains j
        let changed := all.filter fun j => (s.mirrored m j).take 24 != tabGet (zeros 24) sent j
        if changed.isEmpty then s
        else
          let now := changed.foldl (fun t j => tabPut (zeros 24) t j ((s.mirrored m j).take 24)) sent
          tell s (changed.map fun j => mirrorEntry j (s.mirrored m j))
            { m with sent := some (p, now), held := m.held.filter fun j => !allZero (s.mirrored m j) }

/-- The partner, at a path, has written an entry (R390, R413): a start that waited for it waits no longer. -/
def State.mirrorAcked (s : State) (src b : Bytes) : State :=
  let j := numAt b 3 4
  match s.io.mirror with
  | some m =>
    if (m.sent.map fun x => s.bundleHome ++ x.1) = some src ∧ (s.mirrored m j).take 24 = (b.drop 7).take 24 then
      (s.modIo fun i => { i with mirror := some { m with held := insertNat m.held j } }).modBundle fun x =>
        { x with sends := x.sends.map fun e =>
            if e.op = 0x0400 ∧ e.word.toNat = j then { e with waits := e.waits.erase (m.partner.headD 0).toNat } else e }
    else s
  | none => s

/-- A write of the bundle copy by the engine of the serving die (R284, R412), or what it waits for; an entry written is
acknowledged. The first component says that it has been made. -/
def State.copyWrite (s : State) (c : BundleCopy) (w : CopyWrite) : Bool × State :=
  let d := s.journalDie
  match w.entry with
  | none =>
    let range := [(c.base, 2 ^ 25)]
    let asleep := s.sleeping (s.rangeChans c.base (2 ^ 25))
    if s.blocked range then (false, s)
    else if !asleep.isEmpty then (false, s.touchChans asleep)
    else
      let t := s.zeroDirect c.base (2 ^ 25)
      (true, if s.allDirect c.base (2 ^ 25) then t else t.report (fabricReporter d))
  | some j =>
    match s.reach [(c.entryAddr j, 32)] true fun s => ((), s.dmaWrite d (c.entryAddr j) w.bytes) with
    | (none, t) => (false, t)
    | (some _, t) => (true, (w.ack.map fun p => t.sendTo p (mirrorAck j w.bytes)).getD t)

/-- The writes of the bundle copy that wait are made in their order. -/
def State.copyStep : Nat → State → State
  | 0, s => s
  | k + 1, s =>
    match s.io.copyOf with
    | none => s
    | some c =>
      match c.waits with
      | [] => s
      | w :: rest =>
        match s.copyWrite c w with
        | (false, t) => t
        | (true, t) => State.copyStep k (t.modIo fun i => { i with copyOf := some { c with waits := rest } })

/-- The writes that wait, as far as they can be made. -/
def State.copyTick (s : State) : State := s.copyStep ((s.io.copyOf.map fun c => c.waits.length).getD 0)

/-- The bundle copy takes a write. -/
def State.addCopyWrite (s : State) (w : CopyWrite) : State :=
  (s.modIo fun i => { i with copyOf := i.copyOf.map fun c => { c with waits := c.waits ++ [w] } }).copyTick

/-- The home module of an identity begins or ends the copy that this module holds for it, or has its mirroring in force (R412,
R583, R586). The copy's region holds no entry at first. -/
def State.takeMirror (s : State) (home : Word) (b : Bytes) : State :=
  if s.bundle.bstate = .fenced then s
  else
    match s.io.copyOf.filter fun c => c.home != home with
    | some _ => s
    | none =>
      if b.length = 2 then s.modIo fun i => { i with copyOf := none }
      else if b.length = 4 then s.nextEpoch
      else
        (s.modIo fun i =>
          { i with copyOf := some { home := home, first := numAt b 2 4, standby := numAt b 6 3, queue := numAt b 9 2,
                                    base := numAt b 11 3 * 2 ^ 30, entries := [], resolving := [], unread := [],
                                    waits := [] } }).addCopyWrite ⟨none, [], none⟩

/-- An entry of a home module's journal, which is at a path, is written to the copy that this module holds for it, and
acknowledged (R413). -/
def State.takeEntry (s : State) (src : Bytes) (home : Word) (b : Bytes) : State :=
  match s.io.copyOf with
  | some c =>
    if c.home = home ∧ c.resolving.isEmpty then
      let j := numAt b 2 4
      (s.modIo fun i =>
        { i with copyOf := some { c with entries := tabPut JEntry.free c.entries j (entryOf (b.drop 6)) } }).addCopyWrite
          ⟨some j, b.drop 6, some src⟩
    else s
  | none => s

/-- What mirroring tells another module, which is at a path (log entry 71). -/
def State.mirrorMessage (s : State) (src : Bytes) (identity : Word) (b : Bytes) : State :=
  if b.length = 2 ∨ b.length = 4 ∨ b.length = 14 then s.takeMirror identity b
  else if b.length = 38 then s.takeEntry src identity b
  else if b.length = 39 then s.mirrorAcked src b
  else s

/-- A message that is on its way to a module elsewhere in the bundles is passed on, or has come. -/
def State.takeRouted (s : State) (b : Bytes) : State :=
  let n := numAt b 2 1
  let dest := (b.drop 3).take n
  let rest := b.drop (3 + n)
  let k := numAt rest 0 1
  let content := (rest.drop (9 + k)).take (rest.length - (9 + k) - numAt b 1 1)
  if dest = s.modulePath then s.mirrorMessage ((rest.drop 1).take k) (wordAt (rest.drop (1 + k)) 0) content
  else
    let pass (m : Nat) : State := s.modBundle fun x => { x with outbound := x.outbound ++ [(m, b)] }
    match reachOf s.bundleHome dest with
    | .bundle => s
    | .above => pass 0x100
    | .member m _ => if m = s.bundle.index then s else pass m

/-- The outcome of an entry of the bundle copy is known (R413, R414). -/
def State.resolveEntry (s : State) (j : Nat) (outcome : BitVec 16) : State :=
  match s.io.copyOf with
  | some c =>
    let old := tabGet JEntry.free c.entries j
    let e := { old with status := outcome, state := max 4 old.state }
    ((s.modIo fun i =>
      { i with copyOf := some { c with entries := tabPut JEntry.free c.entries j e, resolving := c.resolving.filter (· != j),
                                       unread := insertNat c.unread j } }).addCopyWrite ⟨some j, e.bytes, none⟩).eventItem 0x9D2
      { payload := BitVec.ofNat 48 (outcome.toNat * 2 ^ 32 + j), queue := c.queue, prio := 7, entry := some j }
  | none => s

/-- The RESOLVE payload (R543): the home module, the home context's virtual channel, and SEQ. -/
def resolvePayload (home : Word) (x : Nat) (seq : BitVec 32) : Bytes :=
  wordBytes home ++ beBytes 4 x ++ beBytes 4 seq.toNat

/-- The home of the bundle copy has been declared failed (R413, R587). One that is no member of this module's own bundle is
declared failed in another, of which JOURNAL_TAKEOVER tells. -/
def State.homeFailed (s : State) (home : Word) : Bool :=
  let named := (List.range 16).filter fun m => cfgMember s.bundleCfg m == home
  named.isEmpty || named.any fun m => (s.member m).failed

/-- JOURNAL_TAKEOVER (R413, R414): every entry of the failed home module is resolved. -/
def execJournalTakeover (home : Word) (s : State) : Host.Outcome State Fault Refusal :=
  .next (match s.io.copyOf with
  | some c =>
    if c.home ≠ home ∨ !c.resolving.isEmpty ∨ !c.waits.isEmpty ∨ !s.homeFailed home then s
    else
      let s := s.nextEpoch
      c.entries.foldl (fun s e =>
        let j := e.1
        if e.2.state = 4 then s.resolveEntry j e.2.status
        else if e.2.state = 1 then s.resolveEntry j 0x050B
        else
          let x := c.standby + (e.2.ctx - c.first)
          let s := s.modIo fun i =>
            { i with copyOf := i.copyOf.map fun k => { k with resolving := insertNat k.resolving j } }
          s.sendFrame (s.ctx x).port x .resolve
            { s.blankFrame x with payload := resolvePayload home e.2.ctx e.2.seq }) s
  | none => s)

end Sys2Proof.Machine
end

