-- ==== Sys2Proof/Machine/Line.lean ====
section
/-! DEFINITION. The conversations that this module does not hold as an I/O context (R546 to R553, R575, R576): what it answers as
the partner of another module, and the bundle messages that it sends. Both directions between two modules are one
conversation on a line, so that they share their SEQ space, receive point and unacknowledged frames (log entry 73). -/

namespace Sys2Proof.Machine

/-- The virtual channel of a frame, which is its context's number (R546). -/
def frameCtx (f : Frame) : Nat := (if f.vcx then 65536 else 0) + f.vc.toNat

/-- A frame is received only on a link that is UP (R556). -/
def State.isUp (s : State) (p : Nat) : Bool := (s.port p).link == .up

/-- The membership cell runs. -/
def State.inBundle (s : State) : Bool := s.cst cellMembership == .running && s.bundle.cfg.isSome

/-! ### A conversation -/

/-- The identity of the module at the other end of a port (R554). -/
def State.originOf (s : State) (p : Nat) : Word := ((s.port p).peer.map LinkMsg.identity).getD 0

/-- A port carries bundle messages: it is a bundle port, its partner's HELLO has ROLE BUNDLE, and the membership is RUNNING
(R574, R575). -/
def State.bundlePort (s : State) (p : Nat) : Bool :=
  s.isUp p && (s.port p).cfg.bundle && (((s.port p).peer.map LinkMsg.bundle).getD false) && s.inBundle

/-- A frame names the membership (R575). -/
def toMembership (f : Frame) : Bool := f.destLen == 1 && f.dest.head? == some 0x80

/-- The conversation of an origin and a virtual channel. -/
def State.partner (s : State) (origin : Word) (vc : Nat) : Option PartnerConv :=
  s.io.partners.find? fun c => c.origin == origin && c.vc == vc

/-- Keep a conversation's state. -/
def State.setPartner (s : State) (c : PartnerConv) : State :=
  s.modIo fun i =>
    if i.partners.any fun x => x.origin == c.origin && x.vc == c.vc then
      { i with partners := i.partners.map fun x => if x.origin == c.origin && x.vc == c.vc then c else x }
    else { i with partners := i.partners ++ [c] }

/-- A conversation of which no frame has been received. -/
def PartnerConv.fresh (origin : Word) (vc port : Nat) : PartnerConv :=
  { origin := origin, vc := vc, port := port, high := 0, latest := none, open_ := false, kind := 0, count := 0, status := 0,
    received := [], rx := 0, tx := 1, resync := false, unacked := [], lastNak := none, out := none, synced := none,
    syncing := none, top := none }

/-- A frame of the partner's side: it carries ACK and the credits due (R551, R553). -/
def State.partnerFrame (s : State) (c : PartnerConv) (ty : FType) (seq : BitVec 32) (payload : Bytes) : Frame × State :=
  ({ vcx := decide (65536 ≤ c.vc), vc := BitVec.ofNat 16 c.vc, timed := false, resume := false,
     resync := ty.sequenced && c.resync, destLen := 0, seq := seq, dest := [], ack := c.rx - 1,
     credit := BitVec.ofNat 16 (s.port c.port).owed, payload := payload },
   s.modPort c.port fun q => { q with owed := 0 })

/-- Send an unsequenced frame of the partner's side. -/
def State.partnerSay (s : State) (c : PartnerConv) (ty : FType) (payload : Bytes) : State :=
  let (f, s) := s.partnerFrame c ty 0 payload
  s.emit c.port (.frame ty f)

/-- The END of the latest operation goes out, as a sequenced frame (R545, R549). -/
def State.partnerEnd (s : State) (c : PartnerConv) : State :=
  let long := decide (c.count < c.received.length)
  let moved := min c.count c.received.length
  let (f, s) := s.partnerFrame c .end_ c.tx ([c.status, ofBool long, 0, 0] ++ beBytes 4 moved)
  let s := s.setPartner { c with tx := c.tx + 1, resync := false,
                                 unacked := c.unacked ++ [{ ty := .end_, frame := f, tick := s.now, times := 1 }] }
  s.emit c.port (.frame .end_ f)

/-- A sequenced frame of the initiator meets the receive point (R550, R551). -/
def State.partnerAccept (s : State) (c : PartnerConv) (f : Frame) : Bool × PartnerConv × State :=
  let rx := if f.resync then f.seq else c.rx
  if f.seq = rx then (true, { c with rx := rx + 1 }, s)
  else
    let c := { c with rx := rx }
    let late := match c.lastNak with
      | some t => decide (t + (s.port c.port).cfg.rto ≤ s.now)
      | none => true
    if above f.seq rx then
      if late then
        let c := { c with lastNak := some s.now }
        (false, c, (s.setPartner c).partnerSay c .nak [])
      else (false, c, s.setPartner c)
    else (false, c, (s.setPartner c).partnerSay c .ack [])

/-! ### Resending (R552) -/

/-- An operation that goes out leaves its path: its OP goes out again, from what was acknowledged (R403, R404). -/
def PartnerConv.failOut (c : PartnerConv) : PartnerConv :=
  let lost := c.unacked.foldl (fun n u => if u.ty = .data then n + u.frame.payload.length else n) 0
  { c with unacked := [], synced := none, syncing := none,
           out := c.out.map fun o => { o with due := true, here := o.here - lost } }

/-- Send unacknowledged frames again, the oldest first; DATA spends credits again. -/
def State.lineFrames (c : PartnerConv) : List Unacked → State → State
  | [], s => s
  | u :: us, s =>
    let cost := if u.ty = .data then creditsFor u.frame.payload.length else 0
    if (s.port c.port).credits < cost then s
    else
      let owed := (s.port c.port).owed
      let s := s.modPort c.port fun q =>
        { q with credits := q.credits - cost, owed := if u.ty.hasDest then q.owed else 0 }
      let f := if u.ty.hasDest then u.frame else { u.frame with ack := c.rx - 1, credit := BitVec.ofNat 16 owed }
      State.lineFrames c us (s.emit c.port (.frame u.ty f))

/-- A resend round, or the end of retransmission. -/
def State.lineResend (s : State) (c : PartnerConv) : State :=
  match c.unacked with
  | [] => s
  | u :: us =>
    if s.resentNow u then s
    else if (s.port c.port).cfg.retryMax < u.times then
      (s.modPort c.port fun q => { q with exhausted := true }).setPartner c.failOut
    else
      ((s.modPort c.port fun q => { q with resends := satAdd q.resends 1 }).setPartner
        { c with unacked := c.unacked.map fun v => { v with tick := s.now, times := v.times + 1 } }).lineFrames c (u :: us)

/-- Every conversation of a port and virtual channel sends again. -/
def State.resendPartner (s : State) (p x : Nat) : State :=
  (s.io.partners.filter fun c => c.port = p ∧ c.vc = x).foldl (fun s c => s.lineResend c) s

/-! ### Bundle messages that go out (R575, R576) -/

/-- The virtual channel of bundle messages: VC 0xFFFF with VCX. -/
def bundleVc : Nat := 131071

/-- The bundle port with the fewest hops to a member, the lowest of those that tie (R576). -/
def State.hopPort (s : State) (m : Nat) : Option Nat :=
  minBy (fun p => Config.bundleHops p m) ((List.range 256).filter fun p => s.bundlePort p)

/-- The conversation of bundle messages at a port. -/
def State.line (s : State) (p : Nat) : PartnerConv :=
  (s.partner (s.originOf p) bundleVc).getD (PartnerConv.fresh (s.originOf p) bundleVc p)

/-- Give a message to the line of its route; none where there is no route or the line is taken. -/
def State.loadLine (s : State) (m : Nat) (wire : Bytes) : Option State :=
  match s.hopPort m with
  | none => none
  | some p =>
    let c := s.line p
    if c.out.isSome then none
    else
      let c := if c.port = p ∨ c.open_ then c else { c with port := p, synced := none, syncing := none }
      some (s.setPartner { c with out := some { wire := wire, seq := 0, begun := false, due := true, here := 0 } })

/-- The messages in transit, then this module's own, go to their lines in their order; the others wait. -/
def State.loadLines (s : State) : State :=
  let b := s.bundle
  let s := b.transit.foldl (fun s e => (s.loadLine e.1 e.2).getD (s.modBundle fun x => { x with transit := x.transit ++ [e] }))
    (s.modBundle fun x => { x with transit := [], outbound := [] })
  b.outbound.foldl (fun s e => (s.loadLine e.1 (Config.bundleWire b.index e.1 e.2)).getD
    (s.modBundle fun x => { x with outbound := x.outbound ++ [e] })) s

/-- A frame that carries DEST 0x80 (R542, R575). -/
def bundleFrame (c : PartnerConv) (seq : BitVec 32) (resume : Bool) (payload : Bytes) : Frame :=
  { vcx := decide (65536 ≤ c.vc), vc := BitVec.ofNat 16 c.vc, timed := false, resume := resume, resync := false,
    destLen := 1, seq := seq, dest := [0x80], ack := 0, credit := 0, payload := payload }

/-- SYNC (R548). -/
def State.lineSync (s : State) (c : PartnerConv) : State :=
  let n := match c.syncing with
    | some (e, _, n) => if e = (s.port c.port).epoch then n else 0
    | none => 0
  (s.setPartner { c with syncing := some ((s.port c.port).epoch, s.now, n + 1) }).emit c.port
    (.frame .sync (bundleFrame c 0 false []))

/-- The OP of a message: a new one above every SEQ used, one sent before under its own with RESUME (R404, R544, R548). -/
def State.lineOp (s : State) (c : PartnerConv) (o : OutMsg) : State :=
  let last := c.tx - 1
  let top := match c.top with
    | some h => if above h last then h else last
    | none => last
  let seq := if o.begun then o.seq else top + 1
  let kind : Nat := if Config.bundleControl then 3 else 2
  let f := bundleFrame c seq o.begun
    (beBytes 2 Config.bundleDeviceOp.toNat ++ beBytes 1 kind ++ zeros 1 ++ beBytes 4 o.wire.length ++ beBytes 4 o.here ++ zeros 4)
  (s.setPartner { c with tx := seq + 1, out := some { o with seq := seq, begun := true, due := false },
                         unacked := [{ ty := .op, frame := f, tick := s.now, times := 1 }] }).emit c.port (.frame .op f)

/-- The DATA of the message in progress, while credits and the window last (R552, R553). -/
def State.linePump : Nat → Nat → State → State
  | 0, _, s => s
  | k + 1, p, s =>
    let c := s.line p
    match c.out with
    | none => s
    | some o =>
      let bs := (o.wire.drop o.here).take 4096
      let cost := creditsFor bs.length
      if o.due ∨ bs.isEmpty ∨ 64 ≤ c.unacked.length ∨ (s.port p).credits < cost then s
      else
        let (f, s) := s.partnerFrame c .data c.tx bs
        let s := s.modPort p fun q => { q with credits := q.credits - cost }
        State.linePump k p ((s.setPartner
          { c with tx := c.tx + 1, resync := false, out := some { o with here := o.here + bs.length },
                   unacked := c.unacked ++ [{ ty := .data, frame := f, tick := s.now, times := 1 }] }).emit p (.frame .data f))

/-- What a bundle port has to send: its link is brought in step with SYNC, the OP goes out, and its DATA follow. A message whose
port carries bundle messages no more takes this one where it reaches the same module. -/
def State.lineStep (s : State) (p : Nat) : State :=
  let c := s.line p
  match c.out with
  | none => s
  | some _ =>
    if c.port ≠ p ∧ s.bundlePort c.port then s
    else
      let e := (s.port p).epoch
      let c := if c.port ≠ p ∨ (c.synced.isSome ∧ c.synced ≠ some e) then { c.failOut with port := p } else c
      let s := s.setPartner c
      match c.out with
      | none => s
      | some o =>
        if !o.due then s.linePump 64 p
        else if c.synced = some e then (s.lineOp c o).linePump 64 p
        else if (c.syncing.map Prod.fst) = some e then s
        else s.lineSync c

/-- The bundle messages that wait go out on the ports that carry them. -/
def State.sendMessages (s : State) : State :=
  if s.bundle.outbound.isEmpty ∧ s.bundle.transit.isEmpty ∧ s.io.partners.all fun c => c.out.isNone then s
  else
    let s := s.loadLines
    ((List.range 256).filter fun p => s.bundlePort p).foldl (fun s p => s.lineStep p) s

/-- The line whose message an END answers: its OP has gone out, and the frame's ACK says that it has come. -/
def State.lineFor (s : State) (p : Nat) (f : Frame) : Option PartnerConv :=
  (s.partner (s.originOf p) (frameCtx f)).filter fun c =>
    c.port == p && (match c.out with
      | some o => o.begun && !o.due && !above o.seq f.ack
      | none => false)

/-- END: the message has been delivered, and the next may go (R545, R549). -/
def State.lineEnd (s : State) (c : PartnerConv) (f : Frame) : State :=
  let c := { c with unacked := c.unacked.filter fun u => above u.frame.seq f.ack
                    rx := if c.latest.isNone ∧ c.rx = 0 then f.seq else c.rx }
  let (ok, c, s) := s.partnerAccept c f
  if !ok then s
  else
    let c := { c with out := none }
    (s.setPartner c).partnerSay c .ack []

/-- The RTO of a conversation that is no context's (R548, R552). -/
def State.lineExpire (s : State) (c : PartnerConv) : State :=
  let due (t : Nat) : Bool := decide (t + (s.port c.port).cfg.rto ≤ s.now)
  match c.syncing with
  | some (_, t, n) =>
    if !due t then s
    else if (s.port c.port).cfg.retryMax < n then s.setPartner { c with syncing := none }
    else s.lineSync c
  | none =>
    match c.unacked with
    | u :: _ => if due u.tick then s.lineResend c else s
    | [] => s

end Sys2Proof.Machine
end

