-- ==== Sys2Proof/Machine/Link.lean ====
section
/-! DEFINITION. Ports and the Knangefa link (chapter 13): received frames as their initiator takes them, resending,
link states, Ethernet, PCI Express root ports and loop-backs. -/

namespace Sys2Proof.Machine

/-- The credits that the module advertises: one inbound staging queue (R553). -/
def linkCredits : BitVec 16 := 128

/-- The LINK payload of this module (R554). -/
def State.linkMsg (s : State) (p : Nat) : LinkMsg :=
  { version := 1, bundle := (s.port p).cfg.bundle, isModule := true, credits := linkCredits, identity := s.vixia.fuses.serial }

/-- A LINK frame goes on the line whatever waits (R554, R555). -/
def State.emitLink (s : State) (p ltype : Nat) : State :=
  s.modPort p fun x => { x with sent := x.sent ++ [.link ltype (s.linkMsg p)], lastTx := s.now }

/-- A port's link takes a state. -/
def State.setLink (s : State) (p : Nat) (l : Link) : State := s.modPort p fun x => { x with link := l, linkAt := s.now }

/-! ### Receiving -/

/-- A frame arrives on a link that is UP: the link is heard, and a frame without DEST returns credits (R553). -/
def State.hear (s : State) (p : Nat) (credit : BitVec 16) : State :=
  (s.abandonSleep (groupOfPort p)).modPort p fun x => { x with lastRx := s.now, busyAt := s.now, credits := min 65535 (x.credits + credit.toNat) }

/-- The frames of a context that an ACK covers are acknowledged (R551), and the operation's progress follows (R357). -/
def State.acked (s : State) (x : Nat) (a : BitVec 32) : State :=
  let c := s.conv x
  let got := c.unacked.filter fun u => !above u.frame.seq a
  if got.isEmpty then s
  else
    let s := s.modConv x fun c => { c with unacked := c.unacked.filter fun u => above u.frame.seq a }
    let n := got.foldl (fun n u => if u.ty = .data then n + u.frame.payload.length else n) 0
    let s := s.modRun x fun r =>
      { r with op := r.op.map fun op => if op.sent ∧ !op.due then { op with moved := op.moved + n } else op
               left := r.left.map fun op => { op with moved := op.moved + n } }
    (if n = 0 then s else s.settle x).sendOut (s.ctx x).port

/-- The receive point that a frame meets in a context's conversation (R550, R551). -/
def State.rxPoint (s : State) (f : Frame) : BitVec 32 := if f.resync then f.seq else (s.conv (frameCtx f)).rx.getD f.seq

/-- Whether a sequenced frame is at the receive point (R550, R551), and the answer to it: an ACK for one that is, or is
below it; a NAK at most once per RTO for one above. -/
def State.acceptSeq (s : State) (p : Nat) (f : Frame) : Bool × State :=
  let x := (frameCtx f)
  let c := s.conv x
  let rx := s.rxPoint f
  if f.seq = rx then
    let s := s.modConv x fun c => { c with rx := some (rx + 1) }
    (true, s.sendFrame p x .ack (s.blankFrame x))
  else
    let s := s.modConv x fun c => { c with rx := some rx }
    if above f.seq rx then
      let late := match c.lastNak with
        | some t => decide (t + (s.port p).cfg.rto ≤ s.now)
        | none => true
      if late then
        let s := s.modConv x fun c => { c with lastNak := some s.now }
        (false, s.sendFrame p x .nak (s.blankFrame x))
      else (false, s)
    else (false, s.sendFrame p x .ack (s.blankFrame x))

/-- The operation in progress of a context to which a frame of its partner belongs: its OP has been sent on the path in
use, and the frame's ACK says that the partner has had it. -/
def State.opFor (s : State) (p : Nat) (f : Frame) : Option DevOp :=
  match (s.run (frameCtx f)).op with
  | some op =>
    if op.sent ∧ !op.due ∧ op.ended.isNone ∧ (s.ctx (frameCtx f)).port = p ∧ !above op.seq f.ack then some op else none
  | none => none

/-- Bytes enter an inbound staging queue (R370, R371). -/
def State.stage (s : State) (p : Nat) (c : Chunk) : State :=
  let old := (s.staging p).inFill
  let s := s.modStaging p fun g => { g with inq := g.inq ++ [c] }
  let g := s.staging p
  let s := if old = 0 ∧ !s.inGranted p ∧ g.inFill ≠ 0 then s.armTail p else s
  if g.high * 256 ≤ g.inFill then s.askDrain p false else s

/-- The partner has offered more than COUNT: the module ends the operation (R353). No ending status has come. -/
def State.endLong (s : State) (p x : Nat) : State :=
  match (s.run x).op with
  | some op =>
    ((s.sendSequenced p x .abort { s.blankFrame x with payload := beBytes 4 op.seq.toNat }).modRun x fun r =>
      { r with op := r.op.map fun o => { o with ended := some (0, true, o.count), excess := true } }).settle x
  | none => s

/-- A DATA frame for an operation of this module (R351, R353, R551): the bytes beyond COUNT are discarded. The credits of a frame
that is not kept return at once, with the frame that answers it (R553). -/
def State.recvData (s : State) (p : Nat) (f : Frame) : State :=
  let cost := creditsFor f.payload.length
  let x := frameCtx f
  let op := (s.opFor p f).filter fun op => op.kind == 1 || op.kind == 4
  let room := (op.map fun op => op.count - op.here).getD 0
  let bs := f.payload.take room
  let kept := f.seq = s.rxPoint f ∧ !bs.isEmpty
  let (ok, s) := (if kept then s else s.returnCredits p cost).acceptSeq p f
  if ok ∧ op.isSome then
    let s := if bs.isEmpty then s else s.stage p { ctx := x, addr := 0, bytes := bs, credits := cost }
    let s := s.modRun x fun r => { r with op := r.op.map fun o => { o with here := o.here + bs.length } }
    if room < f.payload.length then s.endLong p x else s
  else s

/-- An END frame (R545, R372). -/
def State.recvEnd (s : State) (p : Nat) (f : Frame) : State :=
  let op := s.opFor p f
  let (ok, s) := s.acceptSeq p f
  match ok, op with
  | true, some _ =>
    let st := f.payload.getD 0 0
    let long := (f.payload.getD 1 0).getLsbD 0
    let moved := numAt f.payload 4 4
    (s.modRun (frameCtx f) fun r =>
      { r with op := r.op.map fun o => { o with ended := some (st, long, moved) } }).settle (frameCtx f)
  | _, _ => s

/-- END (R545). -/
def execEnd (port : PortId) (f : Frame) (s : State) : Host.Outcome State Fault Refusal :=
  .next (if s.isUp port then
    match s.lineFor port f with
    | some c => (s.hear port f.credit).lineEnd c f
    | none => ((s.hear port f.credit).acked (frameCtx f) f.ack).recvEnd port f
  else s)

/-- ACK (R551): it acknowledges what this side has sent in the virtual channel, as initiator or as partner. -/
def execAck (port : PortId) (f : Frame) (s : State) : Host.Outcome State Fault Refusal :=
  .next (if s.isUp port then
    let s := (s.hear port f.credit).acked (frameCtx f) f.ack
    let s := s.modIo fun i =>
      { i with partners := i.partners.map fun c =>
          if c.port = port.val ∧ c.vc = (frameCtx f) then
            { c with unacked := c.unacked.filter fun u => above u.frame.seq f.ack }
          else c }
    s.sendOut port
  else s)

/-- NAK (R552). -/
def execNak (port : PortId) (f : Frame) (s : State) : Host.Outcome State Fault Refusal :=
  .next (if s.isUp port then
    let s := (s.hear port f.credit).acked (frameCtx f) f.ack
    let s := if (s.ctx (frameCtx f)).port = port.val then s.resend (frameCtx f) else s
    s.resendPartner port (frameCtx f)
  else s)

/-- The entry of the bundle copy that a RESOLVED answers (R413, R543). -/
def State.resolvedEntry (s : State) (f : Frame) : Option Nat :=
  s.io.copyOf.bind fun c =>
    c.resolving.find? fun j =>
      let e := tabGet JEntry.free c.entries j
      numAt f.payload 0 8 = c.home.toNat ∧ numAt f.payload 8 4 = e.ctx ∧ numAt f.payload 12 4 = e.seq.toNat

/-- RESOLVED (R413). -/
def execResolved (port : PortId) (f : Frame) (s : State) : Host.Outcome State Fault Refusal :=
  .next (if s.isUp port then
    let s := s.hear port f.credit
    match s.resolvedEntry f with
    | some j =>
      let missing := f.payload.getD 16 0 = 1
      let st := f.payload.getD 17 0
      s.resolveEntry j (if missing then 0x050B else if st.getLsbD 7 then 0x0507 else 0)
    | none => s
  else s)

/-- SYNCED (R548, R411). -/
def execSynced (port : PortId) (f : Frame) (s : State) : Host.Outcome State Fault Refusal :=
  .next (if s.isUp port then
    let s := s.hear port f.credit
    let x := (frameCtx f)
    let none_ := (f.payload.getD 4 0).getLsbD 0
    if (s.conv x).syncPort = some port.val then
      let s := s.modConv x fun c =>
        { c with synced := some (port.val, (s.port port).epoch), syncPort := none,
                 high := if none_ then c.high else some (BitVec.ofNat 32 (numAt f.payload 0 4)) }
      s.launch x
    else
      match (s.partner (s.originOf port) x).filter fun c => c.syncing.isSome with
      | some c => s.setPartner
          { c with synced := some (s.port port).epoch, syncing := none,
                   top := if none_ then c.top else some (BitVec.ofNat 32 (numAt f.payload 0 4)) }
      | none => s
  else s)

/-- The RTO of a conversation passes: 0 to 131,071 are the contexts', the rest those in which this module is the partner
(R548, R552). -/
def State.rtoExpire (s : State) (x : Nat) : State :=
  if x < 131072 then
    let c := s.conv x
    let p := (s.ctx x).port
    let due (t : Nat) : Bool := decide (t + (s.port p).cfg.rto ≤ s.now)
    let s := match c.syncPort with
      | some q =>
        if !due c.syncTick then s
        else if (s.port q).cfg.retryMax < c.syncTimes then s.failPath x
        else s.sendSync q x
      | none => s
    match c.unacked with
    | u :: _ => if due u.tick then s.resend x else s
    | [] => s
  else
    match s.io.partners[x - 131072]? with
    | some c => s.lineExpire c
    | none => s

/-- RTO_EXPIRY (R552). -/
def execRtoExpiry (conv : Nat) (s : State) : Host.Outcome State Fault Refusal := .next (s.rtoExpire conv)

/-! ### Link states (R556) -/

/-- The precedence of what a port sends (R555). -/
def LineItem.rank : LineItem → Nat
  | .link .. => 0
  | .frame ty f =>
    if ty = .nak then 0 else if f.timed then 1 else if ty = .ack ∨ ty = .sync ∨ ty = .resolve then 2 else 3
  | _ => 3

/-- What waits to be sent, in the order in which it goes (R555). -/
def inOrder (l : List LineItem) : List LineItem := [0, 1, 2, 3].flatMap fun k => l.filter fun i => i.rank == k

/-- What waited while a link left QUIET goes out. -/
def State.flushWaiting (s : State) (p : Nat) : State :=
  (s.modPort p fun x => { x with sent := x.sent ++ inOrder x.waiting, waiting := [] }).sendOut p

/-- A port's group is out of its sleep once a lane of it has left QUIET (R29). -/
def State.groupAwake (s : State) (p : Nat) : State :=
  let g := cellNo 5 (groupOfPort p)
  if s.cst g = .asleep then s.modCell g fun c => { c with st := .running, waking := false, idleFrom := s.now } else s

/-- A link reaches UP. -/
def State.linkUp (s : State) (p : Nat) : State :=
  s.modPort p fun x => { x with link := .up, linkAt := s.now, lastRx := s.now, lastTx := s.now, quietAsked := false }

/-- A link leaves service: the port is DOWN, its conversations fail over, and Tansy hears of it (R556, R558). -/
def State.linkLost (s : State) (p : Nat) : State :=
  let s := (s.setLink p .down).modPort p fun x => { x with lost := true, waiting := [], credits := 0, owed := 0 }
  (s.leaveService p).reportCell (cellNo 6 p) 2

/-- HELLO (R554, R556, R574). -/
def execHello (port : PortId) (h : LinkMsg) (s : State) : Host.Outcome State Fault Refusal :=
  .next (if (s.port port).link = .init then
    let s := s.modPort port fun x => { x with peer := some h }
    if h.version ≠ 1 then (s.setLink port .down).modPort port fun x => { x with refused := true }
    else
      let s := (s.linkUp port).modPort port fun x => { x with credits := h.credits.toNat, epoch := x.epoch + 1 }
      if (s.port port).cfg.bundle ∧ !h.bundle then s.modBundle fun b => { b with portMismatch := true } else s
  else if s.isUp port then s.modPort port fun x => { x with lastRx := s.now }
  else s)

/-- KEEPALIVE (R556, R557): it also refuses a QUIET_REQ of this side. -/
def execKeepalive (port : PortId) (s : State) : Host.Outcome State Fault Refusal :=
  .next (if s.isUp port then s.modPort port fun x => { x with lastRx := s.now, quietAsked := false } else s)

/-- A lane has nothing to carry: no operation, no frame unacknowledged, both queues empty, and no message of a conversation
that its partner or this module's bundle opened on it. -/
def State.laneIdle (s : State) (p : Nat) : Bool :=
  (s.io.partners.all fun c => c.port != p || (c.unacked.isEmpty && c.out.isNone && !c.open_)) &&
  (s.staging p).inq.isEmpty && (s.staging p).outq.isEmpty && (s.port p).waiting.isEmpty &&
    (s.io.runs.map Prod.fst).all fun x =>
      (s.ctx x).port != p || ((s.conv x).unacked.isEmpty && (s.run x).op.isNone)

/-- A link goes QUIET; the group is ASLEEP when the last lane that it asked has, unless it is held awake (R25, R29,
R556). -/
def State.goQuiet (s : State) (p : Nat) : State :=
  let asked := (s.port p).quietAsked
  let s := (s.setLink p .quiet).modPort p fun x => { x with quietAsked := false }
  let g := groupOfPort p
  let c := cellNo 5 g
  if asked ∧ s.cst c = .running ∧ s.holdsOf c = 0 ∧
      (List.range 16).all fun l => (s.port (16 * g + l)).link != .up then
    s.modCell c fun x => { x with st := .asleep, sleepAsked := false }
  else s

/-- QUIET_REQ (R556): refused by a KEEPALIVE while a frame is to be sent. -/
def execQuietReq (port : PortId) (s : State) : Host.Outcome State Fault Refusal :=
  .next (if s.isUp port then
    let s := s.modPort port fun x => { x with lastRx := s.now }
    if s.laneIdle port then (s.emitLink port 4).goQuiet port else s.emitLink port 2
  else s)

/-- QUIET_ACK (R556). -/
def execQuietAck (port : PortId) (s : State) : Host.Outcome State Fault Refusal :=
  .next (if s.isUp port then
    let s := s.modPort port fun x => { x with lastRx := s.now }
    if (s.port port).quietAsked ∧ s.laneIdle port then s.goQuiet port else s
  else s)

/-- LOOP_REQ (R566): the partner asks this port to turn its signal round. -/
def execLoopReq (port : PortId) (s : State) : Host.Outcome State Fault Refusal :=
  .next (if s.isUp port then
    (s.modPort port fun x => { x with lastRx := s.now, loop := true }).emitLink port 6
  else s)

/-- LOOP_ACK (R566): the partner loops; the test runs. -/
def execLoopAck (port : PortId) (s : State) : Host.Outcome State Fault Refusal :=
  .next (if s.isUp port then s.modPort port fun x => { x with lastRx := s.now } else s)

/-- LOOP_END (R566). -/
def execLoopEnd (port : PortId) (s : State) : Host.Outcome State Fault Refusal :=
  .next (if s.isUp port then s.modPort port fun x => { x with lastRx := s.now, loop := false } else s)

/-- A KEEPALIVE is due (R557). -/
def State.keepaliveDue (s : State) (p : Nat) : State :=
  if s.isUp p ∧ (s.port p).lastTx + 1000 ≤ s.now then s.emitLink p 2 else s

/-- KEEPALIVE_TIMER (R557). -/
def execKeepaliveTimer (port : PortId) (s : State) : Host.Outcome State Fault Refusal := .next (s.keepaliveDue port)

/-- No frame has been received for 10,000 ticks (R556). -/
def State.linkSilent (s : State) (p : Nat) : State :=
  if s.isUp p ∧ (s.port p).lastRx + 10000 ≤ s.now then s.linkLost p else s

/-- LINK_RX_TIMEOUT (R556). -/
def execLinkRxTimeout (port : PortId) (s : State) : Host.Outcome State Fault Refusal := .next (s.linkSilent port)

/-- TRAINING_COMPLETE (R556). -/
def execTrainingComplete (port : PortId) (s : State) : Host.Outcome State Fault Refusal :=
  .next (if (s.port port).link = .training then s.setLink port .align else s)

/-- Training has not ended in 100 ms: DOWN; and 10 ms later, training again (R556). -/
def State.trainExpire (s : State) (p : Nat) : State :=
  let x := s.port p
  if x.link = .training ∧ x.linkAt + 10000000 ≤ s.now then
    (s.setLink p .down).modPort p fun x => { x with retrain := true }
  else if x.link = .down ∧ x.retrain ∧ x.linkAt + 1000000 ≤ s.now then
    (s.setLink p .training).modPort p fun x => { x with retrain := false }
  else s

/-- TRAINING_TIMEOUT (R556). -/
def execTrainingTimeout (port : PortId) (s : State) : Host.Outcome State Fault Refusal := .next (s.trainExpire port)

/-- The ALIGN block (R540). -/
def alignBlock : BitVec 64 := 0x404B6E75538A91AC#64

/-- A control block of a reserved type (R540). -/
def reservedBlock (b : BitVec 64) : Bool :=
  !([0x10, 0x20, 0x30, 0x40, 0x50].contains (b.extractLsb' 56 8).toNat)

/-- The receiver discards a frame (R542, R543): its CRC is bad, it is shorter than a header and a CRC, or its TYPE is
reserved. -/
def badFrame (b : Bytes) : Bool :=
  let n := b.length - 4
  decide (b.length < 20) || crc32c (b.take n) != numAt b n 4 || !(decide (1 ≤ numAt b 0 1 ∧ numAt b 0 1 ≤ 0x0B))

/-- The credits that a discarded frame gives back: those of a DATA frame, by its length on the line (R553). -/
def frameCredits (b : Bytes) : Nat := if numAt b 0 1 = 2 then creditsFor (b.length - 20) else 0

/-- The codewords that the receiver corrects and what it discards are counted, and the credits of a discarded DATA frame
return (R540, R541, R543, R553, R570). -/
def State.countReceived (s : State) (p corrected : Nat) (blocks : List (BitVec 64)) (frames : List Bytes) : State :=
  let bad := frames.filter badFrame
  let n := (blocks.filter reservedBlock).length + bad.length
  let back := bad.foldl (fun n b => n + frameCredits b) 0
  s.modPort p fun x =>
    { x with fecCorr := satAdd x.fecCorr corrected, crcErrors := satAdd x.crcErrors n, owed := x.owed + back }

/-- The receiver has codeword lock (R556): INIT, where HELLO is sent; or UP when the link leaves QUIET. -/
def State.locked (s : State) (p : Nat) : State :=
  if (s.port p).link = .align then
    if (s.port p).fromQuiet then
      let s := (s.linkUp p).modPort p fun x => { x with fromQuiet := false }
      (s.groupAwake p).flushWaiting p
    else (s.setLink p .init).emitLink p 1
  else s

/-- CODEWORD_LOCK (R539, R540, R543): the codewords of a port bring control blocks, and the lock after three ALIGN blocks. -/
def execCodewordLock (x : LaneInput) (s : State) : Host.Outcome State Fault Refusal :=
  let s := s.countReceived x.port x.corrected x.blocks x.frames
  .next (if 3 ≤ (x.blocks.filter (· == alignBlock)).length then s.locked x.port else s)

/-- No codeword lock within 1 ms (R556). -/
def State.alignExpire (s : State) (p : Nat) : State :=
  if (s.port p).link = .align ∧ (s.port p).linkAt + 100000 ≤ s.now then
    (s.setLink p .training).modPort p fun x => { x with fromQuiet := false, waiting := [] }
  else s

/-- ALIGN_TIMEOUT (R556). -/
def execAlignTimeout (port : PortId) (s : State) : Host.Outcome State Fault Refusal := .next (s.alignExpire port)

/-- CODEWORD_LOCK_LOSS (R556). -/
def execCodewordLockLoss (port : PortId) (s : State) : Host.Outcome State Fault Refusal :=
  .next (if s.isUp port then s.linkLost port else s)

/-- FEC_UNCORRECTABLE (R541, R553): `frames` are the DATA frames that the codeword discards; their credits return. -/
def execFecUncorrectable (port : PortId) (frames : List Frame) (s : State) : Host.Outcome State Fault Refusal :=
  let n := frames.foldl (fun n f => n + creditsFor f.payload.length) 0
  .next ((s.modPort port fun x => { x with fecUncorr := true, fecBad := satAdd x.fecBad 1 }).returnCredits port n)

/-- PARTNER_WAKE_SIGNAL (R29, R556). -/
def execPartnerWakeSignal (port : PortId) (s : State) : Host.Outcome State Fault Refusal := .next (s.wakePort port)

/-- PORT_LINK_UP (R559, R562): the link of an Ethernet port or a root port. -/
def execPortLinkUp (port : PortId) (width rate : Nat) (flit : Bool) (s : State) :
    Host.Outcome State Fault Refusal :=
  .next (if 2 ≤ (s.port port).cfg.mode ∧ s.cst (cellNo 6 port) = .running then
    let root := (s.port port).cfg.mode == 4
    (s.linkUp port).modPort port fun x =>
      { x with width := if root then width else 0, rate := if root then rate else 0, flit := root && flit }
  else s)

/-- PORT_LINK_DOWN (R568): the link of an Ethernet port or a root port is lost. -/
def execPortLinkDown (port : PortId) (s : State) : Host.Outcome State Fault Refusal :=
  .next (if 2 ≤ (s.port port).cfg.mode ∧ s.isUp port then
    (s.setLink port .down).modPort port fun x => { x with lost := true, width := 0, rate := 0, flit := false }
  else s)

/-! ### Ethernet (R559 to R561) -/

/-- A port in an Ethernet mode. -/
def etherPort (s : State) (c : Nat) : Bool :=
  cellKind c == 6 && ((s.port (cellIndex c)).cfg.mode == 2 || (s.port (cellIndex c)).cfg.mode == 3)

/-- What R50 answers a port's new work with; 0 where the port takes it. -/
def State.portRefuses (s : State) (c : Nat) : Nat :=
  match s.cst c with
  | .faulted => 0x0203
  | .stopped | .draining => 0x0202
  | .running | .asleep => 0

/-- ETH_SEND (R560, R568). -/
def opEthSend : Op where
  code := 0x0A10
  len := exactly 2
  on := etherPort
  classes := any012
  run r s :=
    let p := cellIndex r.cell
    let len := r.num 8 4
    if !allZero (slice r.pk.params 13 3) then refuse 0x0105 0 s
    else if len < 60 ∨ (s.port p).cfg.maxFrame < len + 4 ∨ 7 < r.num 12 1 then refuse 0x0109 0 s
    else if s.portRefuses r.cell ≠ 0 then refuse (s.portRefuses r.cell) 0 s
    else if !s.isUp p then refuse 0x02A1 (s.port p).link.code s
    else accepted (s.modPort p fun x =>
      { x with ethSends := x.ethSends ++ [⟨r.part, r.num 0 8, len, r.num 12 1, r.who⟩] })

/-- ETH_SEND (R560). -/
def execEthSend (pk : Pkt) (s : State) : Host.Outcome State Fault Refusal := .next (submit opEthSend pk s)

/-- A received PAUSE or PFC holds a priority back (R559). -/
def State.heldBack (s : State) (p prio : Nat) : Bool := decide (s.now < tabGet 0 (s.port p).paused prio)

/-- ETH_SEND_COMPLETE (R560): the last byte of the oldest frame that is not held back has been sent, once the DMA cap lets its
bytes be read. -/
def execEthSendComplete (port : PortId) (s : State) : Host.Outcome State Fault Refusal :=
  .next (match (if s.isUp port then (s.port port).ethSends else []).find? fun e => !s.heldBack port e.prio with
  | none => s
  | some e =>
    let rest := (s.port port).ethSends.erase e
    let who := e.who
    match s.moveRange e.part e.addr e.len .read with
    | none => (s.modPort port fun x => { x with ethSends := rest }).complete who 0x0504 4 []
    | some (ps, t) =>
      match t.moverAccess (port.val / 128) none ps false fun t =>
        ((t.piecesPoisoned ps, (t.readPieces ps).1), (t.readPieces ps).2) with
      | (none, t) => t
      | (some (.error u), t) => (t.modPort port fun x => { x with ethSends := rest }).complete who 0x0502 u []
      | (some (.ok (true, _)), t) => (t.modPort port fun x => { x with ethSends := rest }).complete who 0x0506 0 []
      | (some (.ok (false, frame)), t) =>
        (t.modPort port fun x =>
          { x with ethSends := rest, sent := x.sent ++ [.ethernet (frame ++ leBytes 4 (crc32 frame))],
                   lastTx := s.now }).complete who 0 0 [])

/-- ETH_RECV (R561, R568). -/
def opEthRecv : Op where
  code := 0x0A11
  len := exactly 2
  on := etherPort
  classes := any012
  run r s :=
    let p := cellIndex r.cell
    let x := s.port p
    if !allZero (slice r.pk.params 12 4) then refuse 0x0105 0 s
    else if r.part ≠ x.cfg.owner then refuse 0x02A2 x.cfg.owner s
    else if r.num 8 4 < x.cfg.maxFrame then refuse 0x0109 0 s
    else if s.portRefuses r.cell ≠ 0 then refuse (s.portRefuses r.cell) 0 s
    else accepted (s.modPort p fun x => { x with ethRecvs := x.ethRecvs ++ [(r.num 0 8, r.num 8 4, r.who)] })

/-- ETH_RECV (R561). -/
def execEthRecv (pk : Pkt) (s : State) : Host.Outcome State Fault Refusal := .next (submit opEthRecv pk s)

/-- The ticks of pause quanta of 512 bit times at 50 Gb/s, rounded up. PRESUMED from IEEE 802.3 (log entry 108). -/
def pauseTicks (quanta : Nat) : Nat := (quanta * 1024 + 999) / 1000

/-- A MAC control frame holds priorities back: PAUSE (opcode 1) all of them, PFC (opcode 0x0101) those of its vector.
PRESUMED from IEEE 802.3 and 802.1Q (log entry 108). -/
def State.macControl (s : State) (p : Nat) (frame : Bytes) : State :=
  let hold (quanta : Nat → Option Nat) : State :=
    s.modPort p fun x =>
      let held := (List.range 8).foldl (fun t k => match quanta k with
        | some q => tabPut 0 t k (s.now + pauseTicks q)
        | none => t) x.paused
      { x with paused := held }
  match numAt frame 14 2 with
  | 0x0001 => hold fun _ => some (numAt frame 16 2)
  | 0x0101 => hold fun k => if (numAt frame 16 2).testBit k then some (numAt frame (18 + 2 * k) 2) else none
  | _ => s

/-- ETHERNET_FRAME_RECEIVE (R561): a frame, and the FCS that follows it. -/
def execEthernetFrameReceive (port : PortId) (frame : Bytes) (fcs : BitVec 32) (s : State) :
    Host.Outcome State Fault Refusal :=
  let x := s.port port
  let len := frame.length + 4
  .next (if (x.cfg.mode ≠ 2 ∧ x.cfg.mode ≠ 3) ∨ !s.isUp port then s
    else if leBytes 4 (crc32 frame) ≠ beBytes 4 fcs.toNat then
      s.modPort port fun x => { x with crcErrors := satAdd x.crcErrors 1 }
    else if numAt frame 12 2 = 0x8808 ∧ 64 ≤ len then s.macControl port frame
    else if len < 64 ∨ x.cfg.maxFrame < len ∨ 32768 < (s.staging port).inFill + frame.length then
      s.modPort port fun x => { x with resends := satAdd x.resends 1 }
    else
      let s := s.stage port { ctx := 131072, addr := 0, bytes := frame, credits := 0 }
      if (s.staging port).high * 256 ≤ (s.staging port).inFill then
        s.modPort port fun x => { x with sent := x.sent ++ [.pause (if Config.sendsPfc then some (framePcp frame) else none)] }
      else s)

/-! ### PCI Express root ports (R562 to R565) -/

/-- A root port. -/
def rootPort (s : State) (c : Nat) : Bool := cellKind c == 6 && (s.port (cellIndex c)).cfg.mode == 4

/-- MSI_WRITE (R565). -/
def execMsiWrite (port : PortId) (data : BitVec 32) (s : State) : Host.Outcome State Fault Refusal :=
  .next (if (s.port port).cfg.mode = 4 then (s.transaction port).latchMsi port data.toNat else s)

/-- MSI_WAIT (R565, R568). -/
def opMsiWait : Op where
  code := 0x0A12
  len := exactly 1
  on := rootPort
  classes := any012
  run r s :=
    let p := cellIndex r.cell
    let w := r.word 0
    let bad := badWord w 0xFFFFFFFF000007FF
    if bad ≠ 0 then refuse bad 0 s
    else if r.part ≠ (s.port p).cfg.owner then refuse 0x02A2 (s.port p).cfg.owner s
    else if bits w 10 0 % 32 ≠ 0 then refuse 0x0109 0 s
    else if s.portRefuses r.cell ≠ 0 then refuse (s.portRefuses r.cell) 0 s
    else
      accepted ((s.modPort p fun x =>
        { x with msiWaits := x.msiWaits ++ [(bits w 10 0, BitVec.ofNat 32 (bits w 63 32), r.who)] }).serveMsi p)

/-- MSI_WAIT (R565). -/
def execMsiWait (pk : Pkt) (s : State) : Host.Outcome State Fault Refusal := .next (submit opMsiWait pk s)

/-- ENDPOINT_REQUEST (R564): a request whose address fails is answered or dropped at once; any other passes through
the staging queue. A write that the staging memory has no room for has no credits to come with: DESIGN CHOICE (log entry 123). -/
def execEndpointRequest (port : PortId) (write : Bool) (addr : Word) (len : Nat) (data : Bytes) (s : State) :
    Host.Outcome State Fault Refusal :=
  let x := s.port port
  let n := if write then data.length else len
  let range := s.moveRange x.cfg.owner addr.toNat n (if write then .write else .read)
  .next (if x.cfg.mode ≠ 4 ∨ !s.isUp port ∨ n = 0 then s
    else
    let s := s.transaction port
    if range.isNone then
      let s := s.reportCell (cellNo 5 (groupOfPort port)) 1
      if write then s else s.modPort port fun x => { x with sent := x.sent ++ [.unsupportedRequest] }
    else if write then
      if 32768 < (s.staging port).inFill + n then s
      else s.stage port { ctx := 131073, addr := addr.toNat, bytes := data, credits := 0 }
    else (s.stage port { ctx := 131074, addr := addr.toNat, bytes := [], credits := len }).askDrain port false)

/-! ### Loop-backs (R566, R567) -/

/-- LOOP_TEST (R566 to R569). -/
def opLoopTest : Op where
  code := 0x0A00
  len := exactly 2
  on := kindIn [0x06, 0x04, 0x09]
  classes := mgr
  run r s :=
    let loop := r.num 0 1
    let time := r.num 8 8
    let p := cellIndex r.cell
    let kind := cellKind r.cell
    let mode := (s.port p).cfg.mode
    let known :=
      if kind = 6 then (1 ≤ loop ∧ loop ≤ 3) ∨ (loop = 4 ∧ (mode = 1 ∨ mode = 4))
      else if kind = 4 then 5 ≤ loop ∧ loop ≤ 7
      else loop = 8
    if !allZero (slice r.pk.params 1 7) then refuse 0x0105 0 s
    else if time = 0 ∨ 10000000 < time then refuse 0x0109 0 s
    else if s.cst r.cell ≠ .stopped then refuse 0x0201 0 s
    else if !known then refuse 0x02A3 loop s
    else if loop = 8 ∧ r.pk.auth ≠ 2 then refuse 0x010A 0 s
    else if loop = 8 ∧ s.step5Begun then refuse 0x0207 0 s
    else if loop = 4 ∧ mode = 1 ∧ !s.isUp p then refuse 0x02A1 (s.port p).link.code s
    else if s.io.loops.any fun l => l.1 = r.cell then refuse 0x0204 0 s
    else
      let s := s.modIo fun i => { i with loops := i.loops ++ [(r.cell, r.who)] }
      accepted (if loop = 4 ∧ mode = 1 then s.emitLink p 5 else s)

/-- LOOP_TEST (R566). -/
def execLoopTest (pk : Pkt) (s : State) : Host.Outcome State Fault Refusal := .next (submit opLoopTest pk s)

/-- LOOP_TEST_COMPLETE (R567). -/
def execLoopTestComplete (cell : Nat) (words errors : Word) (s : State) : Host.Outcome State Fault Refusal :=
  .next (match s.io.loops.find? fun l => l.1 = cell with
  | none => s
  | some l =>
    let s := s.modIo fun i => { i with loops := i.loops.erase l }
    let p := cellIndex cell
    let s := if cellKind cell = 6 ∧ (s.port p).cfg.mode = 1 ∧ s.isUp p then s.emitLink p 7 else s
    s.complete l.2 0 0 (wordBytes words ++ wordBytes errors))

end Sys2Proof.Machine
end

