-- ==== Sys2Proof/Machine/Partitions.lean ====
section
/-! DEFINITION. Partitions (chapter 11): ASSIGN, REVOKE and SHARE_SET over the ten kinds of resource. -/

namespace Sys2Proof.Machine

/-- The parameters of a partition opcode (R480). -/
structure Share where
  kind  : Nat
  first : Nat
  count : Nat
  a     : Nat
  b     : Nat
  deriving DecidableEq, Repr

/-- The parameters of a request (R480). -/
def Req.share (r : Req) : Share :=
  { kind := r.num 0 1, first := r.num 4 4, count := r.num 8 4, a := r.num 12 2, b := r.num 14 2 }

/-- The resources that a request names, in ascending order. -/
def Share.range (h : Share) : List Nat := (List.range h.count).map (h.first + ·)

/-- The event sources that ASSIGN gives (R465 kind 10). -/
def assignable (src : Nat) : Bool :=
  decide (0x940 ≤ src ∧ src ≤ 0x9BF) || decide (0x9C0 ≤ src ∧ src ≤ 0x9CF) || decide (0x9E0 ≤ src ∧ src ≤ 0x9FF)

/-- A granule that R470 calls unmapped, or that lies beyond the windows that ASSIGN reaches (R465). -/
def State.granuleKnown (s : State) (g : Nat) : Bool :=
  match s.place (g * 2 ^ 30) with
  | .direct _ => true
  | .tier _ _ => true
  | _ => false

/-- Every resource of the range exists, and its COUNT is legal (R465, R480). -/
def State.rangeKnown (s : State) (h : Share) : Bool :=
  let upTo (n : Nat) : Bool := decide (h.first + h.count ≤ n)
  decide (1 ≤ h.count ∧ h.count ≤ 65536) &&
    match h.kind with
    | 1 => h.count == 1 && upTo 52
    | 2 => h.count == 1 && upTo 104
    | 3 => upTo (pcieBase / 2 ^ 30) && h.range.all s.granuleKnown
    | 4 => upTo 131072
    | 5 => upTo 1024
    | 6 => upTo 64
    | 7 => upTo 256
    | 8 => upTo 256
    | 9 => upTo 8
    | 10 => upTo 0xA00 && h.range.all assignable
    | _ => false

/-- EXTRA_A and EXTRA_B are in range where a resource is assigned or resized (R465). -/
def Share.extrasOk (h : Share) : Bool :=
  match h.kind with
  | 1 | 2 => decide (h.a ≤ 95) && h.b == 0
  | 5 => decide (1 ≤ h.a ∧ h.a ≤ 256) && h.b == 0
  | 8 => decide (1 ≤ h.a ∧ h.a ≤ 255) && h.b == 0
  | 9 => decide (1 ≤ h.a ∧ h.a ≤ 255) && decide (1 ≤ h.b ∧ h.b ≤ 1024)
  | _ => h.a == 0 && h.b == 0

/-- The detail word that names a resource (R481). -/
def resourceNo (kind i : Nat) : Nat :=
  match kind with
  | 1 => cellNo 1 i
  | 2 => cellNo 2 i
  | 4 => cellNo 0x0D i
  | 5 => cellNo 0x0C i
  | 6 => cellNo 0x0F i
  | 7 => cellNo 0x0E i
  | 8 => cellNo 6 i
  | 9 => if i < 4 then cellNo 7 i else cellNo 8 (i - 4)
  | _ => i

/-- The partitions that hold a resource (R465). -/
def State.holders (s : State) (kind i : Nat) : List Nat :=
  match kind with
  | 1 => (s.parts.procs.filter fun p => p.core == 2 * i && p.whole).map ProcShare.part
  | 2 => (s.parts.procs.filter fun p => p.core == i && !p.whole).map ProcShare.part
  | 3 => (s.owner i).toList
  | 4 => (s.ctx i).owner.toList
  | 5 => (s.queue i).owner.toList
  | 6 => (s.timer i).owner.toList
  | 7 => (tabGet none s.io.classOwner i).toList
  | 8 => (s.parts.ports.filter fun u => u.unit == i).map UnitShare.part
  | 9 => (s.parts.engines.filter fun u => u.unit == i).map UnitShare.part
  | 10 => (s.source i).owner.toList
  | _ => []

/-- ASSIGN of the resource to a partition meets R481's ALREADY_ASSIGNED: an exclusive resource that any partition
holds, or a shared one that this partition holds. -/
def State.taken (s : State) (n kind i : Nat) : Bool :=
  if kind = 8 ∨ kind = 9 then (s.holders kind i).contains n else !(s.holders kind i).isEmpty

/-- The outstanding commands of a partition at an engine (R465, R483). -/
def State.engineLoad (s : State) (e n : Nat) : Nat := ((s.engine e).queue.filter fun q => q.part == n).length

/-- A range of partition-stage addresses of a partition reaches a granule. -/
def State.reachesGranule (s : State) (n base len g : Nat) : Bool :=
  (pagePieces (len / 4096 + 2) base len).any fun p =>
    (s.partAddr n p.1 .read <|> s.partAddr n p.1 .write).any fun f => granuleOf f.addr == g

/-- A granule holds the partition's mailbox region or a declared buffer range of one of its contexts (R471). -/
def State.granuleNeeded (s : State) (n g : Nat) : Bool :=
  let c := (s.part n).cfg
  (c.mboxLog2 != 0 && s.reachesGranule n c.mboxBase.toNat (64 + 128 * 2 ^ c.mboxLog2) g) ||
    s.io.bindings.any fun b =>
      (s.ctx b.first).owner == some n && b.ranges.any fun r => s.reachesGranule n r.1 r.2 g

/-- The state that R465 and R471 require of a resource does not hold. -/
def State.inUse (s : State) (n kind i : Nat) (take : Bool) : Bool :=
  match kind with
  | 1 => s.cst (cellNo 1 i) != .stopped || s.isSplit i || s.isSpare i || (s.pair i).job.isSome
  | 2 => !s.isSplit (i / 2) || s.cst (cellNo 2 i) != .stopped || (s.pair (i / 2)).job.isSome
  | 3 => s.mem.jobs.any (fun j => match j with
      | .assign _ _ gs _ => gs.contains i
      | _ => false) || (!take && s.granuleNeeded n i)
  | 4 => s.cst (cellNo 0x0D i) != .stopped || s.io.journal.any fun e => e.2.ctx == i && e.2.state != 0
  | 5 => s.cst (cellNo 0x0C i) != .stopped || (s.queue i).count != 0
  | 6 => (s.timer i).compare != 0 || (s.timer i).next.any fun x => x.1 != 0
  | 9 => !take && s.engineLoad i n != 0
  | _ => false

/-- A granule of a tier region's backing, of which the detail word is 0 (R335, R470). -/
def State.inBacking (s : State) (kind i : Nat) : Bool := kind == 3 && s.meetsBacking none (i * 2 ^ 30) (2 ^ 30)

/-- The first resource of a range that fails, with its status (R481). -/
def State.assignFault (s : State) (n : Nat) (h : Share) : Option (Nat × Nat) :=
  h.range.findSome? fun i =>
    if s.inBacking h.kind i then some (0x0232, 0)
    else if s.taken n h.kind i then some (0x0281, resourceNo h.kind i)
    else if s.inUse n h.kind i true then some (0x0282, resourceNo h.kind i)
    else none

/-- The first resource of a range that cannot be given up, with its status (R481). -/
def State.revokeFault (s : State) (n : Nat) (h : Share) : Option (Nat × Nat) :=
  h.range.findSome? fun i =>
    if s.inBacking h.kind i then some (0x0232, 0)
    else if !(s.holders h.kind i).contains n then some (0x0280, resourceNo h.kind i)
    else if s.inUse n h.kind i false then some (0x0282, resourceNo h.kind i)
    else none

/-- Give a partition one resource that is not memory. -/
def State.give (s : State) (n : Nat) (h : Share) (i : Nat) : State :=
  match h.kind with
  | 1 => s.modParts fun t => { t with procs := t.procs ++ [{ core := 2 * i, part := n, num := h.a, whole := true }] }
  | 2 => s.modParts fun t => { t with procs := t.procs ++ [{ core := i, part := n, num := h.a, whole := false }] }
  | 4 => s.modCtx i fun x => { x with owner := some n }
  | 5 => s.modQueue i fun x => { x with owner := some n, cfg := { x.cfg with capacity := h.a } }
  | 6 => s.modTimer i fun x => { x with owner := some n }
  | 7 => s.modIo fun o => { o with classOwner := tabPut none o.classOwner i (some n) }
  | 8 => s.modParts fun t => { t with ports := t.ports ++ [{ unit := i, part := n, weight := h.a, depth := 0 }] }
  | 9 => s.modParts fun t => { t with engines := t.engines ++ [{ unit := i, part := n, weight := h.a, depth := h.b }] }
  | 10 => s.modSource i fun x => { x with owner := some n }
  | _ => s

/-- The L2 ways of a core are flushed to memory, its L1s become empty and its state is discarded (R482). -/
def State.vacate (s : State) (core : Nat) (ways : Nat → Bool) : State :=
  let s := ((s.emptyWays (pairOfCore core) ways).emptyL1 core).modCore core fun _ => Core.reset
  if core % 2 = 0 then
    s.modPair (pairOfCore core) fun x => { x with ckpt := Arch.reset, opened := Window.empty (x.opened.number + 1) }
  else s

/-- Take one resource that is not memory from a partition (R482, R527). -/
def State.takeBack (s : State) (n kind i : Nat) : State :=
  match kind with
  | 1 =>
    (s.vacate (2 * i) fun _ => true).modParts fun t => { t with procs := t.procs.filter fun p => p.core != 2 * i }
  | 2 =>
    let sh := (s.pair (i / 2)).shadowWays.toNat
    (s.vacate i fun w => if i % 2 = 0 then decide (w < 16 - sh) else decide (16 - sh ≤ w)).modParts fun t =>
      { t with procs := t.procs.filter fun p => p.core != i }
  | 4 => s.modCtx i fun x => { x with owner := none }
  | 5 => s.modQueue i fun x => { x with owner := none }
  | 6 => s.modTimer i fun x => { x with owner := none }
  | 7 => s.modIo fun o => { o with classOwner := tabPut none o.classOwner i none }
  | 8 => s.modParts fun t => { t with ports := t.ports.filter fun u => u.unit != i || u.part != n }
  | 9 =>
    (s.modParts fun t => { t with engines := t.engines.filter fun u => u.unit != i || u.part != n }).modEngine i fun e =>
      { e with slots := e.slots.filter fun k => (k.2.map KeySlot.part) != some n }
  | 10 => s.modSource i fun x => { x with owner := none }
  | _ => s

/-- ASSIGN (R465, R467, R470, R479 to R481). -/
def opAssign : Op where
  code := 0x0800
  len := exactly 2
  on := kindIn [0x14]
  classes := mgr
  run r s :=
    let n := cellIndex r.cell
    let h := r.share
    if !allZero (slice r.pk.params 1 3) then refuse 0x0105 0 s
    else if !s.rangeKnown h ∨ !h.extrasOk then refuse 0x0109 0 s
    else
      match s.assignFault n h with
      | some (status, detail) => refuse status detail s
      | none =>
        if (h.kind = 1 ∨ h.kind = 2) ∧ s.procsMax n ≤ (s.procsOf n).length then refuse 0x0402 0 s
        else if (h.kind = 1 ∨ h.kind = 2) ∧ (s.procsOf n).any fun p => p.num == h.a then refuse 0x0410 0 s
        else if h.kind = 3 then accepted (s.addMemJob (.assign n true h.range r.who))
        else done (h.range.foldl (fun s i => s.give n h i) s)

/-- ASSIGN (R481). -/
def execAssign (pk : Pkt) (s : State) : Host.Outcome State Fault Refusal := .next (submit opAssign pk s)

/-- REVOKE (R465, R470, R471, R479 to R482). -/
def opRevoke : Op where
  code := 0x0801
  len := exactly 2
  on := kindIn [0x14]
  classes := mgr
  run r s :=
    let n := cellIndex r.cell
    let h := r.share
    if !allZero (slice r.pk.params 1 3) then refuse 0x0105 0 s
    else if !s.rangeKnown h ∨ h.a ≠ 0 ∨ h.b ≠ 0 then refuse 0x0109 0 s
    else
      match s.revokeFault n h with
      | some (status, detail) => refuse status detail s
      | none =>
        if h.kind = 3 then accepted (s.addMemJob (.assign n false h.range r.who))
        else done (h.range.foldl (fun s i => s.takeBack n h.kind i) s)

/-- REVOKE (R481). -/
def execRevoke (pk : Pkt) (s : State) : Host.Outcome State Fault Refusal := .next (submit opRevoke pk s)

/-- Zero one granule, under the key of its new owner where it is direct memory (R470). -/
def State.treatGranule (s : State) (n : Nat) (take : Bool) (g : Nat) : State :=
  let s := match s.place (g * 2 ^ 30) with
    | .direct _ => s.rekey g (if take then n else 64)
    | _ => s.zeroPiece (g * 2 ^ 30) (2 ^ 30)
  s.modParts fun t => { t with owner := tabPut none t.owner g (if take then some n else none) }

/-- ASSIGN_REVOKE_COMPLETE (R468, R470): every granule named has been treated. -/
def execAssignRevokeComplete (job : Nat) (s : State) : Host.Outcome State Fault Refusal :=
  .next (match s.takeMemJob job with
  | some (.assign n take gs who, t) =>
    s.onceAwake (s.jobRanges (.assign n take gs who)) ((gs.foldl (fun t g => t.treatGranule n take g) t).complete who 0 0 [])
  | _ => s)

/-! ### Shares -/

/-- The backlog of a resource does not exceed its new share (R484). -/
def State.fits (s : State) (kind n value i : Nat) : Bool :=
  if kind = 5 then decide ((s.queue i).count ≤ value)
  else if kind = 9 then decide (s.engineLoad i n ≤ value)
  else true

/-- Two SHARE_SETs concern the same resource (R485). -/
def ShareJob.meets (j : ShareJob) (n : Nat) (h : Share) : Bool :=
  j.kind == h.kind && j.part == n && decide (j.first < h.first + h.count ∧ h.first < j.first + j.count)

/-- The SHARE_SETs that a new one supersedes complete at once (R485). -/
def State.supersede (s : State) (n : Nat) (h : Share) : State :=
  let old := s.parts.shareJobs.filter fun j => j.meets n h
  let s := s.modParts fun t => { t with shareJobs := t.shareJobs.filter fun j => !j.meets n h }
  old.foldl (fun s j => s.complete j.who 0x0284 0 []) s

/-- Put a new share in force (R484). -/
def State.resize (s : State) (n : Nat) (h : Share) (i : Nat) : State :=
  let set (u : UnitShare) : UnitShare :=
    if u.unit = i ∧ u.part = n then { u with weight := h.a, depth := if h.kind = 9 then h.b else 0 } else u
  match h.kind with
  | 5 => s.modQueue i fun x => { x with cfg := { x.cfg with capacity := h.a } }
  | 8 => s.modParts fun t => { t with ports := t.ports.map set }
  | 9 => s.modParts fun t => { t with engines := t.engines.map set }
  | _ => s

/-- SHARE_SET (R480, R484, R485). -/
def opShareSet : Op where
  code := 0x0802
  len := exactly 2
  on := kindIn [0x14]
  classes := mgr
  run r s :=
    let n := cellIndex r.cell
    let h := r.share
    let value := if h.kind = 5 then h.a else h.b
    if !allZero (slice r.pk.params 1 3) then refuse 0x0105 0 s
    else if (h.kind ≠ 5 ∧ h.kind ≠ 8 ∧ h.kind ≠ 9) ∨ (h.kind ≠ 5 ∧ h.count ≠ 1) ∨ !s.rangeKnown h ∨ !h.extrasOk then
      refuse 0x0109 0 s
    else
      match h.range.find? fun i => !(s.holders h.kind i).contains n with
      | some i => refuse 0x0280 (resourceNo h.kind i) s
      | none =>
        let s := h.range.foldl (fun s i => s.resize n h i) (s.supersede n h)
        if h.range.all fun i => s.fits h.kind n value i then done s
        else
          accepted (s.modParts fun t =>
            { t with shareJobs := t.shareJobs ++
                [{ kind := h.kind, first := h.first, count := h.count, value := value, part := n, who := r.who }] })

/-- SHARE_SET (R484). -/
def execShareSet (pk : Pkt) (s : State) : Host.Outcome State Fault Refusal := .next (submit opShareSet pk s)

/-- SHARE_SET_COMPLETE (R484): the backlog first no longer exceeds the new share. -/
def execShareSetComplete (job : Nat) (s : State) : Host.Outcome State Fault Refusal :=
  .next (match takeAt s.parts.shareJobs job with
  | some (j, rest) =>
    if ((List.range j.count).map (j.first + ·)).all fun i => s.fits j.kind j.part j.value i then
      (s.modParts fun t => { t with shareJobs := rest }).complete j.who 0 0 []
    else s
  | none => s)

end Sys2Proof.Machine
end

