-- ==== Sys2Proof/Machine/Engines.lean ====
section
/-! DEFINITION. The stream compression and cryptography engines (chapter 12): the checks of a request, the scheduling
of R499 and R500, and what each opcode does when its request completes. -/

namespace Sys2Proof.Machine

/-- The request block (R495). -/
structure Blk where
  inAddr  : Nat
  inLen   : Nat
  outLen  : Nat
  outAddr : Nat
  auxAddr : Nat
  auxLen  : Nat
  slot    : Nat
  first   : Bool
  last    : Bool
  limit   : Bool
  area    : Nat
  mode    : Word
  deriving DecidableEq, Repr

def blkOf (b : Bytes) : Blk :=
  { inAddr := numAt b 0 8, inLen := numAt b 8 4, outLen := numAt b 12 4, outAddr := numAt b 16 8,
    auxAddr := numAt b 24 8, auxLen := numAt b 32 4, slot := numAt b 36 2, first := (b.getD 38 0).getLsbD 0,
    last := (b.getD 38 0).getLsbD 1, limit := (b.getD 38 0).getLsbD 2, area := numAt b 40 8, mode := wordAt b 6 }

/-- MODE [7:0]. -/
def Blk.alg (k : Blk) : Nat := bits k.mode 7 0

/-- The key size in bytes of MODE [28:16] (R521). -/
def Blk.rsaLen (k : Blk) : Nat := bits k.mode 28 16 / 8

/-- The cell of an engine, and the engine of a cell. -/
def engineCell (e : Nat) : Nat := if e < 4 then cellNo 7 e else cellNo 8 (e - 4)
def engineOf (c : Nat) : Nat := if cellKind c = 7 then cellIndex c else 4 + cellIndex c

/-- The curve of MODE [7:0] for ECDSA. -/
def curveOf (n : Nat) : Curve := if n = 1 then p256 else p384

/-- MODE is one that the opcode defines (R506, R521, R525, R526). -/
def Blk.modeOk (k : Blk) (op : Nat) : Bool :=
  let m := k.mode.toNat
  let size := bits k.mode 28 16
  let rsa := decide (1024 ≤ size ∧ size ≤ 4096 ∧ size % 64 = 0)
  match op with
  | 0x0900 => decide (m < 256 ∧ m % 4 ≤ 2 ∧ 1 ≤ m / 4 % 16 ∧ m / 4 % 16 ≤ 9 ∧ m / 64 ≤ 2)
  | 0x0901 => decide (m ≤ 2)
  | 0x0910 =>
    if k.alg = 3 ∨ k.alg = 4 then decide (m < 2 ^ 32 ∧ bits k.mode 15 9 = 0 ∧ 1 ≤ bits k.mode 31 16)
    else decide (m < 512 ∧ 1 ≤ k.alg ∧ k.alg ≤ 6)
  | 0x0911 => decide (1 ≤ m ∧ m ≤ 4)
  | 0x0912 => rsa && decide (m = size * 65536 + 1 ∨ m = size * 65536 + 2)
  | 0x0913 => decide (m < 512 ∧ 1 ≤ k.alg ∧ k.alg ≤ 2)
  | 0x0914 => decide (1 ≤ m ∧ m ≤ 2)
  | 0x0915 => decide (m = 0 ∨ m = 256)
  | 0x0918 => if k.alg = 7 then rsa && decide (m = size * 65536 + 7) else decide (1 ≤ m ∧ m ≤ 9)
  | 0x0919 => decide (m < 512 ∧ 1 ≤ k.alg ∧ k.alg ≤ 9 ∧ k.alg ≠ 7)
  | _ => decide (m = 0)

/-- The bytes of key material of a type (R525); `n` is AUX_LEN. -/
def keyLenOk (k : Blk) (n : Nat) : Bool :=
  match k.alg with
  | 1 => n == 16
  | 2 | 3 => n == 32
  | 4 => n == 64
  | 5 => decide (1 ≤ n ∧ n ≤ 64)
  | 6 => decide (1 ≤ n ∧ n ≤ 128)
  | 7 => n == 7 * k.rsaLen / 2 + 8
  | 8 => n == 32
  | 9 => n == 48
  | _ => false

/-- The lengths fit what the operation reads and writes (R521, R522, R529; log entry 33). -/
def Blk.lensOk (k : Blk) (op : Nat) : Bool :=
  let decrypt := bitOf k.mode 8
  let len := (curveOf k.alg).len
  match op with
  | 0x0910 =>
    if k.alg ≤ 2 then
      decide (12 ≤ k.auxLen ∧ k.inLen ≤ 2 ^ 32 - 17) &&
        (if decrypt then decide (16 ≤ k.inLen ∧ k.inLen - 16 ≤ k.outLen) else decide (k.inLen + 16 ≤ k.outLen))
    else
      decide (k.auxLen = 16 ∧ k.inLen ≤ k.outLen ∧
        k.inLen % (if k.alg ≤ 4 then 16 * bits k.mode 31 16 else 16) = 0)
  | 0x0911 => !k.last || decide ((if k.alg % 2 = 1 then 32 else 48) ≤ k.outLen)
  | 0x0912 => decide (k.inLen = k.rsaLen ∧ k.rsaLen ≤ k.outLen) && (k.alg == 1 || k.auxLen == k.rsaLen + 8)
  | 0x0913 => decide (2 * len ≤ k.outLen)
  | 0x0914 => decide (k.auxLen = 2 * len ∧ 2 * len ≤ k.inLen)
  | 0x0915 => decide (1 ≤ k.outLen ∧ k.outLen ≤ 65536)
  | 0x0918 => keyLenOk k k.auxLen
  | 0x0919 => decide (k.alg < 8) || decide (2 * (curveOf (k.alg - 7)).len ≤ k.outLen)
  | _ => true

/-- Opcodes that work on a stream (R507). -/
def streams (op : Nat) : Bool := op == 0x0900 || op == 0x0901 || op == 0x0911

/-- The bytes of a state area (R507, R522). -/
def areaLen (op : Nat) : Nat := if op = 0x0911 then 256 else 33792

/-- The output range overlaps a range that the request reads (R496). -/
def Blk.overlaps (k : Blk) (op : Nat) : Bool :=
  let hit (a n : Nat) : Bool := meets k.outAddr k.outLen a n
  (hit k.inAddr k.inLen && !(op == 0x0910 && k.outAddr == k.inAddr)) || hit k.auxAddr k.auxLen ||
    (streams op && k.area != 0 && hit k.area (areaLen op))

/-- The key types that a request's slot may have; none where it names no slot (R524; log entry 33). -/
def Blk.keyTypes (k : Blk) (op : Nat) : Option (List Nat) :=
  match op with
  | 0x0910 => some [if k.alg ≤ 4 then k.alg else k.alg - 4]
  | 0x0911 => if k.alg ≤ 2 then none else some [k.alg + 2]
  | 0x0912 => if k.alg = 1 then some [7] else none
  | 0x0913 => some [k.alg + 7]
  | 0x091A => some [1, 2, 3, 4, 5, 6, 7, 8, 9]
  | _ => none

/-- The slot of an engine, if it is filled. -/
def State.keySlot (s : State) (e i : Nat) : Option KeySlot := tabGet none (s.engine e).slots i

/-- The slots of the kind that holds a key type (R524). -/
def slotsFor (type : Nat) : List Nat := if type ≤ 6 then List.range 128 else (List.range 32).map (128 + ·)

/-- The lowest free slot for a key type (R525). -/
def State.freeSlot (s : State) (e type : Nat) : Option Nat := (slotsFor type).find? fun i => (s.keySlot e i).isNone

/-- SLOT is a slot's number or 0xFFFF (R495). -/
def Blk.slotOk (k : Blk) : Bool := decide (k.slot < 160) || k.slot == 0xFFFF

/-- Why a slot cannot be used (R524, R527, R528): 0 where it can. -/
def State.slotFault (s : State) (e part : Nat) (k : Blk) (types : List Nat) : Nat :=
  match s.keySlot e k.slot with
  | none => 0x0451
  | some x =>
    let going := (s.engine e).queue.any fun q => q.op == 0x091A#16 && q.part == part && (blkOf q.block).slot == k.slot
    if x.part ≠ part ∨ going then 0x0451
    else if !types.contains x.type ∨ (x.type = 7 ∧ k.mode ≠ 0 ∧ x.bytes.length ≠ 7 * k.rsaLen / 2 + 8) then 0x0452
    else 0

/-- The share that a partition holds of an engine (R494). -/
def State.engineShare (s : State) (e n : Nat) : Option UnitShare :=
  s.parts.engines.find? fun u => u.unit == e && u.part == n

/-- The output limit would be armed for a request that starts now (R519). -/
def State.limitNow (s : State) (e : Nat) (block : Bytes) : Bool :=
  (blkOf block).limit || (s.engine e).startup || (s.engine e).test || (s.engine e).recovery

/-- An engine opcode (R494 to R496, R528, R531). -/
def engineOp (code kind : Nat) : Op where
  code := code
  len := exactly 8
  on := kindIn [7, 8]
  classes := any012
  run r s :=
    let e := engineOf r.cell
    let k := blkOf r.pk.params
    let noState := streams code && k.first && !k.last && k.area == 0
    match s.engineShare e r.part with
    | none => refuse 0x0107 0 s
    | some share =>
      if cellKind r.cell ≠ kind then refuse 0x0108 0 s
      else if !allZero (slice r.pk.params 39 1 ++ slice r.pk.params 56 8) ∨ 8 ≤ r.num 38 1 then refuse 0x0105 0 s
      else if k.area % 256 ≠ 0 ∨ noState ∨ !k.slotOk ∨ !k.modeOk code ∨ !k.lensOk code ∨ k.overlaps code then refuse 0x0109 0 s
      else if s.cst r.cell = .stopped ∨ s.cst r.cell = .draining then refuse 0x0202 0 s
      else if s.cst r.cell = .faulted then refuse 0x0203 0 s
      else if share.depth ≤ s.engineLoad e r.part then refuse 0x0402 0 s
      else
        let slotBad := match k.keyTypes code with
          | some types => s.slotFault e r.part k types
          | none => 0
        if slotBad ≠ 0 then refuse slotBad k.slot s
        else if (code = 0x0918 ∨ code = 0x0919) ∧ (s.freeSlot e k.alg).isNone then refuse 0x0450 0 s
        else
          let q : EngReq :=
            { part := r.part, op := BitVec.ofNat 16 code, block := r.pk.params,
              armed := s.engineLoad e r.part == 0 && s.limitNow e r.pk.params, who := r.who }
          accepted ((s.modEngine e fun x => { x with queue := x.queue ++ [q] }).touchCell r.cell)

def opCompress : Op := engineOp 0x0900 7
def opDecompress : Op := engineOp 0x0901 7
def opCipher : Op := engineOp 0x0910 8
def opDigest : Op := engineOp 0x0911 8
def opRsa : Op := engineOp 0x0912 8
def opEcdsaSign : Op := engineOp 0x0913 8
def opEcdsaVerify : Op := engineOp 0x0914 8
def opRandom : Op := engineOp 0x0915 8
def opKeyLoad : Op := engineOp 0x0918 8
def opKeyGen : Op := engineOp 0x0919 8
def opKeyClear : Op := engineOp 0x091A 8

/-- COMPRESS (R495, R506). -/
def execCompress (pk : Pkt) (s : State) : Host.Outcome State Fault Refusal := .next (submit opCompress pk s)
/-- DECOMPRESS (R495, R506). -/
def execDecompress (pk : Pkt) (s : State) : Host.Outcome State Fault Refusal := .next (submit opDecompress pk s)
/-- CIPHER (R495, R521). -/
def execCipher (pk : Pkt) (s : State) : Host.Outcome State Fault Refusal := .next (submit opCipher pk s)
/-- DIGEST (R495, R521). -/
def execDigest (pk : Pkt) (s : State) : Host.Outcome State Fault Refusal := .next (submit opDigest pk s)
/-- RSA (R495, R521). -/
def execRsa (pk : Pkt) (s : State) : Host.Outcome State Fault Refusal := .next (submit opRsa pk s)
/-- ECDSA_SIGN (R495, R523). -/
def execEcdsaSign (pk : Pkt) (s : State) : Host.Outcome State Fault Refusal := .next (submit opEcdsaSign pk s)
/-- ECDSA_VERIFY (R495, R522). -/
def execEcdsaVerify (pk : Pkt) (s : State) : Host.Outcome State Fault Refusal := .next (submit opEcdsaVerify pk s)
/-- RANDOM (R495, R529). -/
def execRandom (pk : Pkt) (s : State) : Host.Outcome State Fault Refusal := .next (submit opRandom pk s)
/-- KEY_LOAD (R495, R525). -/
def execKeyLoad (pk : Pkt) (s : State) : Host.Outcome State Fault Refusal := .next (submit opKeyLoad pk s)
/-- KEY_GEN (R495, R526). -/
def execKeyGen (pk : Pkt) (s : State) : Host.Outcome State Fault Refusal := .next (submit opKeyGen pk s)
/-- KEY_CLEAR (R495, R527). -/
def execKeyClear (pk : Pkt) (s : State) : Host.Outcome State Fault Refusal := .next (submit opKeyClear pk s)

/-! ### Scheduling (R499, R500) -/

/-- A request that the public-key unit serves (R500). -/
def EngReq.isPk (q : EngReq) : Bool :=
  q.op == 0x0912#16 || q.op == 0x0913#16 || q.op == 0x0914#16 ||
    (q.op == 0x0919#16 && decide (8 ≤ (blkOf q.block).alg))

/-- The work that a request counts as (R499). -/
def EngReq.work (q : EngReq) : Nat := if q.isPk then 65536 else max 256 (blkOf q.block).inLen

/-- The oldest request of each partition at one unit, in ascending partition number. -/
def headsOf (l : List EngReq) : List EngReq :=
  sortBy EngReq.part ((distinct (l.map EngReq.part)).filterMap fun n => l.find? fun q => q.part == n)

/-- Serve segments until a request is done: the request, and the scheduler's state after it. -/
def drrRun (weight : Nat → Nat) (heads : List EngReq) : Nat → Drr → Option EngReq × Drr
  | 0, d => (none, d)
  | f + 1, d =>
    match d.round with
    | [] =>
      if heads.isEmpty then (none, d)
      else
        drrRun weight heads f
          { d with round := heads.map EngReq.part,
                   deficit := heads.foldl (fun t q => tabMod 0 t q.part (· + Int.ofNat (weight q.part * 4096))) d.deficit }
    | p :: rest =>
      match heads.find? fun q => q.part == p with
      | none => drrRun weight heads f { d with round := rest }
      | some q =>
        if tabGet 0 d.deficit p ≤ 0 then drrRun weight heads f { d with round := rest }
        else
          let had := tabGet 0 d.done p
          let seg := min 65536 (q.work - had)
          let d := { d with deficit := tabMod 0 d.deficit p (· - Int.ofNat seg), done := tabPut 0 d.done p (had + seg) }
          if q.work ≤ had + seg then (some q, { d with done := tabPut 0 d.done p 0 }) else drrRun weight heads f d

/-- The next request to complete, and the engine's state after its service: of two units with a request waiting, an
open value says which completes first (log entry 34). A KEY_CLEAR waits for earlier requests that name its slot
(R527). -/
def State.nextRequest (s : State) (e : Nat) : Option EngReq × State :=
  let x := s.engine e
  let weight (n : Nat) : Nat := ((s.engineShare e n).map UnitShare.weight).getD 1
  let sym := headsOf (x.queue.filter fun q => !q.isPk)
  let pk := headsOf (x.queue.filter EngReq.isPk)
  let (v, s1) := if sym.isEmpty ∨ pk.isEmpty then (ofBool pk.isEmpty, s) else s.fresh
  let symRun := drrRun weight sym (2 ^ 40) x.drr
  let blocked := match symRun.1 with
    | some q => q.op == 0x091A#16 && x.queue.any fun p => p.isPk && p.part == q.part && (blkOf p.block).slot == (blkOf q.block).slot
    | none => true
  if bitOf v 0 ∧ !blocked then (symRun.1, s1.modEngine e fun x => { x with drr := symRun.2 })
  else
    let r := drrRun weight pk (2 ^ 40) x.drrPk
    (r.1, s1.modEngine e fun x => { x with drrPk := r.2 })

/-! ### Executing a request -/

/-- How a request ends (R497). -/
structure Ended where
  status  : Nat
  detail  : Nat
  used    : Nat
  written : Nat
  check   : Nat
  flags   : Nat
  nextIv  : Bytes
  state   : State
  deriving DecidableEq, Repr

def ended (status detail : Nat) (s : State) : Ended :=
  { status := status, detail := detail, used := 0, written := 0, check := 0, flags := 0, nextIv := zeros 16, state := s }

/-- The results of R497. -/
def Ended.results (e : Ended) : Bytes :=
  beBytes 4 e.used ++ beBytes 4 e.written ++ beBytes 8 e.check ++ [BitVec.ofNat 8 e.flags] ++ zeros 15 ++ e.nextIv

/-- The I/O die that receives an engine's writes. -/
def engineDie (e : Nat) : Nat := e % 4 / 2

/-- The status that stands for a request that must wait for memory (R28, R306, R326). -/
def stalled : Nat := 0x10000

/-- A stream engine's reads train its slots in the slices (R249). -/
def State.engineTrain (s : State) (e : Nat) (ps : List (Nat × Nat)) : State :=
  if e < 4 then (ps.flatMap fun p => if p.1 < pcieBase then linesOf p.1 p.2 else []).foldl (fun s l =>
    s.trainStream (engineCell e) l) s
  else s

/-- Read a range of the partition's memory; `which` names the address (R498). -/
def State.engineRead (s : State) (e n addr len which : Nat) : Except Ended (Bytes × State) :=
  match s.tablesWait (s.partTables n addr len), s.partRange n addr len .read with
  | some t, _ => .error (ended stalled 0 t)
  | none, none => .error (ended 0x0520 which s)
  | none, some (ps, t) =>
    match t.reach ps false fun t => ((t.piecesPoisoned ps, (t.readPieces ps).1), (t.readPieces ps).2.engineTrain e ps) with
    | (none, t) => .error (ended stalled 0 t)
    | (some (true, _), t) => .error (ended 0x0506 0 t)
    | (some (false, b), t) => .ok (b, t)

/-- Write a range of the partition's memory (R498). -/
def State.engineWrite (s : State) (e n addr : Nat) (bs : Bytes) (which : Nat) : Except Ended State :=
  match s.tablesWait (s.partTables n addr bs.length), s.partRange n addr bs.length .write with
  | some t, _ => .error (ended stalled 0 t)
  | none, none => .error (ended 0x0520 which s)
  | none, some (ps, t) =>
    match t.reach ps true fun t => ((), t.writePieces (engineDie e) ps bs) with
    | (none, t) => .error (ended stalled 0 t)
    | (some _, t) => .ok t

/-- The content of the state area saved as the `k`-th. -/
def areaContent (k len : Nat) : Bytes := (List.range len).map (Config.areaByte k)

/-- The stream that a state area holds: the latest one saved with this content (R507). -/
def State.streamAt (s : State) (bs : Bytes) : Option Stream :=
  ((List.range s.areas.length).reverse.find? fun k => areaContent k bs.length == bs).bind fun k => s.areas[k]?

/-- The stream of a request: a new one with FIRST, else the one that its state area holds (R507). -/
def State.openStream (s : State) (e n op form level : Nat) (k : Blk) : Except Ended (Stream × State) :=
  if k.first then
    .ok ({ op := BitVec.ofNat 16 op, form := form, level := level, input := [], marks := [], written := 0 }, s)
  else if k.area = 0 then .error (ended 0x0528 0 s)
  else
    match s.engineRead e n k.area (areaLen op) 4 with
    | .error e => .error e
    | .ok (bs, t) =>
      match s.streamAt bs with
      | some x => if x.op = BitVec.ofNat 16 op ∧ x.form = form then .ok (x, t) else .error (ended 0x0528 0 s)
      | none => .error (ended 0x0528 0 s)

/-- Save a stream in its state area (R503, R507). -/
def State.saveStream (s : State) (e n : Nat) (k : Blk) (x : Stream) : Except Ended State :=
  (s.engineWrite e n k.area (areaContent s.areas.length (areaLen x.op.toNat)) 4).map fun t =>
    { t with areas := t.areas ++ [x] }

/-- COMPRESS (R509 to R513). -/
def State.runCompress (s : State) (e n : Nat) (k : Blk) : Except Ended Ended := do
  let (input, s) ← s.engineRead e n k.inAddr k.inLen 1
  let (x, s) ← s.openStream e n 0x0900 (bits k.mode 1 0) (bits k.mode 5 2) k
  let data := x.input ++ input
  let flush := bits k.mode 7 6
  let marks := if flush ≠ 0 ∧ !k.last then x.marks ++ [(data.length, flush)] else x.marks
  let out := (deflate x.form x.level data marks k.last).drop x.written
  let full := decide (k.outLen < out.length)
  let now := out.take k.outLen
  let s ← s.engineWrite e n k.outAddr now 2
  let x := { x with input := data, marks := marks, written := x.written + now.length }
  let s ← if k.area ≠ 0 ∧ (full ∨ !k.last) then s.saveStream e n k x else pure s
  pure { (ended (if full then 0x0523 else 0) 0 s) with
    used := k.inLen, written := now.length, check := checkValue x.form data, flags := b1 (k.last && !full) }

/-- DECOMPRESS (R514 to R520). -/
def State.runDecompress (s : State) (e n : Nat) (armed : Bool) (k : Blk) : Except Ended Ended := do
  let (input, s) ← s.engineRead e n k.inAddr k.inLen 1
  let (x, s) ← s.openStream e n 0x0901 (bits k.mode 1 0) 0 k
  let data := x.input ++ input
  let most := if armed then min (64 * k.inLen) k.outLen else k.outLen
  let r := inflate x.form data (x.written + most)
  let out := r.out.drop x.written
  let s ← s.engineWrite e n k.outAddr out 2
  let y := { x with input := data.take (max r.used x.input.length), written := x.written + out.length }
  let base : Ended :=
    { (ended 0 0 s) with used := r.used - x.input.length, written := out.length, check := checkValue x.form r.out,
                         flags := 2 * b1 armed }
  match r.halt with
  | .fin =>
    if r.check = 0 then pure { base with flags := base.flags + 5 }
    else pure { base with status := 0x0521, detail := r.check, flags := base.flags + 5 }
  | .more =>
    if !k.last ∧ k.area ≠ 0 then
      let s ← s.saveStream e n k y
      pure { base with state := s }
    else pure { base with status := 0x0524, detail := 8 }
  | .full =>
    if armed then pure { base with status := 0x0522 }
    else if k.area ≠ 0 then
      let s ← s.saveStream e n k y
      pure { base with status := 0x0523, state := s }
    else pure { base with status := 0x0523 }
  | .bad reason => pure { base with status := 0x0524, detail := reason }

/-- CIPHER (R521, R522). -/
def State.runCipher (s : State) (e n : Nat) (key : Bytes) (k : Blk) : Except Ended Ended := do
  let (input, s) ← s.engineRead e n k.inAddr k.inLen 1
  let (aux, s) ← s.engineRead e n k.auxAddr k.auxLen 3
  let decrypt := bitOf k.mode 8
  let finish (s : State) (out iv : Bytes) : Except Ended Ended := do
    let s ← s.engineWrite e n k.outAddr out 2
    pure { (ended 0 0 s) with used := k.inLen, written := out.length, nextIv := iv }
  if k.alg ≤ 2 then
    let iv := aux.take 12
    let aad := aux.drop 12
    if decrypt then
      let c := input.take (k.inLen - 16)
      if gcmTag key iv aad c = input.drop (k.inLen - 16) then finish s (gcmCtr key iv c) (zeros 16)
      else
        let s ← s.engineWrite e n k.outAddr (zeros k.outLen) 2
        pure { (ended 0x0525 0 s) with used := k.inLen }
    else
      let c := gcmCtr key iv input
      finish s (c ++ gcmTag key iv aad c) (zeros 16)
  else if k.alg ≤ 4 then finish s (xts decrypt key aux input (16 * bits k.mode 31 16)) (zeros 16)
  else
    let out := if decrypt then cbcDec key aux input else cbcEnc key aux input
    let c := if decrypt then input else out
    if c.isEmpty then
      let (a, s) := s.fresh
      let (b, s) := s.fresh
      finish s out (wordBytes a ++ wordBytes b)
    else finish s out (c.drop (c.length - 16))

/-- DIGEST (R521, R522). -/
def State.runDigest (s : State) (e n : Nat) (key : Bytes) (k : Blk) : Except Ended Ended := do
  let (input, s) ← s.engineRead e n k.inAddr k.inLen 1
  let (x, s) ← s.openStream e n 0x0911 k.alg 0 k
  let x := { x with input := x.input ++ input }
  if k.last then
    let h := if k.alg % 2 = 1 then sha256p else sha384p
    let out := if k.alg ≤ 2 then h.digest x.input else h.hmac key x.input
    let s ← s.engineWrite e n k.outAddr out 2
    pure { (ended 0 0 s) with used := k.inLen, written := out.length }
  else
    let s ← s.saveStream e n k x
    pure { (ended 0 0 s) with used := k.inLen }

/-- The parts of an RSA key (R525): n, e, p, q, dp, dq, qinv, for a modulus of `k` bytes. -/
def rsaParts (k : Nat) (b : Bytes) : List Nat :=
  numAt b 0 k :: numAt b k 8 :: (List.range 5).map fun i => numAt b (k + 8 + i * (k / 2)) (k / 2)

/-- RSA (R521, R522). A representative that is not below n has no result (RFC 8017): 0x0109 (log entry 35). -/
def State.runRsa (s : State) (e n : Nat) (key : Bytes) (k : Blk) : Except Ended Ended := do
  let (input, s) ← s.engineRead e n k.inAddr k.inLen 1
  let (aux, s) ← s.engineRead e n k.auxAddr (if k.alg = 2 then k.auxLen else 0) 3
  let x := beNat input
  let (modulus, y) := if k.alg = 2 then
      let m := numAt aux 0 k.rsaLen
      (m, rsaPublic m (numAt aux k.rsaLen 8) x)
    else
      match rsaParts k.rsaLen key with
      | [m, _, p, q, dp, dq, qinv] => (m, rsaPrivate p q dp dq qinv x)
      | _ => (0, 0)
  if modulus ≤ x then pure (ended 0x0109 0 s)
  else
    let s ← s.engineWrite e n k.outAddr (beBytes k.rsaLen y) 2
    pure { (ended 0 0 s) with used := k.inLen, written := k.rsaLen }

/-- `n` words from the entropy source (log entry 3). -/
def State.entropy : Nat → State → Bytes × State
  | 0, s => ([], s)
  | n + 1, s =>
    let (v, s) := s.fresh
    let (bs, s) := State.entropy n s
    (wordBytes v ++ bs, s)

/-- The DRBG of an engine, instantiated where it is not (R529). -/
def State.drbgOf (s : State) (e : Nat) : Drbg × State :=
  match (s.engine e).drbg with
  | some d => (d, s)
  | none =>
    let (bs, s) := State.entropy 6 s
    let (key, v) := drbgInstantiate (bs.take 32) (bs.drop 32) (beBytes 4 (engineCell e))
    let d : Drbg := { key := key, v := v, counter := 1 }
    (d, s.modEngine e fun x => { x with drbg := some d })

/-- One generate request (R529): a reseed first after 2^20 of them, or where prediction resistance is asked for. -/
def State.generate (s : State) (e n : Nat) (resist : Bool) : Bytes × State :=
  let (d, s) := s.drbgOf e
  let (d, s) := if resist ∨ 2 ^ 20 < d.counter then
      let (bs, s) := State.entropy 4 s
      let (key, v) := drbgReseed bs d.key d.v
      (({ key := key, v := v, counter := 1 } : Drbg), s)
    else (d, s)
  let (out, key, v) := drbgGenerate n d.key d.v
  (out, s.modEngine e fun x => { x with drbg := some { key := key, v := v, counter := d.counter + 1 } })

/-- ECDSA_SIGN (R522, R523). -/
def State.runSign (s : State) (e n : Nat) (key : Bytes) (k : Blk) : Except Ended Ended := do
  let (input, s) ← s.engineRead e n k.inAddr k.inLen 1
  let (extra, s) := s.generate e 32 (bitOf k.mode 8)
  let c := curveOf k.alg
  let s ← s.engineWrite e n k.outAddr (c.sign (beNat key) input extra) 2
  pure { (ended 0 0 s) with used := k.inLen, written := 2 * c.len }

/-- ECDSA_VERIFY (R522). -/
def State.runVerify (s : State) (e n : Nat) (k : Blk) : Except Ended Ended := do
  let (input, s) ← s.engineRead e n k.inAddr k.inLen 1
  let (aux, s) ← s.engineRead e n k.auxAddr k.auxLen 3
  let c := curveOf k.alg
  let d := k.inLen - 2 * c.len
  let ok := c.verify (numAt aux 0 c.len) (numAt aux c.len c.len) (input.take d) (numAt input d c.len)
    (numAt input (d + c.len) c.len)
  pure { (ended (if ok then 0 else 0x0526) 0 s) with used := k.inLen }

/-- RANDOM (R529). -/
def State.runRandom (s : State) (e n : Nat) (k : Blk) : Except Ended Ended := do
  let (out, s) := s.generate e k.outLen (bitOf k.mode 8)
  let s ← s.engineWrite e n k.outAddr out 2
  pure { (ended 0 0 s) with written := k.outLen }

/-- Key material passes its consistency check (R526). -/
def keyOk (k : Blk) (b : Bytes) : Bool :=
  match k.alg with
  | 7 =>
    match rsaParts k.rsaLen b with
    | [n, _, p, q, _, _, _] => p * q == n
    | _ => false
  | 8 => decide (1 ≤ beNat b ∧ beNat b < p256.n)
  | 9 => decide (1 ≤ beNat b ∧ beNat b < p384.n)
  | _ => true

/-- Fill the lowest free slot (R525). -/
def State.fillSlot (s : State) (e n type : Nat) (b : Bytes) : Except Ended (Nat × State) :=
  match s.freeSlot e type with
  | none => .error (ended 0x0450 0 s)
  | some i =>
    .ok (i, s.modEngine e fun x => { x with slots := tabPut none x.slots i (some { part := n, type := type, bytes := b }) })

/-- KEY_LOAD (R525, R526). -/
def State.runKeyLoad (s : State) (e n : Nat) (k : Blk) : Except Ended Ended := do
  let (b, s) ← s.engineRead e n k.auxAddr k.auxLen 3
  if !keyOk k b then pure (ended 0x0529 0 s)
  else
    let (i, s) ← s.fillSlot e n k.alg b
    pure { (ended 0 0 s) with check := i }

/-- KEY_GEN (R526): a scalar of an EC key is taken from 8 bytes more than it has (log entry 36). -/
def State.runKeyGen (s : State) (e n : Nat) (k : Blk) : Except Ended Ended := do
  let resist := bitOf k.mode 8
  if 8 ≤ k.alg then
    let c := curveOf (k.alg - 7)
    let (bs, s) := s.generate e (c.len + 8) resist
    let d := beNat bs % (c.n - 1) + 1
    let s ← s.engineWrite e n k.outAddr (c.pointBytes (c.mul d c.base)) 2
    let (i, s) ← s.fillSlot e n k.alg (beBytes c.len d)
    pure { (ended 0 0 s) with check := i, written := 2 * c.len }
  else
    let len := [16, 32, 32, 64, 32, 48].getD (k.alg - 1) 0
    let (bs, s) := s.generate e len resist
    let (i, s) ← s.fillSlot e n k.alg bs
    pure { (ended 0 0 s) with check := i }

/-- Execute a request. -/
def State.runRequest (s : State) (e : Nat) (q : EngReq) : Ended :=
  let k := blkOf q.block
  let key := ((s.keySlot e k.slot).map KeySlot.bytes).getD []
  let dead := (s.engine e).entropyDead
  let r : Except Ended Ended :=
    match q.op.toNat with
    | 0x0900 => s.runCompress e q.part k
    | 0x0901 => s.runDecompress e q.part q.armed k
    | 0x0910 => s.runCipher e q.part key k
    | 0x0911 => s.runDigest e q.part key k
    | 0x0912 => s.runRsa e q.part key k
    | 0x0913 => if dead then .error (ended 0x0527 0 s) else s.runSign e q.part key k
    | 0x0914 => s.runVerify e q.part k
    | 0x0915 => if dead then .error (ended 0x0527 0 s) else s.runRandom e q.part k
    | 0x0918 => s.runKeyLoad e q.part k
    | 0x0919 => if dead then .error (ended 0x0527 0 s) else s.runKeyGen e q.part k
    | _ => .ok (ended 0 0 (s.modEngine e fun x => { x with slots := tabPut none x.slots k.slot none }))
  match r with
  | .ok x => x
  | .error x => x

/-- A request of an engine ends with its results (R497, R534), and the partition's next one starts (R519). -/
def State.finishRequest (s : State) (e : Nat) (q : EngReq) (x : Ended) : State :=
  let checkBad := decide (x.status = 0x0521 ∨ x.status = 0x0525)
  let s := s.modEngine e fun y =>
    { y with
      queue := y.queue.erase q
      requests := satAdd y.requests 1
      checkSeen := y.checkSeen || checkBad
      checkFails := if checkBad then satAdd y.checkFails 1 else y.checkFails
      limitSeen := y.limitSeen || x.status == 0x0522
      limitStops := if x.status = 0x0522 then satAdd y.limitStops 1 else y.limitStops
      addressSeen := y.addressSeen || x.status == 0x0520 }
  let starts := s.limitNow e
  let s := match (s.engine e).queue.find? fun p => p.part == q.part with
    | some p => s.modEngine e fun y =>
        { y with queue := y.queue.replace p { p with armed := starts p.block } }
    | none => s
  (s.complete q.who x.status x.detail x.results).touchCell (engineCell e)

/-- ENGINE_COMPLETION (R497, R499, R500, R501): the request whose turn it is completes; a thermal trip has stopped the
clock (R654). One that must wait for memory stays. -/
def execEngineCompletion (e : Fin 8) (s : State) : Host.Outcome State Fault Refusal :=
  .next (if (s.cst (engineCell e) = .running ∨ s.cst (engineCell e) = .draining) ∧ !s.pins.thermtrip then
    match s.nextRequest e with
    | (some q, t) =>
      let x := t.runRequest e q
      if x.status = stalled then { s with cells := x.state.cells } else x.state.finishRequest e q x
    | (none, _) => s
  else s)

/-- ENTROPY_TEST_FAIL (R530). -/
def execEntropyTestFail (e : Fin 4) (s : State) : Host.Outcome State Fault Refusal :=
  .next ((s.modEngine (4 + e.val) fun x => { x with entropyFail := true, entropyDead := true }).reportCell (cellNo 8 e) 2)

/-- An engine fails (R502): every outstanding request completes with 0x0503, and the key slots are cleared. -/
def State.failEngine (s : State) (e : Nat) : State :=
  let q := (s.engine e).queue
  let s := s.modEngine e fun x =>
    { x with queue := [], slots := [], drr := ⟨[], [], []⟩, drrPk := ⟨[], [], []⟩, requests := satAdd x.requests q.length }
  q.foldl (fun s q => s.complete q.who 0x0503 0 (ended 0x0503 0 s).results) s

/-- START of an engine (R519, R529). -/
def State.startEngine (s : State) (e : Nat) : State :=
  let s := if 4 ≤ e then (s.drbgOf e).2 else s
  let live := (List.range 4).any fun k => (s.rep (reporterOf (engineCell e) k)).active
  s.modEngine e fun x => { x with recovery := (x.afterFault || x.recovery) && live, afterFault := false }

/-- RESET of an engine (R527, R530). -/
def State.resetEngine (s : State) (e : Nat) (faulted : Bool) : State :=
  s.modEngine e fun x =>
    { x with slots := [], entropyFail := false, entropyDead := false, afterFault := x.afterFault || faulted || x.recovery, recovery := false,
             test := false }

end Sys2Proof.Machine
end

