-- ==== Sys2Proof/Machine/Vixia.lean ====
section
/-! DEFINITION. Vixia (chapter 16): sensors, logs, images and the boot ROM, measurement, update, and its opcodes. -/

namespace Sys2Proof.Machine

/-! ### Sensors (R619 to R622, R654) -/

/-- The hysteresis of a sensor (R619). -/
def hysteresis (src : Nat) : Int := if src < 0x980 then 2000 else if src < 0x998 then 10 else if src < 0x9B0 then 500 else 20000

/-- A sensor records a KIND with the reading that caused it (R620, R621, R623). -/
def State.sensorItem (s : State) (src kind : Nat) (reading : BitVec 32) : State :=
  let payload := kind * 2 ^ 40 + reading.toNat
  (s.event src payload).log 2 0xFF src 0 (BitVec.ofNat 64 payload)

/-- What a sample makes of a sensor: KIND 1, 2 or 3, or 0 for nothing (R620). -/
def Sensor.judge (x : Sensor) (hyst r : Int) : Nat :=
  if !x.above ∧ !x.below then
    if x.high.toInt < r then 1 else if r < x.low.toInt then 2 else 0
  else if r ≤ x.high.toInt - hyst ∧ x.low.toInt + hyst ≤ r then 3
  else 0

/-- A sensor takes a KIND. One that is sampled again has not failed: DESIGN CHOICE (log entry 109). -/
def State.setCrossing (s : State) (src kind : Nat) (reading : BitVec 32) : State :=
  let s := s.modSensor src fun x =>
    { x with reading := reading, invalid := false, above := if kind = 0 then x.above else kind == 1,
             below := if kind = 0 then x.below else kind == 2, crossed := x.crossed || kind == 1 || kind == 2 }
  if kind = 0 then s else s.sensorItem src kind reading

/-- SENSOR_SAMPLE (R619 to R622, R654): the package power is sampled by PACKAGE_POWER_CHECK. -/
def execSensorSample (source : SourceId) (reading : BitVec 32) (s : State) : Host.Outcome State Fault Refusal :=
  let src := source.val
  .next (if !isSensor src ∨ src = 0x9B0 ∨ !s.pins.pwrOk then s
    else
      let kind := (s.sensor src).judge (hysteresis src) reading.toInt
      let s := s.setCrossing src kind reading
      let s := if kind = 1 ∧ src < 0x980 then s.report 0x1A7 else s
      if src < 0x980 ∧ 115000 ≤ reading.toInt then (s.modPins fun p => { p with thermtrip := true }).report 0x1A8 else s)

/-- The average of the latest `n` samples, the newest first (R32). It is rounded down before it is compared: DESIGN CHOICE (log
entry 93). -/
def average (n : Nat) (l : List Nat) : Nat := (l.take n).foldl (· + ·) 0 / max 1 (min n l.length)

/-- PACKAGE_POWER_CHECK (R32, R622): `mw` is the package power of this 100 µs. -/
def execPackagePowerCheck (mw : BitVec 32) (s : State) : Host.Outcome State Fault Refusal :=
  .next (if !s.pins.pwrOk then s
    else
      let l := (mw.toNat :: s.vixia.power).take 10000
      let s := s.modVixia fun v => { v with power := l }
      let fast := average 100 l
      let slow := average 10000 l
      let x := s.sensor 0x9B0
      let kind := if !x.above then (if 2400000 < fast ∨ 2100000 < slow then 1 else 0)
        else if fast ≤ 2400000 - 20000 ∧ slow ≤ 2100000 - 20000 then 3 else 0
      let s := s.setCrossing 0x9B0 kind mw
      if kind = 1 then s.report 0x1A6 else s)

/-! ### Logs (R623 to R625) -/

/-- A record as its 32 bytes (R623). -/
def LogRec.bytes (r : LogRec) : Bytes :=
  let b := wordBytes r.tb ++ beBytes 4 r.seq.toNat ++ [r.kind, r.level] ++ beBytes 2 r.code.toNat ++
    beBytes 4 r.cell.toNat ++ wordBytes r.data
  b ++ beBytes 4 (crc32c b)

/-- The records that the persistent log holds: a flash of 64 MiB from 0x212_0000 (R624, R628; log entry 43). -/
def logCapacity : Nat := 1011712

/-- PERSISTENT_LOG_WRITE (R624, R625): an EPOCH takes effect with its record; what it has increased while it could not be recorded is
recorded then, and one KIND 7 record follows dropped ones. -/
def execPersistentLogWrite (s : State) : Host.Outcome State Fault Refusal :=
  .next (if !s.vixia.up then s
    else
      let v := s.vixia
      let l := v.persistent ++ v.buffer
      let l := if logCapacity < l.length then l.drop 2048 else l
      let epoch := (v.buffer.filter fun r => r.kind == 6).foldl (fun n r => max n r.data.toNat) s.bundle.epoch.toNat
      let s := (s.modVixia fun v => { v with persistent := l, buffer := [], droppedDue := 0, epochDue := 0 }).modBundle fun b =>
        { b with epoch := BitVec.ofNat 64 epoch }
      let s := if v.epochDue = 0 then s else s.log 6 0xFF 0 0 (BitVec.ofNat 64 (epoch + v.epochDue))
      if v.droppedDue = 0 then s else s.log 7 0xFF 0 0 (BitVec.ofNat 64 v.droppedDue))

/-! ### Images (R628 to R630) -/

/-- MGF1 with SHA-256. -/
def mgf1 (seed : Bytes) (n : Nat) : Bytes :=
  ((List.range ((n + 31) / 32)).flatMap fun i => sha256 (seed ++ beBytes 4 i)).take n

/-- RSASSA-PSS of 3,072 bits with SHA-256, MGF1 and a salt of 32 bytes verifies (R629). -/
def pssVerify (n e : Nat) (msg sig : Bytes) : Bool :=
  let em := beBytes 384 (powMod (beNat sig) e n)
  let h := slice em 351 32
  let db := xorBytes (em.take 351) (mgf1 h 351)
  let db := (db.getD 0 0 &&& 0x7F) :: db.drop 1
  decide (beNat sig < n) && em.getD 383 0 == 0xBC && (em.getD 0 0).getLsbD 7 == false &&
    allZero (db.take 318) && db.getD 318 0 == 1 &&
    h == sha256 (zeros 8 ++ sha256 msg ++ db.drop 319)

/-- The fields of an image header. -/
def imgVersion (b : Bytes) : Nat := numAt b 12 4
def imgSvn (b : Bytes) : Nat := numAt b 8 1
def imgBody (b : Bytes) : Bytes := slice b 1024 (numAt b 16 4)

/-- MAGIC, FORMAT, KIND, the ranges and the reserved fields of R629. -/
def imgFields (kind : Nat) (b : Bytes) : Bool :=
  decide (1024 ≤ b.length) && numAt b 0 4 == 0x5A474931 && numAt b 4 2 == 1 && numAt b 6 1 == kind &&
    decide (numAt b 7 1 ≤ 3 ∧ imgSvn b ≤ 64 ∧ 1024 + numAt b 16 4 ≤ b.length) &&
    (kind != 1 || decide (numAt b 16 4 ≤ 2 ^ 22)) &&
    allZero (slice b 9 3 ++ slice b 20 12 ++ slice b 420 60 ++ slice b 864 160)

/-- KEY_N followed by KEY_E. -/
def imgKey (b : Bytes) : Bytes := slice b 32 388

/-- SIGNATURE verifies over header bytes 0 to 479 and the body. -/
def imgSigned (b : Bytes) : Bool :=
  pssVerify (numAt b 32 384) (numAt b 416 4) (b.take 480 ++ imgBody b) (slice b 480 384)

/-- The first check of R629 that an image fails, 0 where it is valid. -/
def State.imageFault (s : State) (kind : Nat) (b : Bytes) : Nat :=
  let key := numAt b 7 1
  if !imgFields kind b then 1
  else if s.vixia.fuses.revoked.getLsbD key then 2
  else if sha256 (imgKey b) ≠ Config.fuseKeyHash key then 3
  else if !imgSigned b then 4
  else if imgSvn b < s.vixia.fuses.svn then 5
  else 0

/-- The key of an image in the flash: slot A, then slot B. -/
def slotKey (slot : Bool) (kind : Nat) : Nat := kind + 10 * b1 slot

/-- An image of a slot. -/
def State.image (s : State) (slot : Bool) (kind : Nat) : Bytes := tabGet [] s.vixia.slots (slotKey slot kind)

/-- The stage-1 image that runs in SRAM, and the firmware version that it gives the module (R580, R631). -/
def State.stage1Image (s : State) : Bytes := tabGet [] s.vixia.slots 0

/-- An image is refused (R629): a KIND 5 record with the reason, whose DATA names the image by its KIND (R635; log entry 132). -/
def State.refuseImage (s : State) (kind reason : Nat) : State :=
  (s.modVixia fun v => { v with imageRefused := true }).log 5 0xFF reason 0 (BitVec.ofNat 64 kind)

/-! ### The boot record and the boot ROM (R631) -/

/-- The copy in force: the valid one with the higher GEN, else PREFER A with TRIAL 0. -/
def Vixia.record (v : Vixia) : BootRec :=
  if v.rec0.valid ∧ (!v.rec1.valid ∨ v.rec1.gen.toNat ≤ v.rec0.gen.toNat) then v.rec0
  else if v.rec1.valid then v.rec1
  else { valid := true, gen := 0, prefer := false, trial := false, tries := 0 }

/-- Write a changed record to the copy with the lower GEN, with GEN one higher. -/
def Vixia.writeRecord (v : Vixia) (f : BootRec → BootRec) : Vixia :=
  let r := v.record
  let new := { f r with valid := true, gen := r.gen + 1 }
  if v.rec0.valid ∧ (!v.rec1.valid ∨ v.rec1.gen.toNat ≤ v.rec0.gen.toNat) then { v with rec1 := new }
  else { v with rec0 := new }

/-- The private half of the identity key in Vixia's SRAM, which the boot ROM has unwrapped (R634): no command returns it. -/
def Vixia.identityKey (v : Vixia) : Option Bytes :=
  if v.unwrapped then some (Config.aesUnwrap Config.fuseWrapKey Config.wrappedIdentity) else none

/-- Stage-1 starts from an image in SRAM. At power-up SEQ and EPOCH continue from the persistent log (R624, R625). -/
def State.startStage1 (s : State) (img : Bytes) (slot trial : Bool) : State :=
  let log := s.vixia.persistent
  let seq := log.foldl (fun n r => max n (r.seq.toNat + 1)) 0
  let epoch := (log.filter fun r => r.kind == 6).foldl (fun n r => max n r.data.toNat) 0
  let first := s.vixia.bootStep == 0 && s.vixia.nextSeq == 0
  let s := s.modVixia fun v =>
    { v with up := true, unwrapped := true, slot := slot, trial := trial, slots := tabPut [] v.slots 0 img,
             nextSeq := if first then BitVec.ofNat 32 seq else v.nextSeq }
  if first then s.modBundle fun b => { b with epoch := BitVec.ofNat 64 epoch } else s

/-- Step 2 of R631: a trial that has been tried is reverted, one that has not is counted. -/
def Vixia.tryTrial (v : Vixia) : Vixia :=
  let r := v.record
  if r.trial ∧ r.tries = 1 then
    { v.writeRecord fun r => { r with prefer := !r.prefer, trial := false } with rollbackSeen := true }
  else if r.trial then v.writeRecord fun r => { r with tries := 1 }
  else v

/-- The boot ROM's choice (R631): the preferred slot, else the other, else recovery. -/
def State.bootRom (s : State) : State :=
  let s := s.modVixia Vixia.tryTrial
  let r := s.vixia.record
  let f1 := s.imageFault 1 (s.image r.prefer 1)
  let f2 := s.imageFault 1 (s.image (!r.prefer) 1)
  if f1 = 0 then s.startStage1 (s.image r.prefer 1) r.prefer r.trial
  else if f2 = 0 then (s.startStage1 (s.image (!r.prefer) 1) (!r.prefer) false).refuseImage 1 f1
  else (s.modVixia fun v => { v with recovery := true, imageRefused := true }).report 0x1A3

/-- BOOT_ROM_START (R631): Vixia executes the boot ROM while no stage-1 runs. -/
def execBootRomStart (s : State) : Host.Outcome State Fault Refusal :=
  .next (if s.pins.pwrOk ∧ !s.vixia.up ∧ !s.vixia.recovery ∧ s.cst cellVixia ≠ .faulted then s.bootRom else s)

/-- RECOVERY_IMAGE (R631): a 4-byte length, then the image. -/
def execRecoveryImage (bytes : Bytes) (s : State) : Host.Outcome State Fault Refusal :=
  let img := slice bytes 4 (numAt bytes 0 4)
  .next (if s.pins.pwrOk ∧ s.vixia.recovery ∧ !s.vixia.up then
    if s.imageFault 1 img = 0 then s.startStage1 img s.vixia.record.prefer false
    else s.modVixia fun v => { v with imageRefused := true }
  else s)

/-! ### Measurement (R633) -/

/-- A measurement as MEASURE_READ gives it (R640). -/
def measureRec (index kind version svn : Nat) (digest : Bytes) : Bytes :=
  [BitVec.ofNat 8 index, BitVec.ofNat 8 kind, 0, 0] ++ beBytes 4 version ++ [BitVec.ofNat 8 svn] ++ zeros 7 ++ digest

/-- The measurement of an image. -/
def measureImage (index kind : Nat) (b : Bytes) : Bytes := measureRec index kind (imgVersion b) (imgSvn b) (sha256 b)

/-- The measurement of an object that is no image. -/
def measureBare (index : Nat) (digest : Bytes) : Bytes :=
  let h := Config.bareMeasure index
  measureRec index h.1 h.2.1 h.2.2 digest

def Vixia.measure (v : Vixia) (index : Nat) (r : Bytes) : Vixia := { v with measured := tabPut [] v.measured index r }

/-- Indices 1, 2 and 5 to 8 (R637). The layouts of the objects 5 and 8 are left open (log entry 44). -/
def State.measureBoot (s : State) : State :=
  let v := s.vixia
  let fuses := Config.fuseObject v.fuses.revoked v.fuses.svn v.fuses.debugDisabled
  let run := Config.runObject v.slot v.trial v.recovery
  s.modVixia fun v =>
    (((((v.measure 1 (measureBare 1 Config.bootRomDigest)).measure 2 (measureImage 2 1 s.stage1Image)).measure 5
      (measureBare 5 (sha256 fuses))).measure 6 (measureImage 6 4 (s.image v.slot 4))).measure 7
      (measureImage 7 5 (s.image v.slot 5))).measure 8 (measureBare 8 (sha256 run))

/-- Indices 3 and 4, as the images are used. -/
def State.measureSlot (s : State) (index kind : Nat) : State :=
  s.modVixia fun v => v.measure index (measureImage index kind (s.image v.slot kind))

/-- The measurement log of R633, 48 bytes for each index; zeros where none has been taken. -/
def Vixia.measurements (v : Vixia) : Bytes :=
  (List.range 8).flatMap fun i => padTo 48 (tabGet [] v.measured (i + 1))

/-- Stage-1's other images are all valid (R632); the KIND of the first that is not, with its reason. -/
def State.slotFaultOf (s : State) (slot : Bool) (kinds : List Nat) : Option (Nat × Nat) :=
  kinds.findSome? fun k =>
    let f := s.imageFault k (s.image slot k)
    if f = 0 then none else some (k, f)

/-! ### MCTP (R627, R633) -/

/-- MCTP_MESSAGE (R627): Vixia answers while it runs. -/
def execMctpMessage (kind : BitVec 8) (body : Bytes) (s : State) : Host.Outcome State Fault Refusal :=
  .next (if s.vixia.up then s.modVixia fun v => { v with answers := v.answers ++ [Config.mctpAnswer kind body] } else s)

/-- GET_MEASUREMENTS (R633): index 0 asks for their number, 0xFF for all of them (log entry 45). -/
def execGetMeasurements (index : BitVec 8) (s : State) : Host.Outcome State Fault Refusal :=
  .next (if s.vixia.up then
    let all := s.vixia.measurements
    let a : Bytes := if index = 0 then [8] else if index = 0xFF then all
      else if index.toNat ≤ 8 then slice all (48 * (index.toNat - 1)) 48 else []
    s.modVixia fun v => { v with answers := v.answers ++ [a] }
  else s)

/-! ### Update (R635, R636) -/

/-- PLDM_UPDATE_COMPONENT (R635): a component goes into the slot that does not run; one of KIND 6 is kept apart. -/
def execPldmUpdateComponent (kind : BitVec 8) (image : Bytes) (s : State) : Host.Outcome State Fault Refusal :=
  let k := kind.toNat
  .next (if s.vixia.up ∧ 1 ≤ k ∧ k ≤ 6 then
    let s := s.modVixia fun v =>
      if k = 6 then { v with order := some image }
      else { v with slots := tabPut [] v.slots (slotKey (!v.slot) k) image, updated := insertNat v.updated k }
    s.log 4 0xFF k 0 (pack [(32, imgVersion image), (0, imgSvn image)])
  else s)

/-- The components that the package did not carry are copied from the running slot. -/
def Vixia.completeSlot (v : Vixia) : Vixia :=
  ([1, 2, 3, 4, 5].filter fun k => !v.updated.contains k).foldl (fun v k =>
    { v with slots := tabPut [] v.slots (slotKey (!v.slot) k) (tabGet [] v.slots (slotKey v.slot k)) }) v

/-- Apply a revocation order (R630): signed with another slot's key, and leaving a slot unrevoked. -/
def State.applyOrder (s : State) (b : Bytes) : State :=
  let k := numAt (imgBody b) 0 1
  let f := s.imageFault 6 b
  let new := s.vixia.fuses.revoked ||| BitVec.ofNat 4 (2 ^ k)
  if f ≠ 0 then s.refuseImage 6 f
  else if (imgBody b).length = 1 ∧ k ≤ 3 ∧ k ≠ numAt b 7 1 ∧ new ≠ 15#4 then
    s.modVixia fun v => { v with fuses := { v.fuses with revoked := new } }
  else s

/-- UPDATE_ACTIVATE (R635). -/
def execUpdateActivate (s : State) : Host.Outcome State Fault Refusal :=
  .next (if s.vixia.up ∧ (!s.vixia.updated.isEmpty ∨ s.vixia.order.isSome) then
    let s := s.modVixia Vixia.completeSlot
    let other := !s.vixia.slot
    let order := s.vixia.order
    let fault := s.slotFaultOf other [1, 2, 3, 4, 5]
    let s1 := s.modVixia fun v =>
      { v with updated := [], order := none, answers := v.answers ++ [Config.activateAnswer fault.isNone] }
    match fault with
    | some (k, f) => s1.refuseImage k f
    | none =>
      let s := s1.modVixia fun v => v.writeRecord fun r => { r with prefer := other, trial := true, tries := 0 }
      match order with
      | some b => s.applyOrder b
      | none => s
  else s)

/-- The opcodes of R640 are for Vixia's cell. -/
def onVixia (_ : State) (c : Nat) : Bool := c == cellVixia

/-- UPDATE_COMMIT (R636, R640). -/
def opUpdateCommit : Op where
  code := 0x0D04
  len := exactly 1
  on := onVixia
  classes := mgr
  run r s :=
    let bad := badWord (r.word 0) 1
    if bad ≠ 0 then refuse bad 0 s
    else if s.vixia.commit.isSome then refuse 0x0204 0 s
    else
      accepted (s.modVixia fun v =>
        { v.writeRecord fun r => { r with trial := false } with
          trial := false, commit := some (bitOf (r.word 0) 0, r.who) })

/-- UPDATE_COMMIT (R636). -/
def execUpdateCommit (pk : Pkt) (s : State) : Host.Outcome State Fault Refusal := .next (submit opUpdateCommit pk s)

/-- UPDATE_COMMIT_COMPLETE (R636): the fuses are blown up to the lowest SVN of the running slot. -/
def execUpdateCommitComplete (s : State) : Host.Outcome State Fault Refusal :=
  .next (match s.vixia.commit with
  | some (blow, who) =>
    let low := ([1, 2, 3, 4, 5].map fun k => imgSvn (s.image s.vixia.slot k)).foldl min 64
    let s := s.modVixia fun v =>
      { v with commit := none, fuses := if blow then { v.fuses with svn := max v.fuses.svn low } else v.fuses }
    s.complete who 0 0 []
  | none => s)

/-! ### The other opcodes of R640 -/

/-- SENSOR_SET (R640, R641). -/
def opSensorSet : Op where
  code := 0x0D00
  len := exactly 2
  on := onVixia
  classes := mgr
  run r s :=
    let w := r.word 0
    let bad := badWord w 0xFFF
    let src := bits w 11 0
    if bad ≠ 0 then refuse bad 0 s
    else if !isSensor src then refuse 0x0109 0 s
    else if src = 0x9B0 then refuse 0x02D1 src s
    else
      done (s.modSensor src fun x =>
        { x with nextThr := some ((r.word 1).setWidth 32, (r.word 1 >>> 32).setWidth 32) })

/-- SENSOR_SET (R640). -/
def execSensorSet (pk : Pkt) (s : State) : Host.Outcome State Fault Refusal := .next (submit opSensorSet pk s)

/-- LOG_READ (R640). -/
def opLogRead : Op where
  code := 0x0D01
  len := exactly 1
  on := onVixia
  classes := mgr
  run r s :=
    let w := r.word 0
    let bad := badWord w 0x1FFFFFFFF
    let first := bits w 31 0
    let log := if bitOf w 32 then s.vixia.persistent else s.vixia.ringLog
    let l := (log.filter fun r => decide (first ≤ r.seq.toNat)).take 126
    let next := match l.getLast? with
      | some r => (r.seq + 1).toNat
      | none => first
    if bad ≠ 0 then refuse bad 0 s
    else doneWith (beBytes 4 next ++ beBytes 4 l.length ++ l.flatMap LogRec.bytes) s

/-- LOG_READ (R640). -/
def execLogRead (pk : Pkt) (s : State) : Host.Outcome State Fault Refusal := .next (submit opLogRead pk s)

/-- TB_LOAD (R17, R640). A value below the present timebase is loaded too, though R19 lets the timebase never decrease: R17
makes no exception for the one load: DESIGN CHOICE (log entry 114). -/
def opTbLoad : Op where
  code := 0x0D02
  len := exactly 1
  on := onVixia
  classes _ := [2]
  run r s :=
    if (r.word 0).toNat % 10 ≠ 0 then refuse 0x0109 0 s
    else if s.clock.tbLoaded ∨ s.step5Begun then refuse 0x0207 0 s
    else done { s with clock := { s.clock with tb := r.word 0, tbLoaded := true } }

/-- TB_LOAD (R17). -/
def execTbLoad (pk : Pkt) (s : State) : Host.Outcome State Fault Refusal := .next (submit opTbLoad pk s)

/-- HBCLK_SELECT (R23, R640, R641): whether HBCLK is within its tolerance is an open value (log entry 46). -/
def opHbclkSelect : Op where
  code := 0x0D03
  len := exactly 1
  on := onVixia
  classes := mgr
  run r s :=
    let bad := badWord (r.word 0) 1
    if bad ≠ 0 then refuse bad 0 s
    else if !bitOf (r.word 0) 0 ∨ !s.clock.backup then done s
    else
      let (v, s) := s.fresh
      if bitOf v 0 then refuse 0x02D0 0 s else done { s with clock := { s.clock with backup := false } }

/-- HBCLK_SELECT (R23). -/
def execHbclkSelect (pk : Pkt) (s : State) : Host.Outcome State Fault Refusal := .next (submit opHbclkSelect pk s)

/-- MEASURE_READ (R633, R640). -/
def opMeasureRead : Op where
  code := 0x0D05
  len := exactly 0
  on := onVixia
  classes := mgr
  run _ s := doneWith s.vixia.measurements s

/-- MEASURE_READ (R640). -/
def execMeasureRead (pk : Pkt) (s : State) : Host.Outcome State Fault Refusal := .next (submit opMeasureRead pk s)

end Sys2Proof.Machine
end

