-- ==== Sys2Proof/Machine/Bundle.lean ====
section
/-! DEFINITION. The bundle membership (chapter 14): manifests, admission, the shared timebase, fencing, failure and the
bundle opcodes. -/

namespace Sys2Proof.Machine

/-- LIVENESS_T in ticks (R572). -/
def cfgLiveness (c : Bytes) : Nat := 100 * numAt c 10 2

/-- TRUST_MGR (R572, R578). -/
def State.trustMgr (s : State) : Bool := (s.bundleCfg.getD 12 0).getLsbD 0

/-- CSTATE with 3 for ASLEEP (R337, R580). -/
def CState.code : CState → Nat
  | .stopped => 0 | .running => 1 | .draining => 2 | .asleep => 3 | .faulted => 4

/-- The state of a code. -/
def stateOf : Nat → CState
  | 0 => .stopped | 1 => .running | 2 => .draining | 3 => .asleep | _ => .faulted

/-- The fields of a manifest (R580). -/
def manDigest (b : Bytes) : Bytes := slice b 16 32
def manMajor (b : Bytes) : Nat := numAt b 48 1
def manMinor (b : Bytes) : Nat := numAt b 49 1
def manOffset (b : Bytes) : Int := toSigned 64 (numAt b 56 8)

/-- The fields other than TB_OFFSET of a manifest, and of the parent's that may follow it. -/
def manFixed (b : Bytes) : Bytes := b.take 56 ++ slice b 64 72 ++ b.drop 144

/-- A manifest from its fields (R580); `version` is the 4 bytes MAJOR, MINOR, PATCH. -/
def manifestOf (identity epoch : Word) (digest : Bytes) (version state : Nat) (offset : Int) (mirror : Word) : Bytes :=
  wordBytes identity ++ wordBytes epoch ++ digest ++ beBytes 4 version ++ [BitVec.ofNat 8 state] ++ zeros 3 ++
    wordBytes (BitVec.ofInt 64 offset) ++ wordBytes mirror ++ zeros 8

/-- The configuration digest (R573). -/
def State.bundleDigest (s : State) : Bytes := sha256 s.bundleCfg

/-- This module's manifest (R580). Its STATE is that of the module cell, which represents the module in its bundle (R41). -/
def State.ownManifest (s : State) : Bytes :=
  manifestOf s.vixia.fuses.serial s.bundle.epoch s.bundleDigest (imgVersion s.stage1Image)
    (s.showSt cellModule).code s.bundle.offset (match s.io.copyOf with
    | some c => c.home
    | none => 0)

/-- The members admitted and not declared failed. -/
def State.admittedMembers (s : State) : List Nat :=
  (List.range (cfgMembers s.bundleCfg)).filter fun m => (s.member m).admitted && !(s.member m).failed

/-- The coordinator: the admitted member with the lowest index (R581). -/
def State.coordinatorOf (s : State) : Option Nat := s.admittedMembers.head?

/-- The state of a member as the bundle counts it (R42): a member that is fenced, failed or not admitted is FAULTED (R571; for
the last two log entry 88). -/
def State.memberSt (s : State) (m : Nat) : CState :=
  let x := s.member m
  if !x.admitted ∨ x.failed ∨ x.fence ≠ 0 then .faulted
  else if m = s.bundle.index then s.showSt cellModule
  else stateOf (numAt (x.manifest.getD []) 52 1)

/-- The members of the module's bundle, and the state that the bundle derives from them (R41, R42). -/
def State.bundleMembers (s : State) : List Nat := List.range (cfgMembers s.bundleCfg)
def State.bundleSt (s : State) : CState := groupSt false (s.bundleMembers.map s.memberSt)

/-- The manifest that a coordinator presents to the parent (R581). -/
def State.parentManifest (s : State) : Bytes :=
  let low := (s.admittedMembers.map fun m => numAt ((s.member m).manifest.getD []) 48 4).foldl min (imgVersion s.stage1Image)
  manifestOf (wordAt s.bundleCfg 0) s.bundle.epoch (slice' s.bundleCfg 152 32) low s.bundleSt.code s.bundle.offset 0
where
  slice' (b : Bytes) (o n : Nat) : Bytes := (b.drop o).take n

/-! ### Events (R589) -/

/-- Record what has changed of the members since `old` (R589). -/
def State.bundleEvents (s old : State) : State :=
  let s := (List.range (cfgMembers s.bundleCfg)).foldl (fun s m =>
    match s.bundleItem (0x9E0 + m) with
    | some p => if old.bundleItem (0x9E0 + m) = some p then s else s.event (0x9E0 + m) p
    | none => s) s
  match s.bundleItem 0x9F0 with
  | some p => if old.bundle.bstate = s.bundle.bstate then s else s.event 0x9F0 p
  | none => s

/-! ### Fencing (R585, R586, R588) -/

/-- Mirroring in which a fenced or failed member takes part stops (R409, R586). -/
def State.stopMirror (s : State) (m : Nat) : State :=
  s.modIo fun i =>
    { i with
      mirror := i.mirror.map fun x =>
        if m = s.bundle.index ∨ (x.partner.headD 0).toNat = m then { x with on := false, sent := none, held := [] } else x
      copyOf := if m = s.bundle.index then none else i.copyOf }

/-- BSTATE of this module follows its admission and its fences. -/
def State.ownState (s : State) : State :=
  let me := s.member s.bundle.index
  s.modBundle fun b =>
    { b with fenceWhy := me.fence, fenceSeen := b.fenceSeen || me.fence != 0,
             bstate := if me.fence ≠ 0 then .fenced else if me.admitted then .member else b.bstate }

/-- Set or clear a fence reason of a member (R593: 0 time, 1 mirror role, 2 FENCE, 3 returned or no quorum). -/
def State.setFence (s : State) (m bit : Nat) (on : Bool) : State :=
  let f := BitVec.ofNat 4 (2 ^ bit)
  let s := s.modMember m fun x => { x with fence := if on then x.fence ||| f else x.fence &&& ~~~f }
  let s := if m = s.bundle.index then s.ownState else s
  if on then s.stopMirror m else s

/-! ### Admission (R581, R582) -/

/-- What R582 makes of a manifest. -/
inductive Verdict where
  | digest | version | faulted
  | admission (feature : Nat)
  | fenced
  | roleLost (winner : Nat)
  deriving DecidableEq, Repr

/-- The first matching row of R582 for a member whose identity is in the list. -/
def State.verdict (s : State) (m : Nat) (b : Bytes) : Verdict :=
  let others := s.admittedMembers.map fun a => (s.member a).manifest.getD []
  let lead := (s.coordinatorOf.bind fun a => (s.member a).manifest).getD b
  let minors := manMinor b :: others.map manMinor
  let low := minors.foldl min 255
  let high := minors.foldl max 0
  let rival := s.admittedMembers.find? fun a =>
    numAt b 64 8 != 0 && numAt ((s.member a).manifest.getD []) 64 8 == numAt b 64 8
  if manDigest b ≠ manDigest lead then .digest
  else if manMajor b ≠ manMajor lead then .version
  else if low + 1 < high then .version
  else if low + 1 = high then .admission low
  else if numAt b 52 1 = 4 then .faulted
  else if 50 < (manOffset b).natAbs then .fenced
  else
    match rival with
    | some a =>
      let ea := numAt ((s.member a).manifest.getD []) 8 8
      let em := numAt b 8 8
      if em < ea ∨ (em = ea ∧ a < m) then .roleLost a else .roleLost m
    | none => .admission low

/-- Admit a member (R582, R583). -/
def State.admitMember (s : State) (m : Nat) : State :=
  let s := s.modMember m fun x => { x with admitted := true }
  let s := if m = s.bundle.index then s.ownState.nextEpoch else s
  let low := (s.admittedMembers.map fun a => manMinor ((s.member a).manifest.getD [])).foldl min 255
  s.modBundle fun b => { b with feature := BitVec.ofNat 8 low, coordinator := s.coordinatorOf == some b.index }

/-- A member loses its mirror role: it is fenced, and this module records it on source 0x9F2 (R582, R589). -/
def State.loseRole (s : State) (loser winner : Nat) : State :=
  let s := s.setFence loser 1 true
  if loser = s.bundle.index then
    let epoch (m : Nat) : Nat := numAt ((s.member m).manifest.getD []) 8 8
    if epoch loser < epoch winner then s.event 0x9F2 (epoch winner % 2 ^ 32) else s
  else s

/-- A member has sent its manifest; one that is refused is judged again when it changes (R582). -/
def Member.sends (x : Member) (b : Bytes) (now : Nat) : Member :=
  { x with manifest := some b, lastHeard := now, refused := x.refused && x.manifest == some b }

/-- A member is refused: it stays STANDALONE (R582). -/
def State.refuseMember (s : State) (m : Nat) (f : Bundle → Bundle) : State :=
  let s := s.modMember m fun x => { x with refused := true }
  if m = s.bundle.index then s.modBundle fun b => { f b with bstate := .standalone } else s

/-- Judge a member that is not admitted (R582). -/
def State.judgeMember (s : State) (m : Nat) : State :=
  match (s.member m).manifest with
  | none => s
  | some b =>
    match s.verdict m b with
    | .digest => s.refuseMember m fun x => { x with refusedDigest := true }
    | .version => s.refuseMember m fun x => { x with refusedVersion := true }
    | .faulted => s
    | .admission _ => s.admitMember m
    | .fenced => (s.admitMember m).setFence m 0 true
    | .roleLost a =>
      let s := s.admitMember m
      if a = m then
        match s.admittedMembers.find? fun x =>
            x != m && numAt ((s.member x).manifest.getD []) 64 8 == numAt b 64 8 with
        | some x => s.loseRole x m
        | none => s
      else s.loseRole m a

/-- With no member admitted, the lowest FORMING member that is known admits itself (R581). -/
def State.firstAdmission (s : State) : State :=
  if s.admittedMembers.isEmpty then
    match (List.range (cfgMembers s.bundleCfg)).find? fun m => (s.member m).manifest.isSome with
    | some m => s.admitMember m
    | none => s
  else s

/-- Judge every known member that is neither admitted nor refused, the lowest index first (log entry 47). -/
def State.judgeAll (s : State) : State :=
  let s := s.firstAdmission
  ((List.range (cfgMembers s.bundleCfg)).filter fun m => !(s.member m).admitted && !(s.member m).refused).foldl
    (fun s m => s.judgeMember m) s

/-- MANIFEST_SEND (R580): at the start, on a change of a field other than TB_OFFSET, and every LIVENESS_T. A module that
hears nobody for that time judges itself. -/
def execManifestSend (s : State) : Host.Outcome State Fault Refusal :=
  .next (if !s.inBundle then s
    else
      let b := s.ownManifest
      let up := if s.bundle.coordinator ∧ cfgParent s.bundleCfg ≠ 0xFF then [s.parentManifest] else []
      let all := b ++ up.flatten
      let again := match s.bundle.sentManifest with
        | none => false
        | some (_, t) => decide (t + cfgLiveness s.bundleCfg ≤ s.now)
      let due := match s.bundle.sentManifest with
        | none => true
        | some (o, _) => manFixed o != manFixed all || again
      if !due then s
      else
        let target := (List.range (cfgMembers s.bundleCfg)).filter (· != s.bundle.index)
        let t := (s.modBundle fun x =>
          { x with sentManifest := some (all, s.now),
                   outbound := x.outbound ++ target.map (fun m => (m, b)) ++ up.map fun c => (0x100, c) }).modMember
            s.bundle.index fun x => x.sends b s.now
        (if again then t.judgeAll else t).bundleEvents s)

/-- An offset fences a member, or ends that fence (R585). -/
def State.timeFence (s : State) (m : Nat) (off : Int) : State :=
  if 50 < off.natAbs then s.setFence m 0 true
  else if off.natAbs ≤ 30 then s.setFence m 0 false
  else s

/-- A manifest of member `m` has come (R582, R587, R588); its TB_OFFSET is that member's last measurement (R585). -/
def State.manifestFrom (s : State) (m : Nat) (bytes : Bytes) : State :=
  if !s.inBundle ∨ bytes.length ≠ 80 ∨ cfgMembers s.bundleCfg ≤ m ∨ m = s.bundle.index ∨
      wordAt bytes 0 ≠ cfgMember s.bundleCfg m then s
  else
    let t := s.modMember m fun x => x.sends bytes s.now
    let t := if (t.member m).failed then t.setFence m 3 true else t
    let t := t.judgeAll
    (if (t.member m).admitted ∧ !(t.member m).failed then t.timeFence m (manOffset bytes) else t).bundleEvents s

/-- MANIFEST_RECEIVE (R582, R587, R588): the manifest of member `m`. -/
def execManifestReceive (m : Fin 16) (bytes : Bytes) (s : State) : Host.Outcome State Fault Refusal :=
  .next (s.manifestFrom m bytes)

/-! ### Time (R584, R585) -/

/-- TB_MEASUREMENT (R584, R585): the four timestamps of one exchange with the coordinator, or with the parent's. -/
def execTbMeasurement (t1 t2 t3 t4 : Int) (s : State) : Host.Outcome State Fault Refusal :=
  let outer := s.bundle.coordinator && cfgParent s.bundleCfg == 0xFF
  .next (if !s.inBundle ∨ !(s.member s.bundle.index).admitted ∨ outer ∨ !s.vixia.up then s
    else
      let off := ((t2 - t1) - (t4 - t3)) / 2
      let t := s.modBundle fun b => { b with offset := off, adjLeft := Int.tdiv off 10 }
      (t.timeFence s.bundle.index off).bundleEvents s)

/-! ### Failure (R587) -/

/-- A member has been heard within LIVENESS_T. -/
def State.heardLately (s : State) (m : Nat) : Bool :=
  m == s.bundle.index || decide (s.now < (s.member m).lastHeard + cfgLiveness s.bundleCfg)

/-- The members heard hold quorum (R587). -/
def State.hasQuorum (s : State) : Bool :=
  let all := s.admittedMembers
  let heard := all.filter s.heardLately
  decide (all.length < 2 * heard.length) || (2 * heard.length == all.length && heard.head? == all.head? && !all.isEmpty)

/-- The reply to a packet, from its bytes; `check` is the CHECK_ONLY of the FORWARDs around it (R60, R63). -/
def replyTo (tb : Word) (check : Bool) (packet : Bytes) (op : BitVec 16) (status detail : Nat) (results : Bytes) : Bytes :=
  replyBytes tb
    { op := op, tag := BitVec.ofNat 32 (numAt packet 4 4), status := BitVec.ofNat 16 status, detail := BitVec.ofNat 32 detail,
      partition := packet.getD 24 0, completion := false, checkOnly := check || (packet.getD 0 0).getLsbD 0,
      results := results, entry := none }

/-- The bytes of an inner reply that the module forms itself (R579). -/
def lostReply (s : State) (check : Bool) (inner : Bytes) (m : Nat) : Bytes :=
  replyTo s.clock.tb check inner (BitVec.ofNat 16 (numAt inner 2 2)) 0x02B3 m []

/-- Results of JOURNAL_LIST and LOG_READ shortened to whole items, the continuation naming the first left out (R46). -/
def shorten (code limit : Nat) (results : Bytes) : Bytes :=
  let size := if code = 0x0502 then 4 else if code = 0x0D01 then 32 else 0
  let count := numAt results 4 4
  let keep := (limit - 8) / max 1 size
  if size = 0 ∨ count ≤ keep then results.take limit
  else
    let left := slice results (8 + size * keep) size
    let next := if size = 4 then left else slice left 8 4
    pad8 (next ++ beBytes 4 keep ++ slice results 8 (size * keep))

/-- A reply that has come from another member, with results of at most `limit` bytes; the replies inside that of a FORWARD are
shortened in their turn (R46). -/
def cutReply : Nat → Nat → Bytes → Bytes
  | 0, _, reply => reply
  | fuel + 1, limit, reply =>
    if reply.length ≤ 32 + limit then reply
    else
      let code := numAt reply 2 2
      let results := reply.drop 32
      let results := if code = 8 then cutReply fuel (limit - 32) results else shorten code limit results
      let head := reply.take 10 ++ beBytes 2 (results.length / 8) ++ slice reply 12 18
      head ++ beBytes 2 (crc16 head) ++ results

/-- The member that a waiting FORWARD is for (16 for the parent), and the FORWARDs around it. -/
def forwardMember (f : Nat × Pkt) : Nat := f.1 % 32
def forwardLevels (f : Nat × Pkt) : Nat := if f.1 / 32 % 1024 = 1023 then 0 else f.1 / 32 % 1024

/-- It is a packet that is passed on for another member. -/
def isRelay (f : Nat × Pkt) : Bool := f.1 / 32 % 1024 == 1023

/-- An inner reply inside the replies of the FORWARDs around it, whose packets are nested in `params` (R46). -/
def wrapReply (tb : Word) : Nat → Bool → Bytes → Bytes → Bytes
  | 0, _, _, r => r
  | k + 1, check, params, r =>
    replyTo tb check params 0x0008 0 0 (pad8 (wrapReply tb k (check || (params.getD 0 0).getLsbD 0) (params.drop 32) r))

/-- The inner packet of a FORWARD inside others. -/
def innerPacket : Nat → Bytes → Bytes
  | 0, params => params
  | k + 1, params => innerPacket k (params.drop 32)

/-- One of the FORWARDs around a packet has CHECK_ONLY (R60). -/
def innerCheck : Nat → Bytes → Bool
  | 0, _ => false
  | k + 1, params => (params.getD 0 0).getLsbD 0 || innerCheck k (params.drop 32)

/-- A reply goes to a member: its bytes follow a byte of 0xFE (log entry 71). -/
def State.replyToMember (s : State) (m : Nat) (reply : Bytes) : State :=
  s.modBundle fun b => { b with outbound := b.outbound ++ [(m, 0xFE :: reply)] }

/-- A reply goes to the member that asked for something with a tag; it waits no longer unless `stay`. -/
def State.tellAsker (s : State) (tag : BitVec 32) (reply : Bytes) (stay : Bool) : State :=
  match s.bundle.askers.find? fun a => a.2 == tag with
  | some a => (s.modBundle fun b => { b with askers := if stay then b.askers else b.askers.erase a }).replyToMember a.1 reply
  | none => s

/-- An inner reply goes back: inside the replies of the FORWARDs around it, or as it is to the member for which the packet was
passed on (R44, R46). -/
def State.forwardReply (s : State) (top : Pkt) (level : Nat) (inner : Bytes) : State :=
  let s := s.modRing top.ring fun x => { x with outstanding := x.outstanding - 1 }
  if level = 1023 then s.tellAsker top.tag inner (numAt inner 8 2 == 1)
  else s.reply top.ring (immediate 0x0008 top (doneWith
    (wrapReply s.clock.tb level top.checkOnly top.params (cutReply 128 (4064 - 32 * (level + 1)) inner)) s))

/-- The FORWARD packets that wait for a member are answered with an inner reply (R46, R579). -/
def State.answerForwards (s : State) (ready : Nat × Pkt → Bool) (inner : Nat × Pkt → Bytes) : State :=
  let due := s.bundle.forwards.filter ready
  let s := s.modBundle fun b => { b with forwards := b.forwards.filter fun f => !ready f }
  due.foldl (fun s f => s.forwardReply f.2 (f.1 / 32 % 1024) (inner f)) s

/-- A reply or a completion of a member to a command of the bundle is taken down. -/
def State.groupReply (s : State) (m : Nat) (bytes : Bytes) : Option State :=
  let completes := (bytes.getD 0 0).getLsbD 0
  let status := numAt bytes 8 2
  let mine (g : GroupCmd) : Bool :=
    (g.asks.drop 2).take 6 == (bytes.drop 2).take 6 && (if completes = true then g.owed.contains m else g.waits.contains m)
  let after (g : GroupCmd) : GroupCmd :=
    if !mine g then g
    else if completes then { g with owed := g.owed.erase m, bad := g.bad || status != 0 }
    else
      { g with waits := g.waits.erase m, got := g.got ++ [(m, status, numAt bytes 12 4, bytes.drop 32)],
               owed := if status = 1 then g.owed ++ [m] else g.owed }
  if s.bundle.groups.any mine then some (s.modBundle fun b => { b with groups := b.groups.map after }) else none

/-- MEMBER_DECLARED_FAILED (R579, R587, R589). Mirroring to it stops, which Tansy hears of at level 2 (R409). -/
def execMemberDeclaredFailed (m : Fin 16) (s : State) : Host.Outcome State Fault Refusal :=
  .next (if !s.inBundle ∨ !s.admittedMembers.contains m.val ∨ s.heardLately m ∨ !s.hasQuorum then s
    else
      let t := (s.modMember m fun x => { x with failed := true }).event 0x9F1 (2 ^ m.val)
      let t := t.modBundle fun b => { b with coordinator := t.coordinatorOf == some b.index }
      let mirrored := (t.io.mirror.map fun x => x.on && (x.partner.headD 0).toNat == m.val).getD false
      let t := t.modIo fun i =>
        { i with mirror := i.mirror.map fun x =>
            if (x.partner.headD 0).toNat = m.val then { x with on := false, sent := none, held := [] } else x }
      let t := if mirrored then t.reportCell cellMembership 2 else t
      (t.answerForwards (fun f => f.1 < 32768 && forwardMember f == m.val) fun f =>
        lostReply s (f.2.checkOnly || innerCheck (forwardLevels f) f.2.params) (innerPacket (forwardLevels f) f.2.params)
          m).bundleEvents s)

/-- QUORUM_LOSS (R587): a member that has heard from no quorum fences itself. -/
def execQuorumLoss (s : State) : Host.Outcome State Fault Refusal :=
  .next (if s.inBundle ∧ (s.member s.bundle.index).admitted ∧ !s.hasQuorum then
    (s.setFence s.bundle.index 3 true).bundleEvents s
  else s)

/-- The replies and completions of packets executed for other members go to them (R662), and those of this module's own part
in a command of the bundle are taken down. -/
def State.bundleReplies (s : State) : State :=
  let due := (s.ring 1025).outbox
  if due.isEmpty then s
  else
    due.foldl (fun s r =>
      let bytes := replyBytes s.clock.tb r
      match (if s.bundle.askers.any fun a => a == (s.bundle.index, r.tag) then s.groupReply s.bundle.index bytes else none) with
      | some t => t.modBundle fun b => { b with askers := b.askers.erase (b.index, r.tag) }
      | none => s.tellAsker r.tag bytes (r.status == 1))
      (s.modRing 1025 fun x =>
        { x with outbox := [], outstanding := x.outstanding - (due.filter Reply.completion).length })

/-! ### Opcodes (R590 to R592) -/

/-- The membership cell, for the opcodes of the 0x0B range. -/
def onMembership (_ : State) (c : Nat) : Bool := c == cellMembership

/-- Classes 1, 2 and 3. -/
def bundleClasses (_ : Nat) : List Nat := [1, 2, 3]

/-- A member can be reached by a cross-member event (R586). -/
def State.eventOpen (s : State) (m : Nat) : Bool :=
  s.bundle.bstate != .fenced && s.admittedMembers.contains m && (s.member m).fence == 0 && !(s.member m).failed

/-- EVENT_SEND (R590, R591): the reply waits until every other member that is named has acknowledged. -/
def opEventSend : Op where
  code := 0x0B00
  len := exactly 1
  on := onMembership
  classes := bundleClasses
  run r s :=
    let w := r.word 0
    let bad := badWord w 0xFFFFFFFF0003FFFF
    let me := s.bundle.index
    let named := (List.range 16).filter fun m => w.getLsbD m
    let missed := (named.filter fun m => !s.eventOpen m).foldl (fun n m => n + 2 ^ m) 0
    if bad ≠ 0 then refuse bad 0 s
    else if s.bundle.bstate = .standalone then refuse 0x02B0 0 s
    else
      let others := named.filter fun m => s.eventOpen m && m != me
      let t := if named.contains me ∧ s.eventOpen me then s.event (0x9F4 + bits w 17 16) (2 ^ (32 + me) + bits w 63 32) else s
      if others.isEmpty ∨ r.pk.checkOnly then (if missed = 0 then done t else refuse 0x02B1 missed t)
      else
        ⟨later, 0, [], t.modBundle fun b =>
          { b with outbound := b.outbound ++ (others.map fun m => (m, r.pk.params)),
                   sends := b.sends ++ [⟨0x0B00, r.pk, 1022, [], w, others, missed⟩] }⟩

/-- A member has answered an event of this module (R590). -/
def State.eventAnswer (s : State) (m : Nat) (w : Word) (ok : Bool) : State :=
  let mine (e : EventWait) : Bool := e.op == 0x0B00 && e.word == w && e.waits.contains m
  match s.bundle.sends.find? mine with
  | some e =>
    let f : EventWait := { e with waits := e.waits.erase m, missed := if ok then e.missed else e.missed + 2 ^ m }
    s.modBundle fun b => { b with sends := b.sends.replace e f }
  | none => s

/-- A member can still answer a command that waits for it: a mirror partner while mirroring is in force (R409). -/
def State.mayAnswer (s : State) (e : EventWait) (m : Nat) : Bool :=
  if e.op = 0x0400 then s.mirrorOf (s.entry e.word.toNat).ctx == some m else s.eventOpen m

/-- What a command that waited for other members answers: a START_IO is ACCEPTED, its acceptance tick being this one (R390). -/
def State.waitResult (s : State) (e : EventWait) (missed : Nat) : Res :=
  if e.op = 0x0400 then accepted (if (s.entry e.word.toNat).state = 1 then s.admitStart e.word.toNat else s)
  else if missed = 0 then done s
  else refuse 0x02B1 missed s

/-- What such a command answers, once its members have all answered or can no longer be reached; a JOURNAL_READ once memory can
be read. -/
def State.waitAnswer (s : State) (e : EventWait) : Option Res × State :=
  let lost := e.waits.filter fun m => !s.mayAnswer e m
  if e.op = 0x0500 then s.copyRead e.word.toNat
  else if lost.length < e.waits.length then (none, s)
  else (some (s.waitResult e (lost.foldl (fun n m => n + 2 ^ m) e.missed)), s)

/-- The commands that wait no longer are answered (R390, R590); an ACCEPTED one stays outstanding on its ring (R71). -/
def State.eventSendsDone (s : State) : State :=
  s.bundle.sends.foldl (fun s e =>
    match s.waitAnswer e with
    | (none, t) => t
    | (some r, _) =>
      let s := r.state.modBundle fun b => { b with sends := b.sends.erase e }
      let owed := if r.status = 1 then 1 else 0
      if e.level = 1022 then
        (s.modRing e.top.ring fun x => { x with outstanding := x.outstanding - 1 + owed }).reply e.top.ring (immediate e.op e.top r)
      else
        let pk : Pkt := (parsePacket e.top.ring e.inner).2.2
        (s.forwardReply e.top e.level (replyBytes s.clock.tb (immediate e.op pk r))).modRing e.top.ring fun x =>
          { x with outstanding := x.outstanding + owed }) s

/-- EVENT_SEND (R590). -/
def execEventSend (pk : Pkt) (s : State) : Host.Outcome State Fault Refusal := .next (submit opEventSend pk s)

/-- An opcode that names one member in [3:0]. -/
def memberOp (code : Nat) (cl : List Nat) (f : Req → State → Nat → Res) : Op where
  code := code
  len := exactly 1
  on := onMembership
  classes _ := cl
  run r s :=
    let bad := badWord (r.word 0) 0xF
    let m := bits (r.word 0) 3 0
    if bad ≠ 0 then refuse bad 0 s
    else if s.bundle.bstate = .standalone then refuse 0x02B0 0 s
    else if cfgMembers s.bundleCfg ≤ m then refuse 0x0109 0 s
    else f r s m

/-- Tell another member of its fence. -/
def State.tellMember (s : State) (m : Nat) (bs : Bytes) : State :=
  if m = s.bundle.index then s else s.modBundle fun b => { b with outbound := b.outbound ++ [(m, bs)] }

/-- The FENCE of a member (R586, R591). -/
def opFenceMember : Op :=
  memberOp 0x0B01 [1, 2] fun r s m => done (((s.setFence m 2 true).tellMember m (beBytes 2 0x0B01 ++ r.pk.params)).bundleEvents s)

/-- UNFENCE (R586, R591). -/
def opUnfence : Op :=
  memberOp 0x0B02 [1, 2] fun r s m => done (((s.setFence m 2 false).tellMember m (beBytes 2 0x0B02 ++ r.pk.params)).bundleEvents s)

/-- UNFENCE (R591). -/
def execUnfence (pk : Pkt) (s : State) : Host.Outcome State Fault Refusal := .next (submit opUnfence pk s)

/-- MANIFEST_READ (R591): zeros where none has been received. -/
def opManifestRead : Op :=
  memberOp 0x0B03 [1, 2, 3] fun _ s m => doneWith ((s.member m).manifest.getD (zeros 80)) s

/-- MANIFEST_READ (R591). -/
def execManifestRead (pk : Pkt) (s : State) : Host.Outcome State Fault Refusal := .next (submit opManifestRead pk s)

end Sys2Proof.Machine
end

