-- ==== Sys2Proof/Machine/Tansy.lean ====
section
/-! DEFINITION. Tansy (chapter 15): recording faults, escalation, broken paths, block links, and its opcodes. The
reaction in the tick after a record stands with the heartbeat. -/

namespace Sys2Proof.Machine

/-- A reporter that the table of R595 lists. -/
def reporterListed (r : Nat) : Bool := (reporterUnit r).isSome

def reporterBase (r : Nat) : Nat := ((reporterUnit r).map fun u => u.2.1).getD 0
def reporterCell (r : Nat) : Nat := ((reporterUnit r).map Prod.fst).getD 0
def reporterInternal (r : Nat) : Bool := ((reporterUnit r).map fun u => u.2.2).getD false

/-- The block of a reporter has lost its link (R599). -/
def State.blockLost (s : State) (b : Nat) : Bool := if b = 0 then s.tansy.block0Lost else s.tansy.block1Lost

/-- Tansy records from the first heartbeat tick after PWR_OK (R615). -/
def State.tansyRuns (s : State) : Bool := s.cst cellTansy == .running

/-- The processors of a pair, as (partition, cell) (R606). -/
def State.pairProcs (s : State) (p : Nat) : List (Nat × Nat) :=
  (s.parts.procs.filter fun q => pairOfCore q.core == p).map fun q => (q.part, s.cellOfCore q.core)

/-- The partitions that a fault of a level targets, whether it stopped a processor, and the cell that its item
names (R606, R609). -/
def State.faultTargets (s : State) (r level : Nat) (escalated : Bool) : List Nat × Bool × Nat :=
  let c := reporterCell r
  let x := s.rep r
  if level < 3 then ([], false, c)
  else if cellKind c = 1 ∧ r % 4 = 3 ∧ !escalated then
    (distinct (x.stopped.map Prod.fst), !x.stopped.isEmpty, ((x.stopped.getLast?).map Prod.snd).getD c)
  else if cellKind c = 1 then (distinct ((s.pairProcs (cellIndex c)).map Prod.fst ++ x.stopped.map Prod.fst),
    !x.stopped.isEmpty, ((x.stopped.getLast?).map Prod.snd).getD c)
  else if cellKind c = 4 then
    match s.setOfChan (cellIndex c) with
    | some m => (s.holdersOf m, false, c)
    | none => ([], false, c)
  else ([], false, c)

/-- Tansy records one fault (R601, R603, R604, R606, R668); its reaction is due in the next tick (R607). -/
def State.recordFault (s : State) (r : Nat) (broken : Bool) : State :=
  let x := s.rep r
  let base := if broken then max (reporterBase r) 2 else reporterBase r
  let first := min 4 (base + x.esc)
  let escalated := decide (base < first)
  let (targets, procStop, cell) := s.faultTargets r first escalated
  let level := if first = 3 ∧ targets.contains 0 then 4 else first
  let same := x.esc != 0 && x.lastLevel == level
  let stillCheck := x.esc != 0 && decide (3 ≤ x.lastLevel)
  let held := s.blockLost (r / 512)
  let s := s.modRep r fun x =>
    { x with
      lastLevel := level
      active := true
      esc := min 15 (x.esc + 1)
      faultSeen := true
      faults := satAdd x.faults 1
      quietAt := if held then none else some (s.now + x.quiet * 100000)
      expiring := false
      quietLeft := if held then some (x.quiet * 100000) else none
      fault := false
      stopped := []
      order := s.tansy.orderNext
      lastBroken := broken || (same && x.lastBroken)
      lastEsc := escalated || (same && x.lastEsc)
      targets := if stillCheck then distinct (x.targets ++ targets) else targets
      procStop := procStop || (stillCheck && x.procStop)
      cell := cell }
  s.modTansy fun t =>
    { t with levelSeen := t.levelSeen ||| BitVec.ofNat 5 (2 ^ level), orderNext := t.orderNext + 1,
             reactions := t.reactions ++
               [{ reporter := r, level := level, escBefore := x.esc, escalated := escalated, broken := broken,
                  targets := targets, procStop := procStop, cell := cell }] }

/-- An I/O die is lost, with its channels, movers, ports, copy of the journal and queues (R301, R409, R433). -/
def State.ioDieFails (s : State) (d : Nat) : State :=
  let s := ((s.failCell (cellNo 0x16 d)).failCell (cellNo 0x12 (1 + d))).movesFail d
  let s := ((List.range 512).map fun q => cellNo 0x0C (512 * d + q)).foldl (fun s c => s.failCell c) s
  let ports := (List.range 128).map (128 * d + ·)
  let s := ports.foldl (fun s p => (s.leaveService p).modStaging p fun g =>
    { g with inq := [], outq := [], toZero := false, tailAt := none }) s
  let s := ((List.range 12).map (12 * d + ·)).foldl (fun s ch => s.channelFault ch) s
  ((List.range 32).foldl (fun s m => if s.cst (cellNo 0x0B (32 * d + m)) = .faulted then s else s.moverFault d m)
    s).loseRecords

/-- A unit that shows a fault of base level 2 or 3 of its own has failed (R605, R51): an engine (R502), a mover (R383), a
slice, a bridge, a port group, a copy of the journal (R395), an I/O die (R409). Every other failure is a command of its own. -/
def State.unitFails (s : State) (r : Nat) : State :=
  let c := reporterCell r
  let i := cellIndex c
  if reporterBase r < 2 ∨ s.cst c = .faulted then s
  else
    match cellKind c with
    | 0x07 => (s.failCell c).failEngine i
    | 0x08 => (s.failCell c).failEngine (4 + i)
    | 0x0B => s.moverFault (i / 32) (i % 32)
    | 0x03 | 0x09 => s.failCell c
    | 0x12 => (s.failCell c).loseRecords
    | 0x05 => ((List.range 16).map fun k => 16 * i + k).foldl (fun s p => s.linkLost p) (s.failCell c)
    | 0x16 => if 0x188 ≤ r % 512 ∧ r % 512 < 0x18C then s.ioDieFails i else s
    | _ => s

/-- What becomes of a sample of (1,0) beside the reporter's last one (R596; log entry 142): a second one in the same tick is
the same report, unless the first left out a processor that it names; a unit's own waits for an idle tick between. -/
inductive Sampling where
  | taken | folded | waits
  deriving DecidableEq, Repr

/-- Judge a sample of a reporter (R596). -/
def Reporter.sampling (x : Reporter) (own : Bool) (now : Nat) : Sampling :=
  match x.sampled with
  | none => .taken
  | some t =>
    if t = now ∧ x.stopped.isEmpty then .folded
    else if own ∧ now < t + 2 then .waits
    else .taken

/-- A sample of (1,0) on a reporter (R596, R598): `own` says that the unit itself shows it, not an injection. -/
def State.faultSample (s : State) (r : Nat) (own : Bool) : State :=
  if !reporterListed r ∨ !s.tansyRuns then s
  else
    let x := s.rep r
    let s := if own && !x.fault then (s.unitFails r).modRep r fun x => { x with fault := false } else s
    let now := (s.rep r).sampling own s.now
    if now = .waits then s.modRep r fun x => { x with fault := true }
    else if now = .folded then s.modRep r fun x => { x with fault := false }
    else if s.blockLost (r / 512) ∧ !reporterInternal r then s.modRep r fun x => { x with badAt := none }
    else if x.broken then s.modRep r fun x => { x with fault := false, stopped := [], badAt := none, idle := s.now }
    else (s.modRep r fun x => { x with badAt := none, sampled := some s.now }).recordFault r false

/-- A unit meets an error in a structure that the spec protects (R211, R274, R293), and the sensor hub a sensor that has failed
(R642). -/
def State.hwError (s : State) : HwError → State
  | .unit => s
  | .l1 core fetch l => if core < 104 then s.l1Error core fetch l else s
  | .l2 p tag l ok => if p < 52 then s.l2Error p tag l ok else s
  | .slice tag l ok => s.sliceError tag l ok
  | .directory l ok => s.directoryError l ok
  | .gated p ok committed => s.gatedError p ok committed
  | .dram ch l errs => s.demandRead ch l errs
  | .sensor src => if isSensor src then (s.modSensor src fun x => { x with invalid := true }).report 0x1AA else s

/-- FAULT_RECORD (R596 to R606). An error that the unit does not report, as R275 leaves one to the
load, gives Tansy nothing to record. -/
def execFaultRecord (r : FaultReport) (s : State) : Host.Outcome State Fault Refusal :=
  .next (if r.error = .unit then s.faultSample r.reporter true
    else
      let t := s.hwError r.error
      if (t.rep r.reporter).fault then t.faultSample r.reporter true else t)

/-- A sample of 00 or 11 in a tick (R596, R598): the second of two consecutive ones breaks the path. A block whose
link is lost shows Tansy nothing (R599). -/
def State.badSample (s : State) (r tick : Nat) : State :=
  if !reporterListed r ∨ reporterInternal r ∨ !s.tansyRuns ∨ s.blockLost (r / 512) then s
  else
    let x := s.rep r
    if x.broken then s.modRep r fun x => { x with badAt := some tick, idle := tick }
    else if x.badAt.map (· + 1) = some tick then
      (s.modRep r fun x => { x with broken := true, brokenSeen := true, badAt := some tick, idle := tick }).recordFault r
        true
    else if x.badAt = some tick then s
    else s.modRep r fun x => { x with glitchSeen := true, badAt := some tick }

/-- REPORTER_GLITCH (R596, R598): one sample of a reporter. -/
def execReporterGlitch (r : RepId) (value : BitVec 2) (s : State) : Host.Outcome State Fault Refusal :=
  .next (if value = 0 ∨ value = 3 then s.badSample r s.now
    else if value = 2 then s.faultSample r true
    else s.modRep r fun x => { x with badAt := none })

/-- BROKEN_PATH_CLEAR (R598): 1,000 consecutive idle samples. -/
def execBrokenPathClear (r : RepId) (s : State) : Host.Outcome State Fault Refusal :=
  let x := s.rep r
  .next (if x.broken ∧ x.idle + 1000 ≤ s.now then s.modRep r fun x => { x with broken := false } else s)

/-! ### Block links -/

/-- The reporters of a block that have state. -/
def State.blockReps (s : State) (b : Nat) : List Nat := (s.tansy.reps.map Prod.fst).filter fun r => r / 512 == b

/-- Tansy holds the quiet timers of a block (R599). -/
def State.holdQuiet (s : State) (b : Nat) : State :=
  (s.blockReps b).foldl (fun s r => s.modRep r fun x =>
    match x.quietAt with
    | some t => { x with quietAt := none, quietLeft := some (t - s.now) }
    | none => x) s

/-- The quiet timers of a block run on. -/
def State.runQuiet (s : State) (b : Nat) : State :=
  (s.blockReps b).foldl (fun s r => s.modRep r fun x =>
    match x.quietLeft with
    | some n => { x with quietAt := some (s.now + n), quietLeft := none }
    | none => x) s

def State.setLost (s : State) (b : Nat) (lost : Bool) : State :=
  s.modTansy fun t => if b = 0 then { t with block0Lost := lost } else { t with block1Lost := lost }

/-- BLOCK_LINK_LOST (R599): two consecutive snapshots, 128 ticks, have failed to arrive. -/
def execBlockLinkLost (b : Fin 2) (s : State) : Host.Outcome State Fault Refusal :=
  .next (if !s.tansyRuns ∨ s.blockLost b ∨ s.now < tabGet 0 s.tansy.snapAt b + 128 then s
    else
      let s := ((s.setLost b true).holdQuiet b).recordFault (if b.val = 0 then 0x398 else 0x198) false
      if s.blockLost 0 ∧ s.blockLost 1 then s.recordFault 0x1AD false else s)

/-- BLOCK_SNAPSHOT (R597, R599): the reporters of a block that show a fault. A link that was lost returns, and the snapshot
is then the current state of the block: reports made meanwhile are not seen. -/
def execBlockSnapshot (b : Fin 2) (faults : List (Fin 512)) (s : State) : Host.Outcome State Fault Refusal :=
  .next (if !s.tansyRuns then s
    else
      let was := s.blockLost b
      let s := s.modTansy fun t => { t with snapAt := tabPut 0 t.snapAt b s.now }
      let s := if was then
          (s.blockReps b).foldl (fun s r => s.modRep r fun x => { x with fault := false, stopped := [] })
            ((s.setLost b false).runQuiet b)
        else s
      (faults.map fun k => 512 * b.val + k.val).foldl (fun s r =>
        if was ∨ (s.rep r).fault then s.faultSample r false else s) s)

/-! ### Timers -/

/-- A reporter's quiet timer expires (R603). What follows waits for the end of the tick, since a fault that is recorded in the same
tick goes before it (log entry 131). -/
def State.quietExpire (s : State) (r : Nat) : State :=
  match (s.rep r).quietAt with
  | some t => if s.now < t then s else s.modRep r fun x => { x with quietAt := none, expiring := true }
  | none => s

/-- The reporter is quiet again (R603); an engine's recovery ends with it (R605). -/
def State.quietDone (s : State) (r : Nat) : State :=
  let s := s.modRep r fun x => { x with active := false, esc := 0, expiring := false, recoveries := satAdd x.recoveries 1 }
  let c := reporterCell r
  if cellKind c = 7 ∨ cellKind c = 8 then
    let e := if cellKind c = 7 then cellIndex c else 4 + cellIndex c
    if (List.range 4).any fun k => (s.rep (reporterOf c k)).active then s
    else s.modEngine e fun x => { x with recovery := false }
  else s

/-- QUIET_TIMER_EXPIRY (R603). -/
def execQuietTimerExpiry (r : RepId) (s : State) : Host.Outcome State Fault Refusal := .next (s.quietExpire r)

/-- A pulse of ERR_N ends (R611). -/
def State.pulseExpire (s : State) : State :=
  match s.tansy.pulseEnd with
  | some t => if s.now < t then s else s.modTansy fun t => { t with pulseEnd := none }
  | none => s

/-- ERR_PULSE_END (R611, R612). -/
def execErrPulseEnd (s : State) : Host.Outcome State Fault Refusal := .next s.pulseExpire

/-! ### Commands -/

/-- The opcodes of R613 address Tansy. -/
def onTansy (_ : State) (c : Nat) : Bool := c == cellTansy

/-- FAULT_ACK (R602, R613). -/
def opFaultAck : Op where
  code := 0x0C00
  len := exactly 1
  on := onTansy
  classes := mgr
  run r s :=
    let w := r.word 0
    let first := bits w 9 0
    let count := bits w 26 16
    let bad := badWord w 0x7FF03FF
    if bad ≠ 0 then refuse bad 0 s
    else if count = 0 ∨ 1024 < first + count then refuse 0x0109 0 s
    else
      done (((s.tansy.reps.map Prod.fst).filter fun r => first ≤ r ∧ r < first + count).foldl (fun s r =>
        s.modRep r fun x => { x with esc := 0 }) s)

/-- FAULT_ACK (R602). -/
def execFaultAck (pk : Pkt) (s : State) : Host.Outcome State Fault Refusal := .next (submit opFaultAck pk s)

/-- FAULT_SET (R603, R613). -/
def opFaultSet : Op where
  code := 0x0C01
  len := exactly 1
  on := onTansy
  classes := mgr
  run r s :=
    let w := r.word 0
    let q := bits w 31 16
    let bad := badWord w 0xFFFF03FF
    if bad ≠ 0 then refuse bad 0 s
    else if q = 0 ∨ 60000 < q ∨ !reporterListed (bits w 9 0) then refuse 0x0109 0 s
    else done (s.modRep (bits w 9 0) fun x => { x with nextQuiet := some q })

/-- FAULT_SET (R603). -/
def execFaultSet (pk : Pkt) (s : State) : Host.Outcome State Fault Refusal := .next (submit opFaultSet pk s)

/-- ERR_CLEAR (R612, R613). -/
def opErrClear : Op where
  code := 0x0C02
  len := exactly 0
  on := onTansy
  classes := mgr
  run _ s := done (s.modTansy fun t => { t with errLatch := false })

/-- ERR_CLEAR (R612). -/
def execErrClear (pk : Pkt) (s : State) : Host.Outcome State Fault Refusal := .next (submit opErrClear pk s)

/-- FAULT_INJECT (R613, R614): the value stands at the reporter's block input, and the unit itself shows nothing. -/
def opFaultInject : Op where
  code := 0x0C03
  len := exactly 1
  on := onTansy
  classes := mgr
  run r s :=
    let w := r.word 0
    let rep := bits w 9 0
    let v := bits w 17 16
    let bad := badWord w 0x303FF
    if bad ≠ 0 then refuse bad 0 s
    else if v = 3 ∨ !reporterListed rep then refuse 0x0109 0 s
    else if v = 0 then done (s.faultSample rep false)
    else done ((s.badSample rep s.now).badSample rep (s.now + 1))

/-- FAULT_INJECT (R614). -/
def execFaultInject (pk : Pkt) (s : State) : Host.Outcome State Fault Refusal := .next (submit opFaultInject pk s)

/-- FAULT_READ (R613, R618). -/
def opFaultRead : Op where
  code := 0x0C04
  len := exactly 1
  on := onTansy
  classes := mgr
  run r s :=
    let bad := badWord (r.word 0) 0x3FF
    if bad ≠ 0 then refuse bad 0 s
    else if !reporterListed (bits (r.word 0) 9 0) then refuse 0x0109 0 s
    else doneWith ((s.fltWords (bits (r.word 0) 9 0)).flatMap wordBytes) s

/-- FAULT_READ (R613). -/
def execFaultRead (pk : Pkt) (s : State) : Host.Outcome State Fault Refusal := .next (submit opFaultRead pk s)

/-- MC_POLICY (R610, R613). -/
def opMcPolicy : Op where
  code := 0x0C05
  len := exactly 1
  on := onTansy
  classes := mgr
  run r s :=
    let bad := badWord (r.word 0) 1
    if bad ≠ 0 then refuse bad 0 s else done (s.modTansy fun t => { t with mcHalt := bitOf (r.word 0) 0 })

/-- MC_POLICY (R610). -/
def execMcPolicy (pk : Pkt) (s : State) : Host.Outcome State Fault Refusal := .next (submit opMcPolicy pk s)

end Sys2Proof.Machine
end

