-- ==== Sys2Proof/Machine/Cells.lean ====
section
/-! DEFINITION. Cells (chapters 01 and 02): group states, sleep, and the common opcodes IDENTIFY, QUERY, STOP, CHANGE,
START, RESET, SLEEP, WAKE and SLEEP_POLICY, with what each kind of cell does under them. FORWARD stands with the
consumption of commands. -/

namespace Sys2Proof.Machine

/-! ### Sleep -/

/-- A cell that may sleep (R14, R27): pairs, cores of split pairs, channels, port groups without an Ethernet lane,
engines. -/
def State.maySleep (s : State) (c : Nat) : Bool :=
  match cellKind c with
  | 0x01 | 0x02 | 0x04 | 0x07 | 0x08 => true
  | 0x05 => s.groupSleeps (cellIndex c)
  | _ => false

/-- The default idle delay in µs (R29). A port group's is 100 in every mode. -/
def idleDefault (c : Nat) : Nat :=
  match cellKind c with
  | 0x04 => 20
  | 0x05 => 100
  | 0x07 | 0x08 => 10
  | _ => 0

/-- The idle delay in force in µs (R27). -/
def State.idleDelay (s : State) (c : Nat) : Nat :=
  if (s.cell c).idleUs = 0 then idleDefault c else (s.cell c).idleUs.toNat

/-! ### Admitted work -/

/-- A context still has accepted starts (R394, chapter 02). -/
def State.ctxBusy (s : State) (x : Nat) : Bool :=
  let c := s.ctx x
  c.op == .active || c.op == .redrive || !c.queue.isEmpty || s.startsWaiting x != 0 || s.io.journal.any fun e => e.2.ctx == x && e.2.state == 5

/-- The lines that a slice holds and memory does not (R272). -/
def State.sliceDirty (s : State) (d : Nat) : Bool :=
  s.caches.slice.any fun e => e.1 / 16384 == d && e.2.any fun c => c.dirty

/-- A port still has work (R538). -/
def State.portBusy (s : State) (p : Nat) : Bool :=
  match (s.port p).cfg.mode with
  | 1 => (s.io.runs.map Prod.fst).any fun x =>
      (s.ctx x).port == p && ((s.ctx x).op == .active || (s.ctx x).op == .redrive || !(s.conv x).unacked.isEmpty)
  | 2 | 3 => !(s.port p).ethSends.isEmpty
  | 4 => !(s.staging p).inq.isEmpty
  | _ => false

/-- The cell of a processor. -/
def State.procCell (s : State) (q : ProcShare) : Nat := s.cellOfCore q.core

/-- A cell has admitted work outstanding (R51). -/
def State.admitted (s : State) (c : Nat) : Bool :=
  let i := cellIndex c
  match cellKind c with
  | 0x01 => if s.isSplit i then s.leafSt c == .draining else !s.atRest i || (s.pair i).job.isSome
  | 0x0A => !s.atRest (52 + i) ||
      (s.io.runs.map Prod.fst).any fun x => s.ctxCp x == i && (s.ctx x).op == .active
  | 0x03 => s.sliceDirty i || s.pinsOf i != 0
  | 0x06 => s.portBusy i
  | 0x07 => !(s.engine i).queue.isEmpty
  | 0x08 => !(s.engine (4 + i)).queue.isEmpty
  | 0x0B => (tabFind (s.ioDie (i / 32)).serving (i % 32)).isSome
  | 0x0C => (s.queue i).count != 0
  | 0x0D => s.ctxBusy i
  | 0x0E => s.io.journal.any fun e => decide (1 ≤ e.2.state ∧ e.2.state ≤ 3) &&
      s.io.bindings.any fun b => b.cls == i && b.ctxs.contains e.2.ctx
  | 0x14 => (s.procsOf i).any fun q => s.cst (s.procCell q) != .stopped && s.cst (s.procCell q) != .faulted
  | _ => false

/-! ### Idleness and sleep -/

/-- A core waits in WFE or WAITC with nothing uncommitted (R27). -/
def State.coreWaits (s : State) (core : Nat) : Bool :=
  let p := pairOfCore core
  (s.core core).wait != .none && s.executes core &&
    (s.isSplit p || ((s.pair p).closed.isEmpty && (s.pair p).opened.isEmpty))

/-- A cell is idle (R24, R27). A channel that is rebuilt, or zeroed by a command under way, is not. -/
def State.idle (s : State) (c : Nat) : Bool :=
  let i := cellIndex c
  match cellKind c with
  | 0x01 => s.coreWaits (2 * i)
  | 0x02 => s.coreWaits i
  | 0x04 => !s.rebuildBusy i && !s.zeroBusy i
  | 0x05 => (List.range 16).all fun l => s.laneIdle (16 * i + l)
  | 0x07 => (s.engine i).queue.isEmpty
  | 0x08 => (s.engine (4 + i)).queue.isEmpty
  | _ => true

/-- The fast clock of a waiting core stops; a WAITC sets its scheduled wake (R29, R125). -/
def State.parkCore (s : State) (core : Nat) : State :=
  let at_ : Option Word := match (s.core core).wait with
    | .waitc _ t _ => some (if t.toNat < pairWakeNs then 0 else t - BitVec.ofNat 64 pairWakeNs)
    | _ => none
  (s.modCore core fun x => { x with clockOff := true, wakeAt := at_ }).coreSleeps core

/-- An idle RUNNING cell enters ASLEEP. The lanes of a port group that are UP are asked to go QUIET first (R29,
R556). -/
def State.enterSleep (s : State) (c : Nat) : State :=
  let i := cellIndex c
  match cellKind c with
  | 0x01 => s.parkCore (2 * i)
  | 0x02 => s.parkCore i
  | 0x05 =>
    let up := ((List.range 16).map fun l => 16 * i + l).filter fun p => (s.port p).cfg.mode == 1 && (s.port p).link == .up
    if up.isEmpty then s.modCell c fun x => { x with st := .asleep, sleepAsked := false, waking := false }
    else
      up.foldl (fun s p => if (s.port p).quietAsked then s
        else (s.modPort p fun q => { q with quietAsked := true }).emitLink p 3) s
  | _ => s.modCell c fun x => { x with st := .asleep, sleepAsked := false, waking := false }

/-- A trigger wakes an ASLEEP cell; a spare pair stays asleep until it is used (R25, R27 to R29). -/
def State.wakeCell (s : State) (c : Nat) : State :=
  if cellKind c = 1 ∧ s.isSpare (cellIndex c) then s else s.wakeNow c

/-- The cells of the cores of a split pair, or the cell itself. -/
def State.parts_ (s : State) (c : Nat) : List Nat :=
  if cellKind c = 1 ∧ s.isSplit (cellIndex c) then [cellNo 2 (2 * cellIndex c), cellNo 2 (2 * cellIndex c + 1)] else [c]

/-- What SLEEP, WAKE and SLEEP_POLICY answer at one leaf: the status and the state after it. -/
def State.sleepLeaf (s : State) (c : Nat) (release : Bool) : Nat × State :=
  let x := s.cell c
  let st := s.leafSt c
  if st = .faulted then (0x0203, s)
  else if release then
    if x.cmdHold = 0 then (0x0208, s) else (0, s.modCell c fun x => { x with cmdHold := x.cmdHold - 1 })
  else if st = .stopped ∨ st = .draining then (0, s)
  else if s.holdsOf c ≠ 0 then (0x0206, s)
  else
    (0, (s.parts_ c).foldl (fun s k =>
      if s.cst k ≠ .running ∨ (s.cell k).waking ∨ s.holdsOf k ≠ 0 then s
      else if s.idle k then s.enterSleep k
      else s.modCell k fun x => { x with sleepAsked := true }) s)

/-- WAKE at one leaf (R25, R26, R51). -/
def State.wakeLeaf (s : State) (c : Nat) (hold : Bool) : Nat × State :=
  let x := s.cell c
  if s.leafSt c = .faulted then (0x0203, s)
  else if hold ∧ 65535 ≤ x.cmdHold then (0x0404, s)
  else
    let s := if hold then s.modCell c fun x => { x with cmdHold := x.cmdHold + 1 } else s
    (0, (s.parts_ c).foldl (fun s k => s.wakeCell k) (if hold then (s.parts_ c).foldl (fun s k => s.heldAwake k) s else s))

/-- SLEEP_POLICY at one leaf (R27). -/
def State.policyLeaf (s : State) (c : Nat) (manual : Bool) (us : Nat) : Nat × State :=
  if (cellKind c = 1 ∨ cellKind c = 2) ∧ us ≠ 0 then (0x0109, s)
  else if s.leafSt c = .faulted then (0x0203, s)
  else
    (0, (s.parts_ c).foldl (fun s k => s.modCell k fun x =>
      { x with nextPolicy := some (manual, if us = 0 then x.idleUs else BitVec.ofNat 24 us) }) s)

/-- The direct member of a group through which a leaf is reached. -/
def directMember (g leaf : Nat) : Nat :=
  ((members g).find? fun m => m == leaf || (isGroup m && (members m).contains leaf)).getD leaf

/-- A command to the module does not reach the leaves of a die that is FAULTED (R51). -/
def State.cutOff (s : State) (g leaf : Nat) : Bool :=
  let m := directMember g leaf
  isGroup m && s.showSt m == .faulted

/-- Apply one of them at a leaf, or at every leaf of a group (R66); a leaf of a FAULTED die refuses. -/
def State.sleepAt (s : State) (c : Nat) (f : State → Nat → Nat × State) : Res :=
  if isGroup c then
    if s.showSt c = .faulted then refuse 0x0203 0 s
    else
      let ls := leaves c
      let r := ls.foldl (fun (r : State × Nat × List (Nat × Nat) × Nat) k =>
        let (s, ok, no, skip) := r
        if !s.maySleep k then (s, ok, no, skip + 1)
        else if s.cutOff c k then (s, ok, no ++ [(k, 0x0203)], skip)
        else
          let (status, t) := f s k
          if status = 0 then (t, ok + 1, no, skip) else (s, ok, no ++ [(k, status)], skip)) (s, 0, [], 0)
      let (s, ok, no, skip) := r
      let low := minBy Prod.fst no
      doneWith (beBytes 2 0 ++ beBytes 2 skip ++ beBytes 2 no.length ++ beBytes 2 ok ++
        (match low with
        | some (k, status) => beBytes 4 k ++ beBytes 4 status
        | none => zeros 8)) s
  else
    let (status, t) := f s c
    if status = 0 then done t else refuse status 0 s

/-- SLEEP, WAKE and SLEEP_POLICY address groups and the leaves that may sleep (R66). -/
def sleepsOn (s : State) (c : Nat) : Bool := isGroup c || s.maySleep c

/-- SLEEP (R24 to R26, R51, R66). -/
def opSleep : Op where
  code := 0x0006
  len := exactly 1
  on := sleepsOn
  classes := any012
  run r s :=
    let bad := badWord (r.word 0) 1
    if bad ≠ 0 then refuse bad 0 s else s.sleepAt r.cell fun s c => s.sleepLeaf c (bitOf (r.word 0) 0)

/-- SLEEP (R66). -/
def execSleep (pk : Pkt) (s : State) : Host.Outcome State Fault Refusal := .next (submit opSleep pk s)

/-- WAKE (R25, R26, R51, R66). -/
def opWake : Op where
  code := 0x0007
  len := exactly 1
  on := sleepsOn
  classes := any012
  run r s :=
    let bad := badWord (r.word 0) 1
    if bad ≠ 0 then refuse bad 0 s else s.sleepAt r.cell fun s c => s.wakeLeaf c (bitOf (r.word 0) 0)

/-- WAKE (R25). -/
def execWake (pk : Pkt) (s : State) : Host.Outcome State Fault Refusal := .next (submit opWake pk s)

/-- SLEEP_POLICY (R27, R51, R66). -/
def opSleepPolicy : Op where
  code := 0x0009
  len := exactly 1
  on := sleepsOn
  classes := any012
  run r s :=
    let w := r.word 0
    let bad := badWord w 0xFFFFFF01
    if bad ≠ 0 then refuse bad 0 s
    else s.sleepAt r.cell fun s c => s.policyLeaf c (bitOf w 0) (bits w 31 8)

/-- SLEEP_POLICY (R27). -/
def execSleepPolicy (pk : Pkt) (s : State) : Host.Outcome State Fault Refusal := .next (submit opSleepPolicy pk s)

/-! ### IDENTIFY and QUERY -/

/-- The bytes of IDENTIFY (R660). -/
def State.identity (s : State) (c : Nat) : Bytes :=
  let ms := members c
  let spare : Nat := if cellKind c = 0x15 then ((tabGet none s.spares (cellIndex c)).map (· % 13)).getD 0xFF else 0xFF
  beBytes 4 c ++ beBytes 1 (cellKind c) ++ beBytes 1 (pathOf c).length ++ padTo 14 (pathOf c) ++ beBytes 1 ms.length ++
    beBytes 1 spare ++ zeros 2 ++ wordBytes (if c = cellModule then s.vixia.fuses.serial else 0) ++
    ms.flatMap (beBytes 4)

/-- IDENTIFY (R65, R660). -/
def opIdentify : Op where
  code := 0x0000
  len := exactly 0
  on _ _ := true
  classes _ := [0, 1, 2, 3]
  run r s := doneWith (s.identity r.cell) s

/-- IDENTIFY (R660). -/
def execIdentify (pk : Pkt) (s : State) : Host.Outcome State Fault Refusal := .next (submit opIdentify pk s)

/-- The code of OPSTATE (R337). -/
def OpState.code : OpState → Nat
  | .idle => 0 | .active => 1 | .halted => 2 | .redrive => 3

/-- A queued start in a context's QUEUE (R337). -/
def StartRef.word (r : StartRef) : Word := pack [(32, r.tag.toNat), (28, r.ring % 16), (0, r.entry)]

/-- The 128 bytes of a context (R337). -/
def State.ctxBytes (s : State) (x : Nat) : Bytes :=
  let c := s.ctx x
  beBytes 1 (c.owner.getD 0xFF) ++ beBytes 1 (s.cst (cellNo 0x0D x)).code ++ beBytes 1 c.op.code ++
    beBytes 1 c.queue.length ++ beBytes 1 c.cls ++ beBytes 1 (b1 c.clsValid + 2 * (s.ctxCp x % 2)) ++
    beBytes 1 c.cfg.busRetry ++ beBytes 1 c.cfg.pathCount ++ padTo 8 c.cfg.paths ++ [c.cfg.pathMask] ++
    beBytes 1 c.pathCur ++ beBytes 1 c.cfg.devPathLen ++ beBytes 1 (c.cur.ring % 16) ++ beBytes 4 c.cur.tag.toNat ++
    padTo 8 c.cfg.devPath ++ beBytes 8 c.program ++ beBytes 8 c.curEntry ++ beBytes 4 c.entryIndex.toNat ++
    beBytes 4 c.byteOffset.toNat ++ beBytes 4 c.cur.entry ++ beBytes 4 c.seq.toNat ++
    padTo 64 (c.queue.flatMap fun r => wordBytes r.word)

/-- A partition's settings in the layout of R472. -/
def PartCfg.bytes (p : PartCfg) : Bytes :=
  wordBytes p.htroot ++ wordBytes p.entryPc ++ wordBytes p.stackBase ++ beBytes 4 p.stackStride ++
    beBytes 1 p.procsMax ++ zeros 1 ++ beBytes 2 p.ringAuth.toNat ++ wordBytes p.mboxBase ++ beBytes 1 p.mboxLog2 ++
    zeros 7 ++ wordBytes p.mgrProcs ++ zeros 8

/-- A partition's settings from the bytes of R472. -/
def partCfgOf (b : Bytes) : PartCfg :=
  { htroot := wordAt b 0, entryPc := wordAt b 1, stackBase := wordAt b 2, stackStride := numAt b 24 4,
    procsMax := numAt b 28 1, ringAuth := BitVec.ofNat 16 (numAt b 30 2), mboxBase := wordAt b 4,
    mboxLog2 := numAt b 40 1, mgrProcs := wordAt b 6 }

/-- A class's definition in the layout of R415. -/
def ClassDef.bytes (d : ClassDef) : Bytes :=
  beBytes 4 d.l ++ beBytes 4 d.rho ++ beBytes 1 d.sigma ++ zeros 1 ++ beBytes 2 d.maxOps ++ beBytes 4 d.maxEntries ++
    beBytes 4 d.maxElements ++ beBytes 4 d.maxBytes ++ beBytes 4 d.partnerNs ++ beBytes 2 d.lateMs ++ zeros 18

/-- A class's definition from the bytes of R415. -/
def classDefOf (b : Bytes) : ClassDef :=
  { l := numAt b 0 4, rho := numAt b 4 4, sigma := numAt b 8 1, maxOps := numAt b 10 2, maxEntries := numAt b 12 4,
    maxElements := numAt b 16 4, maxBytes := numAt b 20 4, partnerNs := numAt b 24 4, lateMs := numAt b 28 2 }

/-- The settings in force as QUERY gives them (R661). -/
def State.inForce (s : State) (c : Nat) : Bytes :=
  let i := cellIndex c
  let words (l : List Word) : Bytes := l.flatMap wordBytes
  let pairWords (p : Nat) : Bytes :=
    let x := s.pair p
    words [x.chk (s.pairMode p), x.cnt, x.loc, x.cacheWord]
  match cellKind c with
  | 0x01 => pairWords i
  | 0x0A => pairWords (52 + i)
  | 0x04 => words (s.chanWords i)
  | 0x05 => words [ofBool (tabGet false s.io.groupPcie i)]
  | 0x06 => words (s.port i).words
  | 0x07 => words (s.engine i).words
  | 0x08 => words (s.engine (4 + i)).words
  | 0x0C => words (s.queueWords i)
  | 0x0D => s.ctxBytes i
  | 0x0E => (s.classDef i).bytes
  | 0x0F => words (s.timer i).words
  | 0x10 => words (s.tansyStatus :: (List.range 16).map s.tansyActive)
  | 0x11 => words s.vixiaWords
  | 0x12 => if i = 0 then [] else words (s.journalWords (i - 1))
  | 0x14 => (s.part i).cfg.bytes
  | 0x17 => words s.bundleWords
  | _ => []

/-- The resources of a kind that a partition holds (R478). -/
def State.holdCount (s : State) (n kind : Nat) : Nat :=
  match kind with
  | 1 => ((s.procsOf n).filter fun q => q.whole).length
  | 2 => ((s.procsOf n).filter fun q => !q.whole).length
  | 3 => (s.parts.owner.filter fun e => e.2 == some n).length
  | 4 => (s.io.ctxs.filter fun e => e.2.owner == some n).length
  | 5 => (s.queues.filter fun e => e.2.owner == some n).length
  | 6 => (s.timers.filter fun e => e.2.owner == some n).length
  | 7 => (s.io.classOwner.filter fun e => e.2 == some n).length
  | 8 => (s.parts.ports.filter fun u => u.part == n).length
  | 9 => (s.parts.engines.filter fun u => u.part == n).length
  | _ => (s.sources.filter fun e => e.2.owner == some n).length

/-- The module's path from the outermost bundle (R577). -/
def State.bundlePath (s : State) : Bytes :=
  if s.bundle.bstate = .standalone then [] else s.bundleHome ++ [BitVec.ofNat 8 s.bundle.index]

/-- The extra words of QUERY (R661). -/
def State.extraWords (s : State) (c : Nat) : Bytes :=
  match cellKind c with
  | 0x14 => ((List.range 10).map fun k => s.holdCount (cellIndex c) (k + 1)).flatMap (beBytes 4) ++ zeros 8
  | 0x17 => beBytes 1 s.bundlePath.length ++ padTo 14 s.bundlePath ++ zeros 1
  | _ => []

/-- The bytes of QUERY (R661). -/
def State.queryBytes (s : State) (c : Nat) : Bytes :=
  let x := s.cell c
  let sleeps := !isGroup c && s.maySleep c
  let pair := cellKind c == 1 || cellKind c == 2
  let force := s.inForce c
  let staged := x.staged.getD []
  let extra := s.extraWords c
  beBytes 1 (s.showSt c).code ++ beBytes 1 (b1 (sleeps && x.manual)) ++ beBytes 2 (force.length / 8) ++
    beBytes 2 (staged.length / 8) ++ beBytes 2 (extra.length / 8) ++
    (if isGroup c then (countSt (s.memberSts c)).flatMap (beBytes 1) else zeros 5) ++
    beBytes 3 (if sleeps ∧ !pair then s.idleDelay c else 0) ++ force ++ staged ++ extra

/-- QUERY (R65, R661). -/
def opQuery : Op where
  code := 0x0001
  len := exactly 0
  on _ _ := true
  classes _ := [0, 1, 2, 3]
  run r s := doneWith (s.queryBytes r.cell) s

/-- QUERY (R661). -/
def execQuery (pk : Pkt) (s : State) : Host.Outcome State Fault Refusal := .next (submit opQuery pk s)

/-! ### STOP -/

/-- Who may change the state of a cell (R340, R475, R478): a partition cell and the processors need a manager. -/
def startClasses (c : Nat) : List Nat :=
  if cellKind c = 0x14 ∨ cellKind c = 1 ∨ cellKind c = 2 then [1, 2] else [0, 1, 2]
def stopClasses (c : Nat) : List Nat := if cellKind c = 0x14 then [1, 2] else [0, 1, 2]
def resetClasses (c : Nat) : List Nat :=
  if cellKind c = 0x14 ∨ cellKind c = 0x0D ∨ cellKind c = 0x11 then [1, 2] else [0, 1, 2]
def changeClasses (c : Nat) : List Nat :=
  if [0x06, 0x07, 0x08, 0x0C, 0x0D, 0x14, 0x17].contains (cellKind c) then [1, 2] else [0, 1, 2]

/-- What STOP does at once to a cell that runs: a pair ends its window, a port's conversations fail over (R556), a HALTED
context cancels its queue (R341), a copy of the journal leaves service. -/
def State.stopEffect (s : State) (c : Nat) : State :=
  let i := cellIndex c
  match cellKind c with
  | 0x01 => s.toBoundary i
  | 0x0A => s.toBoundary (52 + i)
  | 0x06 => if (s.port i).cfg.mode = 1 then s.leaveService i else s
  | 0x0D => if (s.ctx i).op = .halted then s.cancelQueue i else s
  | 0x12 => if i = 0 then s else s.modCopy (i - 1) fun x => { x with inService := false }
  | _ => s

/-- What a cell leaves behind when it becomes STOPPED: a slice's array is empty (R272), an Ethernet or root port has no
link (R538), a membership holds no role and no context (R575, R593). -/
def State.stopLeaves (s : State) (c : Nat) : State :=
  let i := cellIndex c
  match cellKind c with
  | 0x03 => s.emptySliceWays i fun _ => true
  | 0x06 =>
    if 2 ≤ (s.port i).cfg.mode then
      (s.setLink i .down).modPort i fun p => { p with width := 0, rate := 0, flit := false }
    else s
  | 0x17 =>
    (s.modBundle fun b =>
      { b with bstate := .standalone, coordinator := false, members := [], sentManifest := none }).setCst
        (cellNo 0x0D 131071) .stopped
  | _ => s

/-- The cell becomes STOPPED. -/
def State.toStopped (s : State) (c : Nat) : State := (s.stopLeaves c).cellStops c

/-- The cell is a context whose OPSTATE is HALTED. -/
def State.haltedCtx (s : State) (c : Nat) : Bool := cellKind c == 0x0D && (s.ctx (cellIndex c)).op == .halted

/-- STOP at one leaf (R51): whether its completion is owed, and the state after it. A HALTED context stops at once (R341). -/
def State.stopOne (s : State) (c : Nat) (who : Option Asker) : Bool × State :=
  let x := s.cell c
  if (s.cst c = .running ∨ s.cst c = .draining) ∧ s.haltedCtx c then (false, (s.stopEffect c).toStopped c)
  else
  match s.cst c with
  | .stopped => (false, s)
  | .faulted => (false, s)
  | .draining => (true, s.modCell c fun x => { x with stops := x.stops ++ who.toList })
  | st =>
    if st = .asleep ∧ !x.waking then (false, s.toStopped c)
    else
      let s := s.stopEffect c
      if s.admitted c then
        (true, s.modCell c fun x => { x with st := .draining, waking := false, sleepAsked := false,
                                             stops := x.stops ++ who.toList })
      else (false, s.toStopped c)

/-- STOP of a processor's cell on behalf of its partition (R476): one whose clock is stopped wakes first. -/
def State.stopProc (s : State) (c : Nat) : State :=
  if s.cst c = .asleep then
    if (s.cell c).waking then s else s.modCell c fun x => { x with waking := true }
  else (s.stopOne c none).2

/-- STOP of a partition (R476): whether its completion is owed. -/
def State.stopPart (s : State) (n : Nat) (who : Option Asker) : Bool × State :=
  let c := cellNo 0x14 n
  match s.cst c with
  | .stopped => (false, s)
  | .faulted => (false, s)
  | .draining => (true, s.modCell c fun x => { x with stops := x.stops ++ who.toList })
  | _ =>
    let s := (s.procsOf n).foldl (fun s q => s.stopProc (s.procCell q)) s
    if s.admitted c then (true, s.modCell c fun x => { x with st := .draining, stops := x.stops ++ who.toList })
    else (false, s.cellStops c)

/-- STOP of any leaf. The cell of a split pair stops both of its cores. -/
def State.stopLeaf (s : State) (c : Nat) (who : Option Asker) : Bool × State :=
  if cellKind c = 0x14 then s.stopPart (cellIndex c) who
  else if cellKind c = 1 ∧ s.isSplit (cellIndex c) then
    (false, (s.parts_ c).foldl (fun s k => (s.stopOne k none).2) s)
  else s.stopOne c who

/-- Why a leaf of a kind refuses STOP in a state in which R51 would allow it: the status and the detail word. -/
def State.stopRefusal (s : State) (c auth : Nat) : Option (Nat × Nat) :=
  if c = cellTansy ∨ (c = cellVixia ∧ s.cst c = .running) then some (0x02C0, 0)
  else if c = cellNo 0x14 0 ∧ auth ≠ 2 then some (0x0283, 0)
  else if cellKind c = 4 ∧ (s.setOfChan (cellIndex c)).isSome ∧ (s.cst c = .running ∨ s.cst c = .asleep) then
    some (0x0236, 0)
  else if s.leafSt c = .faulted then some (0x0203, 0)
  else none

/-- STOP (R41, R51, R65, R341, R476). A group stops every leaf that does not refuse. -/
def opStop : Op where
  code := 0x0002
  len := exactly 0
  on _ _ := true
  classes := stopClasses
  run r s :=
    let c := r.cell
    let auth := r.pk.auth.toNat
    if isGroup c then
      if s.showSt c = .faulted then refuse 0x0203 0 s
      else
        let s := (leaves c).foldl (fun s k =>
          if s.cutOff c k ∨ (s.stopRefusal k auth).isSome then s else (s.stopLeaf k none).2) s
        if (leaves c).any fun k => s.leafSt k == .draining then
          accepted (s.modCell c fun x => { x with stops := x.stops ++ [r.who] })
        else done s
    else
      match s.stopRefusal c auth with
      | some (status, detail) => refuse status detail s
      | none =>
        let (owed, t) := s.stopLeaf c (some r.who)
        if owed then accepted t else done t

/-- STOP (R51). -/
def execStop (pk : Pkt) (s : State) : Host.Outcome State Fault Refusal := .next (submit opStop pk s)

/-- The last admitted work of a DRAINING cell completes (R51): it is STOPPED. A partition also stops the processors that came
to run for it meanwhile (chapter 11, Collisions); a group answers its STOPs once no leaf of it is DRAINING. -/
def State.drained_ (s : State) (c : Nat) : State :=
  if isGroup c then
    if (s.cell c).stops.isEmpty ∨ (leaves c).any fun k => s.leafSt k == .draining then s
    else
      let w := (s.cell c).stops
      w.foldl (fun s w => s.complete w 0 0 []) (s.modCell c fun x => { x with stops := [] })
  else if s.cst c ≠ .draining then s
  else
    let s := if cellKind c = 0x14 then
        (s.procsOf (cellIndex c)).foldl (fun s q =>
          if s.cst (s.procCell q) = .running then s.stopProc (s.procCell q) else s) s
      else s
    if s.admitted c then s else s.toStopped c

/-- DRAIN_COMPLETE (R51). -/
def execDrainComplete (cell : Nat) (s : State) : Host.Outcome State Fault Refusal := .next (s.drained_ cell)

/-! ### CHANGE -/

/-- The parameter length that CHANGE of a kind takes, in words (R282, R339, R415, R462, R472, R532, R535, R536, R572). -/
def changeLen (c : Nat) : Nat :=
  match cellKind c with
  | 0x05 | 0x07 | 0x08 | 0x0C => 1
  | 0x06 => 2
  | 0x0D => 4
  | 0x0E => 6
  | 0x14 => 8
  | 0x17 => 24
  | _ => 0

/-- What is wrong with the settings of a port (R536). -/
def portFault (b : Bytes) : Nat :=
  let mode := numAt b 0 1
  let width := numAt b 1 1
  let eth := mode == 2 || mode == 3
  let frame := numAt b 14 2
  if numAt b 7 1 ≠ 0 then 0x0105
  else if 4 < mode ∨ 1 < numAt b 2 1 ∨ 63 < numAt b 6 1 then 0x0109
  else if (1 ≤ mode ∧ mode ≤ 3 ∧ width ≠ 1) ∨ (mode = 4 ∧ width ≠ 4 ∧ width ≠ 8 ∧ width ≠ 16) then 0x0109
  else if mode = 1 ∧ (numAt b 3 1 = 0 ∨ 15 < numAt b 3 1 ∨ numAt b 4 2 < 20) then 0x0109
  else if (!eth ∧ (!allZero (slice b 8 6) ∨ frame ≠ 0)) ∨ (eth ∧ (frame < 1518 ∨ 9216 < frame)) then 0x0109
  else 0

/-- What is wrong with the settings of a membership (R572). -/
def memberFault (b : Bytes) : Nat :=
  let n := numAt b 8 1
  let parent := numAt b 9 1
  let live := numAt b 10 2
  if !allZero (slice b 13 3) ∨ !allZero (slice b 184 8) then 0x0105
  else if n < 2 ∨ 16 < n ∨ (15 < parent ∧ parent ≠ 0xFF) ∨ live < 10 ∨ 10000 < live ∨ 1 < numAt b 12 1 then 0x0109
  else if !allZero (slice b (24 + 8 * n) (128 - 8 * n)) then 0x0109
  else if parent = 0xFF ∧ (!allZero (slice b 16 8) ∨ !allZero (slice b 152 32)) then 0x0109
  else 0

/-- What is wrong with the settings of a context (R339); what START names is judged there. -/
def ctxFault (b : Bytes) : Nat :=
  let n := numAt b 1 1
  let dev := numAt b 3 1
  if !allZero (slice b 4 4) ∨ !allZero (slice b 24 8) ∨ (n ≤ 8 ∧ !allZero (slice b (8 + n) (8 - n))) ∨
      (dev ≤ 8 ∧ !allZero (slice b (16 + dev) (8 - dev))) then 0x0105
  else if 15 < numAt b 0 1 ∨ 8 < n ∨ dev = 0 ∨ 8 < dev then 0x0109
  else 0

/-- What is wrong with the settings that CHANGE carries to a cell: a reserved byte, or a value out of its range where START is
not said to judge it (R10, R339, R415, R473). -/
def changeFault (c : Nat) (b : Bytes) : Nat :=
  match cellKind c with
  | 0x05 | 0x07 | 0x08 => badWord (wordAt b 0) 1
  | 0x0C =>
    if badWord (wordAt b 0) 0x7F7F000000000000 ≠ 0 then badWord (wordAt b 0) 0x7F7F000000000000
    else if 95 < bits (wordAt b 0) 62 56 then 0x0109 else 0
  | 0x06 => portFault b
  | 0x0D => ctxFault b
  | 0x0E => if numAt b 9 1 ≠ 0 ∨ !allZero (slice b 30 18) then 0x0105 else 0
  | 0x14 => if numAt b 29 1 ≠ 0 ∨ !allZero (slice b 41 7) ∨ !allZero (slice b 56 8) then 0x0105 else 0
  | 0x17 => memberFault b
  | _ => 0

/-- The lowest port of a port group that is not STOPPED (R535). -/
def State.livePort (s : State) (g : Nat) : Option Nat :=
  ((List.range 16).map fun l => 16 * g + l).find? fun p => s.cst (cellNo 6 p) != .stopped

/-- Why a leaf refuses CHANGE: the status and the detail word (R51, R491, R535, R615, R639). -/
def State.changeRefusal (s : State) (c auth : Nat) (b : Bytes) : Option (Nat × Nat) :=
  let st := s.leafSt c
  if c = cellTansy ∨ (c = cellVixia ∧ st = .running) then some (0x02C0, 0)
  else if b ≠ [] ∧ changeFault c b ≠ 0 then some (changeFault c b, 0)
  else if c = cellNo 0x14 0 ∧ auth ≠ 2 then some (0x0283, 0)
  else if st = .faulted then some (0x0203, 0)
  else
    match (if cellKind c = 5 then s.livePort (cellIndex c) else none) with
    | some p => some (0x0201, cellNo 6 p)
    | none => if st = .stopped then none else some (0x0201, 0)

/-- Stage settings (R53). -/
def State.stageSettings (s : State) (c : Nat) (b : Bytes) : State :=
  s.modCell c fun x => { x with staged := if b = [] then none else some b }

/-- The lengths that CHANGE takes where the cell is known. -/
def changeLenOk (c : Option Nat) (pk : Pkt) : Bool :=
  pktUnits pk == 0 ||
    match c with
    | some c => isGroup c || c == cellTansy || c == cellVixia || pktUnits pk == changeLen c
    | none => true

/-- CHANGE (R53, R57). Every leaf of a FAULTED die counts as a FAULTED member skipped, and a group whose members are all
FAULTED, its own gateway being intact, answers DONE with nothing staged: both are the model's choice (log entry 86). -/
def opChange : Op where
  code := 0x0003
  len := changeLenOk
  on _ _ := true
  classes := changeClasses
  run r s :=
    let c := r.cell
    let b := r.pk.params
    let auth := r.pk.auth.toNat
    if isGroup c then
      let ms := members c
      let st (k : Nat) : CState := if isGroup k then s.dieSt k else s.leafSt k
      match minBy id (ms.filter fun k => st k != .stopped && st k != .faulted) with
      | some k => refuse 0x0201 k s
      | none =>
        if s.cst c = .faulted then refuse 0x0203 0 s
        else
          let ls := leaves c
          let (dead, live) := ls.partition fun k => s.cutOff c k || s.leafSt k == .faulted
          let take := live.filter fun k => b == [] || pktUnits r.pk == changeLen k
          match minBy id (take.filter fun k => (s.changeRefusal k auth b).isSome) with
          | some k => refuse ((s.changeRefusal k auth b).map Prod.fst |>.getD 0) k s
          | none =>
            doneWith (beBytes 2 0 ++ beBytes 2 (live.length - take.length) ++ beBytes 2 take.length ++
              beBytes 2 dead.length) (take.foldl (fun s k => s.stageSettings k b) s)
    else
      match s.changeRefusal c auth b with
      | some (status, detail) => refuse status detail s
      | none => done (s.stageSettings c b)

/-- CHANGE (R53). -/
def execChange (pk : Pkt) (s : State) : Host.Outcome State Fault Refusal := .next (submit opChange pk s)

end Sys2Proof.Machine
end

