-- ==== Sys2Proof/Machine/Starts.lean ====
section
/-! DEFINITION. START and RESET (chapter 02), with what each kind of cell does under them. -/

namespace Sys2Proof.Machine

/-! ### START of each kind -/

/-- A cell is RUNNING with no staged settings left (R54). -/
def State.nowRuns (s : State) (c : Nat) : State :=
  s.modCell c fun x => { x with st := .running, staged := none, waking := false, sleepAsked := false, idleFrom := s.now }

/-- The initial state of a processor (R474). -/
def State.initialArch (s : State) (q : ProcShare) : Arch :=
  let c := (s.part q.part).cfg
  { Arch.reset with
    pc := c.entryPc
    ps := 0x101#64
    ssp := c.stackBase + BitVec.ofNat 64 ((q.num + 1) * c.stackStride)
    k := tabPut 0 Arch.reset.k 18 c.htroot }

/-- A pair stands before its first window. -/
def Pair.afresh (p : Pair) (a : Arch) : Pair :=
  { p with opened := Window.empty 0, closed := [], committed := [], ckpt := a, restarting := false, failRun := 0,
           failing := none, owed := false, ckptLost := false, sparedOut := false, injected := none }

/-- A processor of a partition starts (R474). -/
def State.startProc (s : State) (q : ProcShare) : State :=
  let a := s.initialArch q
  let s := s.modCore q.core fun _ => { Core.reset with arch := a }
  let s := if q.whole then s.modPair (pairOfCore q.core) fun p => p.afresh a else s
  s.nowRuns (s.procCell q)

/-- START of a core pair, or of a core of a split pair (R475). -/
def State.startCore (s : State) (c core : Nat) : Res :=
  match s.proc core with
  | none => refuse 0x0280 c s
  | some q =>
    if s.cst (cellNo 0x14 q.part) ≠ .running then refuse 0x0202 (cellNo 0x14 q.part) s else done (s.startProc q)

/-- START of a split pair starts its two cores. -/
def State.startSplit (s : State) (c p : Nat) : Res :=
  let r := s.startCore c (2 * p)
  if r.status ≠ 0 then { r with state := s }
  else
    let r2 := r.state.startCore c (2 * p + 1)
    if r2.status ≠ 0 then { r2 with state := s } else r2

/-- START of a channel (R302). -/
def State.startChan (s : State) (c ch : Nat) (who : Option Asker) : Res :=
  if (s.setOfChan ch).isNone then refuse 0x0401 c s
  else if !(s.chan ch).lost then done (s.nowRuns c)
  else if (s.chan ch).rebuild.isSome then refuse 0x0204 0 s
  else
    accepted ((s.nowRuns c).modChan ch fun x => { x with rebuild := some 0, starter := who })

/-- The settings of a port from the bytes of R536. -/
def portCfgOf (b : Bytes) : PortCfg :=
  { mode := numAt b 0 1, width := numAt b 1 1, bundle := (b.getD 2 0).getLsbD 0, retryMax := numAt b 3 1,
    rto := numAt b 4 2, owner := numAt b 6 1, mac := slice b 8 6, maxFrame := numAt b 14 2 }

/-- The lanes that a port claims (R537). -/
def PortCfg.lanes (c : PortCfg) (p : Nat) : List Nat :=
  if c.mode = 0 then [] else if c.mode = 4 then (List.range c.width).map (p + ·) else [p]

/-- The results of R79 for a lane held by another cell. -/
def conflictBytes (holder lane : Nat) : Bytes :=
  [3, BitVec.ofNat 8 (pathOf holder).length] ++ padTo 14 (pathOf holder) ++ beBytes 4 lane ++ zeros 4

/-- START of a port (R537, R556, R78, R79). Where other cells hold several of its lanes, the reply names the holder of the
lowest of them: DESIGN CHOICE (log entry 91). -/
def State.startPort (s : State) (c p : Nat) : Res :=
  let old := (s.port p).cfg
  let cfg := match (s.cell c).staged with
    | some b => portCfgOf b
    | none => old
  let pcie := tabGet false s.io.groupPcie (groupOfPort p)
  let lanes := cfg.lanes p
  if (cfg.mode = 4 ∧ (!pcie ∨ p % 16 % cfg.width ≠ 0)) ∨ (1 ≤ cfg.mode ∧ cfg.mode ≤ 3 ∧ pcie) then refuse 0x02A0 c s
  else
    match minBy Claim.index (s.claims.filter fun k : Claim => k.kind == 3 && k.holder != c && lanes.contains k.index) with
    | some k => ⟨0x0301, k.holder, conflictBytes k.holder k.index, s⟩
    | none =>
      let s := { s with claims := (s.claims.filter fun k : Claim => k.kind != 3 || k.holder != c) ++
                          lanes.map fun l => ({ kind := 3, index := l, holder := c } : Claim) }
      let s := if old.mode = 1 ∧ cfg.mode ≠ 1 then s.setLink p .down else s
      let s := s.modPort p fun x => { x with cfg := cfg, retrain := x.retrain && cfg.mode == 1 }
      let s := if cfg.mode = 1 ∧ (s.port p).link = .down then
          (s.setLink p .training).modPort p fun x => { x with peer := none, retrain := false }
        else s
      done (s.nowRuns c)

/-- The settings of a queue from the word of R462. -/
def QueueCfg.change (q : QueueCfg) (w : Word) : QueueCfg :=
  { q with line := BitVec.ofNat 6 (bits w 53 48), intrEn := bitOf w 54, proc := BitVec.ofNat 7 (bits w 62 56) }

/-- The settings of a context from the bytes of R339. -/
def ctxCfgOf (b : Bytes) : CtxCfg :=
  { busRetry := numAt b 0 1 % 16, pathCount := numAt b 1 1, pathMask := b.getD 2 0, devPathLen := numAt b 3 1,
    paths := slice b 8 8, devPath := slice b 16 8 }

/-- The lowest index that PATH_MASK allows. -/
def CtxCfg.firstPath (c : CtxCfg) : Nat := ((List.range 8).find? fun i => c.pathMask.getLsbD i).getD 0

/-- START of a context (R339). -/
def State.startCtx (s : State) (c x : Nat) : Res :=
  let cfg := match (s.cell c).staged with
    | some b => ctxCfgOf b
    | none => (s.ctx x).cfg
  let ports := (cfg.paths.take cfg.pathCount).map BitVec.toNat
  let given (p : Nat) : Bool := s.parts.ports.any fun u => u.unit == p && some u.part == (s.ctx x).owner
  if cfg.pathCount = 0 ∨ 2 ^ cfg.pathCount ≤ cfg.pathMask.toNat ∨
      ports.any (fun p => (s.port p).cfg.mode != 1 || !given p) then refuse 0x0109 0 s
  else
    let s := if (s.cell c).staged.isSome then s.modCtx x fun k => { k with cfg := cfg, pathCur := cfg.firstPath } else s
    done (s.nowRuns c)

/-- A field of a class's definition is outside its range (R415). -/
def ClassDef.outside (d : ClassDef) : Bool :=
  decide (d.l < 50000 ∨ 1000000000 < d.l ∨ d.l % 10 ≠ 0 ∨ d.rho = 0 ∨ 1000000 < d.rho ∨ d.sigma = 0 ∨ 9 < d.sigma ∨
    d.maxOps = 0 ∨ d.maxEntries = 0 ∨ 1000000 < d.maxEntries ∨ 16000000 < d.maxElements ∨
    1000000000 < d.partnerNs ∨ d.lateMs = 0 ∨ 1000 < d.lateMs)

/-- START of a class (R415, R416). -/
def State.startClass (s : State) (c n : Nat) : Res :=
  let d := match (s.cell c).staged with
    | some b => classDefOf b
    | none => s.classDef n
  if d.outside then refuse 0x0109 0 s
  else
    match s.admission { s.plan with defs := sortBy Prod.fst (s.runningClasses ++ [(n, d)]) } with
    | some i => infeasible i s
    | none => done ((s.modIo fun o => { o with classes := tabPut ClassDef.none o.classes n d }).nowRuns c)

/-- A field of a partition's settings breaks the table of R472. -/
def PartCfg.breaks (p : PartCfg) (n : Nat) : Bool :=
  decide (p.htroot.toNat % 4096 ≠ 0 ∨ p.entryPc.toNat % 3 ≠ 0 ∨ p.stackBase.toNat % 256 ≠ 0 ∨ p.stackStride % 256 ≠ 0 ∨
    p.stackStride < 4096 ∨ 96 < p.procsMax ∨ (p.ringAuth ≠ 0 ∧ n ≠ 0) ∨ p.mboxBase.toNat % 4096 ≠ 0 ∨
    (p.mboxLog2 = 0 ∧ p.mboxBase ≠ 0) ∨ 10 < p.mboxLog2)

/-- The mailbox region of a partition lies wholly in one granule assigned to it (R473). -/
def State.mailboxPlaced (s : State) (n : Nat) (p : PartCfg) : Bool :=
  if p.mboxLog2 = 0 then true
  else
    match s.partRange n p.mboxBase.toNat (64 + 128 * 2 ^ p.mboxLog2) .read with
    | none => false
    | some (ps, _) =>
      match ps with
      | [] => false
      | q :: _ =>
        ps.all (fun r => r.1 / 2 ^ 30 == q.1 / 2 ^ 30 && (r.1 + r.2 - 1) / 2 ^ 30 == q.1 / 2 ^ 30) &&
          s.owner (q.1 / 2 ^ 30) == some n

/-- Vixia enables ring 0 of partition 0 at the partition's start (R69), with the size and the bases that the board record
gives; a size outside 1 to 12 halts the ring as any other enabling does (R67, R68). -/
def State.ringZero (s : State) : State :=
  if (s.ring 0).enable then s
  else
    let (log2, cmd, reply) := Config.boardRing0 (imgBody (s.image s.vixia.slot 5))
    (s.modRing 0 fun x => { x with cmdBase := cmd &&& baseMask, replyBase := reply &&& baseMask }).enableRing 0 true
      (BitVec.ofNat 4 log2)

/-- START of a partition (R467, R473, R667, R69). -/
def State.startPart (s : State) (c n : Nat) : Res :=
  let cfg := match (s.cell c).staged with
    | some b => partCfgOf b
    | none => (s.part n).cfg
  let t := s.modPart n fun p => { p with cfg := cfg, hostStage := true, started := true }
  if cfg.breaks n ∨ cfg.procsMax < (s.procsOf n).length ∨ !t.mailboxPlaced n cfg then refuse 0x0109 0 s
  else
    let t := (List.range 16).foldl (fun t r => t.modRing (16 * n + r) fun x =>
      { x with authMax := b1 (cfg.ringAuth.getLsbD r) }) t
    let t := (if n = 0 then t.ringZero else t).nowRuns c
    done ((t.procsOf n).foldl (fun t q => if t.cst (t.procCell q) = .stopped then t.startProc q else t) t)

/-- The index of a module in the settings of a membership (R572). -/
def memberIndex (b : Bytes) (identity : Word) : Option Nat :=
  (List.range (cfgMembers b)).find? fun m => cfgMember b m == identity

/-- START of the membership (R572, R575, R593). -/
def State.startMembership (s : State) (c : Nat) : Res :=
  match (s.cell c).staged <|> s.bundle.cfg with
  | none => refuse 0x0109 0 s
  | some b =>
    match memberIndex b s.vixia.fuses.serial with
    | none => refuse 0x0109 0 s
    | some i =>
      if numAt b 0 8 = 0 ∨ !s.io.ports.any (fun e => e.2.cfg.bundle) then refuse 0x0109 0 s
      else
        done (((s.modBundle fun x => { x with cfg := some b, index := i, bstate := .forming }).setCst
          (cellNo 0x0D 131071) .running).nowRuns c)

/-- START of a copy of the journal returns it to service (R395). -/
def State.startCopy (s : State) (c d : Nat) : Res :=
  if (s.copy d).rebuilding then refuse 0x0204 0 s
  else done ((s.modCopy d fun x => { x with inService := true }).nowRuns c)

/-- START of a leaf that is STOPPED (R51, R54). -/
def State.startStopped (s : State) (c : Nat) (who : Option Asker) : Res :=
  let i := cellIndex c
  let w : Option Word := (s.cell c).staged.map fun b => wordAt b 0
  match cellKind c with
  | 0x01 => if s.isSplit i then s.startSplit c i else s.startCore c (2 * i)
  | 0x02 => s.startCore c i
  | 0x04 => s.startChan c i who
  | 0x05 =>
    done ((match w with
      | some w => s.modIo fun o => { o with groupPcie := tabPut false o.groupPcie i (bitOf w 0) }
      | none => s).nowRuns c)
  | 0x06 => s.startPort c i
  | 0x07 | 0x08 =>
    let e := engineOf c
    let s := match w with
      | some w => s.modEngine e fun x => { x with test := bitOf w 0 }
      | none => s
    done ((s.startEngine e).nowRuns c)
  | 0x0C =>
    done ((match w with
      | some w => s.modQueue i fun x => { x with cfg := x.cfg.change w }
      | none => s).nowRuns c)
  | 0x0D => s.startCtx c i
  | 0x0E => s.startClass c i
  | 0x12 => if i = 0 then done (s.nowRuns c) else s.startCopy c (i - 1)
  | 0x14 => s.startPart c i
  | 0x17 => s.startMembership c
  | _ => done (s.nowRuns c)

/-- START of a leaf in any state (R51, R615, R639). -/
def State.startLeaf (s : State) (c : Nat) (who : Option Asker) : Res :=
  let st := s.leafSt c
  if c = cellTansy ∨ (c = cellVixia ∧ st = .running) then refuse 0x02C0 0 s
  else
    match st with
    | .faulted => refuse 0x0203 0 s
    | .draining => refuse 0x0204 0 s
    | .running | .asleep => done s
    | .stopped => s.startStopped c who

/-- The STOPPED leaves that a START of a group reaches (R56), in ascending order: a die of the module is reached while it
reports STOPPED. -/
def State.startable (s : State) (g : Nat) : List Nat :=
  sortBy id (((members g).flatMap fun m =>
    if isGroup m then if s.dieSt m == .stopped then members m else [] else [m]).filter fun k => s.leafSt k == .stopped)

/-- START of a group (R56): every STOPPED leaf, in ascending order of cell number, or none. -/
def State.startGroup (s : State) (g : Nat) (who : Asker) : Res :=
  if s.showSt g = .faulted then refuse 0x0203 0 s
  else
    let (t, bad, owed) := (s.startable g).foldl (fun (x : State × List (Nat × Nat × Bytes) × List Nat) k =>
      let (t, bad, owed) := x
      let r := t.startLeaf k none
      if r.status = 0 then (r.state, bad, owed)
      else if r.status = 1 then (r.state, bad, owed ++ [cellIndex k])
      else (t, bad ++ [(directMember g k, r.status, r.results)], owed)) (s, [], [])
    match minBy Prod.fst bad with
    | some (k, status, results) => ⟨status, k, results, s⟩
    | none =>
      if owed.isEmpty then done t
      else accepted (t.modMem fun m => { m with groupStarts := m.groupStarts ++ [⟨who, owed, false⟩] })

/-- START (R51, R54, R56). -/
def opStart : Op where
  code := 0x0004
  len := exactly 0
  on _ _ := true
  classes := startClasses
  run r s :=
    if isGroup r.cell then s.startGroup r.cell r.who
    else s.startLeaf r.cell (some r.who)

/-- START (R51). -/
def execStart (pk : Pkt) (s : State) : Host.Outcome State Fault Refusal := .next (submit opStart pk s)

/-! ### RESET of each kind -/

/-- The settings and claims of a cell return to reset; wake-hold counts are kept (R55). -/
def State.cellReset (s : State) (c : Nat) : State :=
  let s := { s with claims := s.claims.filter fun k => k.holder != c }
  s.modCell c fun x =>
    { x with st := .stopped, staged := none, manual := false, idleUs := 0, nextPolicy := none, sleepAsked := false,
             waking := false }

/-- A pair's registers at reset: its sticky bits and counters survive (R221). -/
def Pair.onReset (p : Pair) : Pair :=
  { Pair.reset with
    cloveFailed := p.cloveFailed, buscmpFailed := p.buscmpFailed, mismatch := p.mismatch, delayUe := p.delayUe,
    ckptUe := p.ckptUe, hardFailed := p.hardFailed, retries := p.retries, delayCe := p.delayCe, ckptCe := p.ckptCe,
    localised := p.localised, loc := p.loc }

/-- RESET of a checked pair: a sparing under way takes its work over first (R236), its caches are emptied, its
processor is at reset. -/
def State.resetPair (s : State) (p : Nat) : State :=
  let s := match (s.pair p).job with
    | some (.spare target (some w)) => (s.handOver p target true).complete w 0 0 []
    | some (.spare target none) => s.handOver p target false
    | _ => s
  let s := (coresOf p).foldl (fun s k => (s.emptyL1 k).modCore k fun _ => Core.reset) (s.emptyWays p fun _ => true)
  s.modPair p Pair.onReset

/-- A pair that passes its reset check on a die without a spare becomes the spare (R237): it holds no processor and sleeps. -/
def State.becomeSpare (s : State) (p : Nat) : State :=
  let s := { s with spares := tabPut none s.spares (p / 13) (some p) }
  (s.modParts fun t => { t with procs := t.procs.filter fun q => q.core != 2 * p }).setCst (cellNo 1 p) .asleep

/-- RESET of a context retires its entries (R394). Of its 128 bytes the owner, the class and SEQ stay. -/
def State.resetCtx (s : State) (x : Nat) : State :=
  let s := s.modIo fun o =>
    { o with journal := o.journal.filter fun e => e.2.ctx != x || e.2.state == 0, runs := tabErase o.runs x }
  s.modCtx x fun c =>
    { Ctx.reset with owner := c.owner, cls := c.cls, clsValid := c.clsValid, shift := c.shift, seq := c.seq }

/-- RESET of a partition (R477, R667). -/
def State.resetPart (s : State) (n : Nat) : State :=
  let s := s.modPart n fun p => { Part.reset with started := p.started }
  let s := (List.range 16).foldl (fun s r => s.modRing (16 * n + r) fun x =>
    { Ring.reset with outstanding := x.outstanding, outbox := x.outbox }) s
  (s.procsOf n).foldl (fun s q =>
    let s := s.modCore q.core fun _ => Core.reset
    if q.whole then s.modPair (pairOfCore q.core) fun p => p.afresh Arch.reset else s) s

/-- RESET of the membership: what it knows of the bundle goes; EPOCH, the sticky bits and what is owed stay. -/
def Bundle.onReset (b : Bundle) : Bundle :=
  { Bundle.reset with
    epoch := b.epoch, refusedDigest := b.refusedDigest, refusedVersion := b.refusedVersion,
    portMismatch := b.portMismatch, fenceSeen := b.fenceSeen, outbound := b.outbound, transit := b.transit, forwards := b.forwards,
    askers := b.askers, groups := b.groups, sends := b.sends }

/-- Vixia restarts from the boot ROM in the running slot without a trial change (R639). -/
def State.restartVixia (s : State) : State :=
  let v := s.vixia
  let s := s.startStage1 (s.image v.slot 1) v.slot v.trial
  let s := s.modVixia fun v => { v with restarts := satAdd v.restarts 1 }
  let s := s.measureBoot
  let s := (((s.emptyWays 56 fun _ => true).emptyL1 (leaderOf 56)).modCore (leaderOf 56) fun _ => Core.reset).modPair 56
    Pair.onReset
  s.modCell cellVixia fun x => { x with st := .running }

/-- What RESET returns to its reset value at a leaf (R55). -/
def State.resetKind (s : State) (c : Nat) (faulted : Bool) : State :=
  let i := cellIndex c
  match cellKind c with
  | 0x01 => s.resetPair i
  | 0x0A => s.resetPair (52 + i)
  | 0x02 => (s.modCore i fun _ => Core.reset).emptyL1 i
  | 0x03 =>
    (s.modSlice i fun x => { x with groupOn := 0xFF, cleaning := 0 }).modCaches fun k =>
      { k with slicePfOn := tabErase k.slicePfOn i, slicePfDist := tabErase k.slicePfDist i }
  | 0x04 => s.modChan i fun x => { x with failedDevice := 0xFF, devErrors := [], periodH := 24, devLimit := 64 }
  | 0x05 => s.modIo fun o => { o with groupPcie := tabErase o.groupPcie i }
  | 0x06 =>
    let g := Staging.reset
    ((s.modStaging i fun x => { x with high := g.high, low := g.low, tail := g.tail, next := none }).setLink i .down).modPort i fun x =>
      { x with cfg := PortCfg.reset, retrain := false, peer := none, width := 0, rate := 0, flit := false }
  | 0x07 | 0x08 => s.resetEngine (engineOf c) faulted
  | 0x0C =>
    (s.resetQueue i).modQueue i fun x =>
      { x with cfg := { QueueCfg.reset with capacity := x.cfg.capacity }, nextTune := none }
  | 0x0D => s.resetCtx i
  | 0x0E => s.modIo fun o => { o with classes := tabErase o.classes i }
  | 0x0F => s.modTimer i fun x => { Timer.reset with owner := x.owner }
  | 0x14 => s.resetPart i
  | 0x17 =>
    (s.answerForwards (fun f => f.1 < 32768) fun f =>
      lostReply s (f.2.checkOnly || innerCheck (forwardLevels f) f.2.params) (innerPacket (forwardLevels f) f.2.params)
        (forwardMember f)).modBundle Bundle.onReset
  | _ => s

/-- RESET of a leaf that is STOPPED or FAULTED (R51, R52, R55). The outcome of a FAULTED cell's reset check is open: the
spec gives no check (log entry 70). -/
def State.resetStopped (s : State) (c : Nat) (who : Option Asker) : Res :=
  let i := cellIndex c
  let faulted := s.leafSt c == .faulted
  let (w, u) := if faulted then s.fresh else (1, s)
  if faulted ∧ !bitOf w 0 then refuse 0x0503 0 u
  else if c = cellVixia then if faulted then done u.restartVixia else done u
  else if cellKind c = 0x12 ∧ 1 ≤ i ∧ faulted then
    let t := (u.cellReset c).modCopy (i - 1) fun x => { x with inService := false }
    if u.copyServes (2 - i) then accepted (t.modCopy (i - 1) fun x => { x with rebuilding := true, rebuildWho := who })
    else done t
  else
    let t := (u.cellReset c).resetKind c faulted
    let t := if cellKind c = 1 ∧ s.isSplit i then
        (t.cellReset (cellNo 2 (2 * i))).cellReset (cellNo 2 (2 * i + 1))
      else t
    if cellKind c = 1 ∧ faulted ∧ (t.spareOf i).isNone then done (t.becomeSpare i) else done t

/-- RESET of a leaf in any state (R51, R491, R615). -/
def State.resetLeaf (s : State) (c auth : Nat) (who : Option Asker) : Res :=
  if c = cellTansy then refuse 0x02C0 0 s
  else if c = cellNo 0x14 0 ∧ auth ≠ 2 then refuse 0x0283 0 s
  else
    match s.leafSt c with
    | .stopped | .faulted => s.resetStopped c who
    | _ => refuse 0x0201 0 s

/-- RESET of a die in the states that R51 allows (R41): each leaf that may be reset is, and the gateway's own failure is
cleared when its reset check passes. A leaf that refuses keeps its state. -/
def State.resetDie (s : State) (g auth : Nat) : Nat × State :=
  let st := s.showSt g
  if st ≠ .stopped ∧ st ≠ .faulted then (0x0201, s)
  else
    let (w, u) := if s.cst g = .faulted then s.fresh else (1, s)
    if s.cst g = .faulted ∧ !bitOf w 0 then (0x0503, u)
    else
      let u := ((leaves g).foldl (fun s k => (s.resetLeaf k auth none).state) u).modCell g fun x => { x with st := .stopped }
      (0, if cellKind g = 0x16 then
          u.modIoDie (cellIndex g) fun x => { x with moveMax := IoDie.reset.moveMax, nextMax := none }
        else u)

/-- RESET of a group (R41, R55). A die's MOVE_MAX returns to its reset value with it, and the DMA cap with the module. The
module answers DONE where one of its dies or leaves refuses, as it does for STOP; and a journal copy that is rebuilt after it
owes no completion to the group: both are the model's choice (log entries 62 and 87). -/
def State.resetGroup (s : State) (g auth : Nat) : Res :=
  if g = cellModule then
    let st := s.showSt g
    if st ≠ .stopped ∧ st ≠ .faulted then refuse 0x0201 0 s
    else
      let u := (members g).foldl (fun s d => (s.resetDie d auth).2) s
      done (u.modIo fun i => { i with capLines := u.capMax, share0 := u.capMax / 2, nextCap := none })
  else
    let (status, u) := s.resetDie g auth
    if status = 0 then done u else refuse status 0 u

/-- RESET (R51, R52, R55). -/
def opReset : Op where
  code := 0x0005
  len := exactly 0
  on _ _ := true
  classes := resetClasses
  run r s :=
    if isGroup r.cell then s.resetGroup r.cell r.pk.auth.toNat
    else s.resetLeaf r.cell r.pk.auth.toNat (some r.who)

/-- RESET (R51). -/
def execReset (pk : Pkt) (s : State) : Host.Outcome State Fault Refusal := .next (submit opReset pk s)

end Sys2Proof.Machine
end

