-- ==== Sys2Proof/Machine/Power.lean ====
section
/-! DEFINITION. Power-up (R637, R638), the power-good signals and PWR_OK (R647, R648, R651), and the test access
port (R656, R657). -/

namespace Sys2Proof.Machine

/-! ### Steps -/

/-- A step has ended: BOOT_STEP shows it, and a KIND 3 record says so (R637). -/
def State.stepEnds (s : State) (n : Nat) : State := (s.modVixia fun v => { v with bootStep := n }).log 3 0xFF n 0 0

/-- A step fails (R638). In a trial boot Vixia starts again from the boot ROM, which reverts. -/
def State.stepFails (s : State) (n : Nat) : State :=
  let s := (s.log 3 0xFF (0x100 + n) 0 0).report 0x1A3
  if s.vixia.trial then s.modVixia fun v => { v with up := false, bootStep := 0 }
  else s.modVixia fun v => { v with stepFailed := true }

/-- The step that comes next. -/
def State.nextStep (s : State) : Nat := if s.vixia.bootStep = 0 then 3 else s.vixia.bootStep + 1

/-- Step 3 (R632, R637): stage-1 validates its slot and measures. An invalid image turns to the other slot and restarts. -/
def State.step3 (s : State) : State :=
  match s.slotFaultOf s.vixia.slot [2, 3, 4, 5] with
  | some (k, reason) =>
    let other := !s.vixia.slot
    (s.refuseImage k reason).modVixia fun v => { v.writeRecord fun r => { r with prefer := other } with up := false }
  | none => (s.measureBoot.setCst cellVixia .running).stepEnds 3

/-- The channels of a mask of 24 bits (R628). -/
def maskChannels (w : Word) : List Nat := (List.range 24).filter fun i => bitOf w i

/-- A record entry's channels make a set (R286): all are populated alike, a redundant set takes whole groups of six, and the
size is a whole number of GiB. One that breaks the rule defines no set: DESIGN CHOICE (log entry 106). -/
def State.legalSet (s : State) (redundant : Bool) (chs : List Nat) : Bool :=
  let cap := ((chs.head?).map fun c => (s.chan c).capGib).getD 0
  0 < cap && chs.all (fun c => (s.chan c).capGib == cap) &&
    (!redundant || (List.range 4).all fun g =>
      let n := (chs.filter fun c => c / 6 = g).length
      n == 0 || n == 6)

/-- The interleave sets that the memory configuration record defines (R285, R286, R628). -/
def State.buildSets (s : State) (body : Bytes) : List MemSet :=
  ((List.range 8).foldl (fun (x : List MemSet × Nat) i =>
    let w := wordAt body i
    let chs := maskChannels w
    let cap := ((chs.head?).map fun c => (s.chan c).capGib).getD 0
    let gib := if bitOf w 24 then chs.length / 6 * 5 * cap else chs.length * cap
    if bitOf w 31 ∧ s.legalSet (bitOf w 24) chs then
      (x.1 ++ [{ redundant := bitOf w 24, channels := chs, baseGib := x.2, limitGib := x.2 + gib - 1 }], x.2 + gib)
    else x) ([], 0)).1

/-! ### The channel population (R279, R280) -/

/-- The populations that R279 supports, by the DIMMs of a channel: the code of CHAN_CFG's RATE, where there is one. -/
def rateOf (l : List Dimm) : Option Nat :=
  match l with
  | [d] =>
    match d.kind with
    | .rdimm => if [32, 64, 96, 128, 256].contains d.gib then some 2 else none
    | .mrdimm => if [64, 128, 256].contains d.gib then some 3 else none
    | .other => none
  | [d, _] => if d.kind = .rdimm ∧ [32, 64, 96, 128, 256].contains d.gib then some 1 else none
  | _ => none

/-- Every DIMM is like the others, carries ECC and is built from x4 or x8 devices (R280), and every populated channel has one
and the same population of R279. -/
def populationOk (fitted : List (Nat × List Dimm)) : Bool :=
  let channels := (fitted.map Prod.snd).filter fun l => !l.isEmpty
  match channels with
  | [] => true
  | first :: _ =>
    channels.all (fun l => l == first && l.all fun d =>
      some d == first.head? && d.ecc && (d.width == 4 || d.width == 8)) && (rateOf first).isSome

/-- CHAN_CFG of a channel from its DIMMs (R334). -/
def Chan.fit (c : Chan) (l : List Dimm) : Chan :=
  { c with rate := BitVec.ofNat 4 ((rateOf l).getD 0), dimms := BitVec.ofNat 2 l.length, x8 := l.any fun d => d.width == 8
           capGib := l.foldl (fun n d => n + d.gib) 0 }

/-- Every memory key is generated afresh (R303). -/
def State.freshKeys (s : State) : State :=
  s.modMem fun m => { m with keyGen := (List.range 65).foldl (fun t k => tabMod 0 t k (· + 1)) m.keyGen }

/-- Every cell of a kind, of the indices given, takes a state. -/
def State.setAll (s : State) (kind : Nat) (is : List Nat) (st : CState) : State :=
  is.foldl (fun s i => s.setCst (cellNo kind i) st) s

/-- Step 4 (R280 to R285, R303, R637, R659): the population check, training, the memory keys, the interleave sets and the I/O
dies. -/
def State.step4 (s : State) (env : BootEnv) : State :=
  let s := env.fitted.foldl (fun s e => s.modChan e.1 fun c => c.fit e.2) s
  if !populationOk env.fitted then (s.report 0x1A9).stepFails 4
  else
    let sets := s.buildSets (imgBody (s.image s.vixia.slot 4))
    let s := s.freshKeys.modMem fun m => { m with sets := sets }
    let s := s.setAll 0x04 (distinct (sets.flatMap MemSet.channels)) .running
    let s := (((s.setAll 0x0B (List.range 64) .running).setAll 0x05 (List.range 16) .running).setAll 0x12 [0, 1, 2]
      .running).setAll 0x13 [0] .running
    let bad := (List.range 24).filter fun i => (s.chan i).capGib != 0 && !env.trained.contains i
    let s := bad.foldl (fun s i => (s.channelFault i).reportCell (cellNo 4 i) 2) s
    let cap := s.capMax
    let s := (s.modIo fun o => { o with capLines := cap, share0 := cap / 2 }).measureSlot 3 2
    let tb := Config.boardTbInit (imgBody (s.image s.vixia.slot 5))
    let s := if tb = 0 ∨ s.clock.tbLoaded ∨ s.step5Begun then s
      else { s with clock := { s.clock with tb := BitVec.ofNat 64 (tb % 2 ^ 64 / 10 * 10), tbLoaded := true } }
    s.stepEnds 4

/-- Step 5 (R11, R637): microcode, the pairs, a spare for each compute die. -/
def State.step5 (s : State) (env : BootEnv) : State :=
  let s := { s.measureSlot 4 3 with spares := [] }
  let s := (List.range 52).foldl (fun s p =>
    if env.pairsOk.contains p then (s.resetPair p).setCst (cellNo 1 p) .stopped else (s.failCell (cellNo 1 p)).reportCell (cellNo 1 p) 2) s
  let s := (List.range 4).foldl (fun s d =>
    match ((List.range 13).reverse.map (13 * d + ·)).find? fun p => env.pairsOk.contains p with
    | some p => ({ s with spares := tabPut none s.spares d (some p) }).setCst (cellNo 1 p) .asleep
    | none => s) s
  s.stepEnds 5

/-- Step 7 (R69, R491): partition 0 is given what the board record names, and started; ring 0 is enabled. -/
def State.step7 (s : State) : State :=
  let body := imgBody (s.image s.vixia.slot 5)
  let cfg := { partCfgOf (Config.boardPart0 body) with ringAuth := 0xFFFF }
  let pairs := (Config.boardPairs body).filter fun e => decide (e.1 < 52) && !s.isSpare e.1
  let t := s.modParts fun t => { t with procs := (t.procs.filter fun p => p.part != 0) ++ pairs.map fun e =>
    ({ core := 2 * e.1, part := 0, num := e.2, whole := true } : ProcShare) }
  let t := ((Config.boardGranules body).filter s.granuleKnown).foldl (fun t g => t.treatGranule 0 true g) t
  let t := ((Config.boardQueues body).filter fun e => e.1 < 1024 && 0 < e.2 && e.2 ≤ 256).foldl (fun t e => t.modQueue e.1 fun q =>
    { q with owner := some 0, cfg := { q.cfg with capacity := e.2 } }) t
  let r := (t.stageSettings (cellNo 0x14 0) cfg.bytes).startPart (cellNo 0x14 0) 0
  if r.status ≠ 0 then s.stepFails 7
  else r.state.stepEnds 7

/-- Step 8: READY; the start-up state of R519 ends. -/
def State.step8 (s : State) : State :=
  let s := (List.range 8).foldl (fun s e => s.modEngine e fun x => { x with startup := false }) s
  (s.modPins fun p => { p with ready := true }).stepEnds 8

/-- One step of power-up (R637, R647). Step 4 first asserts EN_IO, and step 5 EN_CMP; each goes on once its rails are
good. -/
def State.bootTo (s : State) (step : Nat) (env : BootEnv) : State :=
  if !s.pins.pwrOk ∨ !s.vixia.up ∨ s.vixia.stepFailed ∨ step ≠ s.nextStep then s
  else
    match step with
    | 3 => s.step3
    | 4 =>
      if !s.pins.enIo then s.modPins fun p => { p with enIo := true, enIoAt := s.now }
      else if s.pins.pgIo then s.step4 env else s
    | 5 =>
      if !s.pins.enCmp then
        { s with clock := { s.clock with loadClosed := true } }.modPins fun p => { p with enCmp := true, enCmpAt := s.now }
      else if s.pins.pgCmp then s.step5 env else s
    | 6 => (s.setAll 0x0A (List.range 4) .running).stepEnds 6
    | 7 => s.step7
    | 8 => s.step8
    | _ => s

/-- POWER_UP (R637). -/
def execPowerUp (step : Nat) (env : BootEnv) (s : State) : Host.Outcome State Fault Refusal := .next (s.bootTo step env)

/-- POWER_UP_TIMEOUT (R638): step 8 has not ended 10 s after PWR_OK. -/
def execPowerUpTimeout (s : State) : Host.Outcome State Fault Refusal :=
  .next (if s.pins.pwrOk ∧ !s.pins.ready ∧ !s.vixia.stepFailed ∧ 1000000000 ≤ s.now then s.stepFails s.nextStep else s)

/-! ### Rails -/

/-- PG_IO_RISE (R647): a rise without EN_IO is ignored. -/
def execPgIoRise (s : State) : Host.Outcome State Fault Refusal :=
  .next (if s.pins.enIo then s.modPins fun p => { p with pgIo := true } else s)

/-- PG_CMP_RISE (R647). -/
def execPgCmpRise (s : State) : Host.Outcome State Fault Refusal :=
  .next (if s.pins.enCmp then s.modPins fun p => { p with pgCmp := true } else s)

/-- An enable falls, and with it the power-good that it gives. -/
def State.railsOff (s : State) (cmp : Bool) : State :=
  s.modPins fun p => if cmp then { p with enCmp := false, pgCmp := false } else { p with enIo := false, pgIo := false }

/-- 20 ms have passed without power good (R648). -/
def State.powerGoodLate (s : State) (cmp : Bool) : State :=
  let p := s.pins
  let (en, pg, t) := if cmp then (p.enCmp, p.pgCmp, p.enCmpAt) else (p.enIo, p.pgIo, p.enIoAt)
  if en ∧ !pg ∧ t + 2000000 ≤ s.now then (s.stepFails (if cmp then 5 else 4)).railsOff cmp else s

/-- POWER_GOOD_TIMEOUT (R648). -/
def execPowerGoodTimeout (cmp : Bool) (s : State) : Host.Outcome State Fault Refusal := .next (s.powerGoodLate cmp)

/-- A cell without power is FAULTED on its own reporter (R648). -/
def State.unpower (s : State) (c : Nat) : State :=
  if s.cst c = .faulted then s else (s.failCell c).reportCell c 2

/-- A pair without power stops its processors (R648), and is FAULTED with both of its cores where it is split. -/
def State.unpowerPair (s : State) (p : Nat) : State :=
  if s.cst (cellNo 1 p) = .faulted then s
  else
    let cores := (s.parts.procs.filter fun q => pairOfCore q.core == p).map ProcShare.core
    let s := if s.isSplit p then (coresOf p).foldl (fun s k => s.failCell (cellNo 2 k)) s else s
    cores.foldl (fun s k => s.reportStop k) ((s.failJob p).unpower (cellNo 1 p))

/-- An engine without power loses its requests and keys (R502, R648). -/
def State.unpowerEngine (s : State) (e : Nat) : State :=
  if s.cst (engineCell e) = .faulted then s else (s.unpower (engineCell e)).failEngine e

/-- The loss of a rail group (R648, R409). -/
def State.powerLost (s : State) (cmp : Bool) : State :=
  let s := (s.railsOff cmp).report 0x1AA
  if cmp then
    let s := (List.range 52).foldl (fun s p => s.unpowerPair p) s
    let s := (List.range 8).foldl (fun s e => s.unpowerEngine e) s
    (List.range 4).foldl (fun s d => (s.unpower (cellNo 3 d)).unpower (cellNo 9 d)) s
  else
    let s := (List.range 4).foldl (fun s i => s.unpower (cellNo 0x0A i)) s
    let s := (List.range 16).foldl (fun s g => s.unpower (cellNo 5 g)) s
    let s := (List.range 256).foldl (fun s p => if s.isUp p then s.linkLost p else s.setLink p .down) s
    let s := (List.range 2).foldl (fun s d =>
      [cellNo 0x16 d, cellNo 0x12 (1 + d), cellNo 0x0C (512 * d)].foldl (fun s c => s.reportCell c 2) (s.ioDieFails d)) s
    (List.range 256).foldl (fun s p => s.unpower (cellNo 6 p)) s

/-- POWER_GOOD_LOSS (R648). -/
def execPowerGoodLoss (cmp : Bool) (s : State) : Host.Outcome State Fault Refusal :=
  let p := s.pins
  .next (if (if cmp then p.enCmp && p.pgCmp else p.enIo && p.pgIo) then s.powerLost cmp else s)

/-- PWR_OK_RISE (R630, R645, R647): the VID outputs and the fuses are valid. -/
def execPwrOkRise (s : State) : Host.Outcome State Fault Refusal :=
  .next (if s.pins.pwrOk then s
  else
    (s.modPins fun p =>
      { p with pwrOk := true, vid := (List.range 4).foldl (fun t d => tabPut 0 t d (Config.fuseVid d)) [] }).modVixia fun v =>
      { v with fuses := { v.fuses with serial := Config.fuseSerial } })

/-- PWR_OK has been low for 2 ticks (R651): every cell is reset. The fuses and the flash keep what they hold; an update in
progress and the records not yet written to flash are gone. -/
def State.powerOff (s : State) : State :=
  let v := s.vixia
  { State.reset with
    pending := s.pending, free := s.free, areas := s.areas, mem := { State.reset.mem with keyGen := s.mem.keyGen }
    vixia := { Vixia.reset with
      fuses := v.fuses, rec0 := v.rec0, rec1 := v.rec1, slots := tabErase v.slots 0, persistent := v.persistent } }

/-- PWR_OK_FALL (R651). -/
def execPwrOkFall (s : State) : Host.Outcome State Fault Refusal := .next (if s.pins.pwrOk then s.powerOff else s)

/-! ### The test access port -/

/-- Step 4 of power-up has begun. -/
def State.step4Begun (s : State) : Bool :=
  s.pins.enIo || decide (4 ≤ s.vixia.bootStep) || (s.vixia.bootStep == 3 && s.vixia.stepFailed)

/-- An instruction is loaded and its register captured. -/
def State.tap (s : State) (i : Jtag) (captured : Bytes) : State :=
  s.modPins fun p => { p with jtag := i, captured := captured }

/-- BYPASS (R657): its register captures a zero. -/
def State.bypassed (s : State) : State := s.tap .bypass [0]

/-- EXTEST and its kin drive the boundary register while READY is low and step 4 has not begun, else they act as BYPASS (R657). -/
def State.external (s : State) (i : Jtag) (boundary : Bytes) : State :=
  if s.pins.ready ∨ s.step4Begun then s.bypassed
  else (s.tap i boundary).modPins fun p => { p with boundary := boundary }

/-- SAMPLE_PRELOAD (R656, R657): the boundary register captures the signals. -/
def execSamplePreload (pinsIn : Bytes) (s : State) : Host.Outcome State Fault Refusal := .next (s.tap .samplePreload pinsIn)

/-- IDCODE (R656). -/
def execIdcode (s : State) : Host.Outcome State Fault Refusal := .next (s.tap .idcode (beBytes 4 0x024960F3))

/-- BYPASS (R657). -/
def execBypass (s : State) : Host.Outcome State Fault Refusal := .next s.bypassed

/-- EXTEST (R657). -/
def execExtest (boundary : Bytes) (s : State) : Host.Outcome State Fault Refusal := .next (s.external .extest boundary)

/-- EXTEST_PULSE (R657). -/
def execExtestPulse (boundary : Bytes) (s : State) : Host.Outcome State Fault Refusal :=
  .next (s.external .extestPulse boundary)

/-- EXTEST_TRAIN (R657). -/
def execExtestTrain (boundary : Bytes) (s : State) : Host.Outcome State Fault Refusal :=
  .next (s.external .extestTrain boundary)

end Sys2Proof.Machine
end

