-- ==== Sys2Proof/Machine/Commands.lean ====
section
/-! DEFINITION. The consumption of command slots (R64, R71, R663, R664) FORWARD (R45 to R47, R577, R662), and the
commands of a bundle (R41, R42, R44, R56, R57, R66). -/

namespace Sys2Proof.Machine

/-- Every opcode but FORWARD. -/
def allOps : List Op :=
  [opIdentify, opQuery, opStop, opChange, opStart, opReset, opSleep, opWake, opSleepPolicy] ++
  [opSplit, opJoin, opSpare, opInject] ++
  [opCleanRange, opFlushRange, opInvalRange, opLockWays, opUnlockWays, opRegionSet, opWaysOff, opWaysOn, opCacheDisable,
    opCacheEnable, opPrefetchSet] ++
  [opGranuleKey, opKeyRenew, opZeroRange, opTierSet, opTierClear, opPoolAdd, opPoolRemove, opTierThresh, opScrubSet] ++
  [opStartIo, opResume, opCancel, opMove, opStageSet, opMoverSet, opDmaCapSet] ++
  [opJournalRead, opLateAck, opJournalList, opJournalMirror, opBind, opUnbind] ++
  [opRouteSet, opQueueTune, opTimerSet, opSourceQuery] ++
  [opAssign, opRevoke, opShareSet] ++
  [opCompress, opDecompress, opCipher, opDigest, opRsa, opEcdsaSign, opEcdsaVerify, opRandom, opKeyLoad, opKeyGen,
    opKeyClear] ++
  [opEthSend, opEthRecv, opMsiWait, opLoopTest] ++
  [opEventSend, opFenceMember, opUnfence, opManifestRead] ++
  [opFaultAck, opFaultSet, opErrClear, opFaultInject, opFaultRead, opMcPolicy] ++
  [opUpdateCommit, opSensorSet, opLogRead, opTbLoad, opHbclkSelect, opMeasureRead]

/-- An opcode that is not defined is refused after the checks of the cell (R64). -/
def opUnknown : Op where
  code := 0
  len _ _ := true
  on _ _ := true
  classes _ := [0, 1, 2, 3]
  run _ s := refuse 0x0106 0 s

/-! ### Packets as bytes -/

/-- The bytes of a packet with another path and class (R58, R59). -/
def packetBytes (inner : Bytes) (path : Bytes) (auth : Byte) : Bytes :=
  let head := [inner.getD 0 0, BitVec.ofNat 8 path.length] ++ slice inner 2 6 ++ padTo 14 path ++ slice inner 22 3 ++
    [auth] ++ zeros 4
  head ++ beBytes 2 (crc16 head) ++ inner.drop 32

/-- The reply to an inner packet at depth `k` of FORWARDs (R46). -/
def innerReply (s : State) (code k : Nat) (pk : Pkt) (r : Res) : Bytes :=
  let x := immediate code pk r
  replyBytes s.clock.tb { x with results := shorten code (4064 - 32 * k) x.results }

/-! ### The bundle's command address (R44, R577) -/

/-- The cell number by which a member is named (R48, R56, R57). -/
def State.memberCell (s : State) (m : Nat) : Nat := if m = s.bundle.index then cellModule else cellNo 0x19 m

/-- IDENTIFY of the module's bundle (R660). What number a bundle gives itself is the model's choice: kind 0x19 with the index in
its parent, and 0x190000FF for the outermost (log entry 89). -/
def State.bundleIdentity (s : State) : Bytes :=
  let path := s.bundleHome
  let ms := s.bundleMembers.map s.memberCell
  beBytes 4 (cellNo 0x19 (cfgParent s.bundleCfg)) ++ [0x19, BitVec.ofNat 8 path.length] ++ padTo 14 path ++ beBytes 1 ms.length ++ [0xFF] ++
    zeros 10 ++ ms.flatMap (beBytes 4)

/-- QUERY of the module's bundle (R42, R571, R661). -/
def State.bundleQuery (s : State) : Bytes :=
  beBytes 1 s.bundleSt.code ++ zeros 7 ++ (countSt (s.bundleMembers.map s.memberSt)).flatMap (beBytes 1) ++ zeros 3

/-! ### FORWARD -/

/-- FORWARD carries a whole inner packet (R45). Bytes that follow it are ignored, which is the model's choice (log entry 90). -/
def forwardLen (_ : Option Nat) (pk : Pkt) : Bool :=
  let n := numAt pk.params 22 2
  decide (4 ≤ pktUnits pk) && (decide (508 < n) || decide (32 + 8 * n ≤ pk.params.length))

/-- How a packet of an opcode is answered. -/
abbrev Judge := Nat → Pkt → State → Res

/-- The packet that a ring or another member carried, and the FORWARDs around the packet that it leads to, as `GroupCmd` has
them: 1,023 where it is passed on for another member. -/
structure Outer where
  top   : Pkt
  level : Nat

/-- The depth of the packet in FORWARDs (R46). -/
def Outer.depth (o : Outer) : Nat := if o.level = 1023 then 1 else o.level + 1

/-- The EVENT_SEND, START_IO or JOURNAL_READ begun last is answered inside the FORWARDs that carried it. -/
def State.nestSend (s : State) (o : Outer) (bytes : Bytes) : State :=
  s.modBundle fun b => { b with sends := b.sends.dropLast ++ (b.sends.getLast?.toList.map fun e =>
    if e.level = 1022 then { e with top := o.top, level := o.level, inner := bytes } else e) }

/-- The inner packet of a FORWARD is executed: with CHECK_ONLY nothing changes; an ACCEPTED one is outstanding on the
ring that carried the outer packet (R60, R662). -/
def runInner (judge : Judge) (o : Outer) (code status : Nat) (inner : Pkt) (bytes : Bytes) (s : State) : Res :=
  let r := if status ≠ 0 then refuse status 0 s else judge code inner s
  if r.status = later then
    { r with state := if code = 0x0B00 ∨ code = 0x0400 ∨ code = 0x0500 then r.state.nestSend o bytes else r.state }
  else
    let t := if inner.checkOnly then s else r.state
    let t := if replyStatus inner.checkOnly r.status = 1 then
      t.modRing inner.ring fun x => { x with outstanding := x.outstanding + 1 } else t
    doneWith (innerReply s code o.depth inner r) t

/-- The bytes of a packet as they go to another member: its path, its class, and CHECK_ONLY where a FORWARD around it has set
it (R60). -/
def passBytes (inner : Pkt) (bytes path : Bytes) : Bytes :=
  let b := if inner.checkOnly then (bytes.getD 0 0 ||| 1) :: bytes.drop 1 else bytes
  packetBytes b path inner.auth

/-- A packet for another member waits for its reply (R577 to R579); `m` is 16 for the parent, which is given the whole path. -/
def State.sendForward (s : State) (o : Outer) (m : Nat) (packet : Bytes) : Res :=
  let target := if m = 16 then 0x100 else m
  ⟨later, 0, [], s.modBundle fun b =>
    { b with outbound := b.outbound ++ [(target, if m = 16 then 0xFF :: packet else packet)],
             forwards := b.forwards ++ [(m + 32 * o.level, o.top)] }⟩

/-! ### Commands of a bundle -/

/-- The members that a command of the bundle reaches (R51, R56, R57, R66): START and CHANGE those that are STOPPED, RESET all,
the others all that are not FAULTED. -/
def State.groupTargets (s : State) (code : Nat) : List Nat :=
  s.bundleMembers.filter fun m =>
    let st := s.memberSt m
    match code with
    | 3 | 4 => st == .stopped
    | 5 => (s.member m).admitted && !(s.member m).failed
    | _ => st != .faulted

/-- Begin a command of the bundle: its members are asked, START and CHANGE first with CHECK_ONLY, since they take effect at all
or at none (R56, R57). -/
def State.beginGroup (s : State) (o : Outer) (code : Nat) (inner : Pkt) (bytes : Bytes) : State :=
  let ms := s.groupTargets code
  let body := passBytes inner bytes []
  let trial := code = 3 ∨ code = 4 ∨ inner.checkOnly
  let probe := if trial then (body.getD 0 0 ||| 1) :: body.drop 1 else body
  let dead := s.bundleMembers.filter fun m => s.memberSt m == .faulted
  let refused := if code = 6 ∨ code = 7 ∨ code = 9 then dead.map fun m => (m, 0x0203, 0, []) else []
  s.modBundle fun b =>
    { b with
      outbound := b.outbound ++ ((ms.filter (· != b.index)).map fun m => (m, packetBytes probe [] inner.auth))
      groups := b.groups ++ [{ top := o.top, level := o.level, inner := body, trial := trial, members := ms, waits := ms,
                               got := refused, replied := false, owed := [], dead := dead, bad := false, undo := none }] }

/-- The common opcodes at the bundle's own cell (R41, R51, R65). -/
def bundleOp (o : Outer) (code : Nat) (bytes : Bytes) : Op where
  code := code
  len c pk := match allOps.find? fun x => x.code == code with
    | some x => code == 3 || x.len c pk
    | none => true
  on _ _ := code ≤ 9
  classes _ := if code ≤ 1 then [0, 1, 2, 3] else [1, 2]
  run r s :=
    let st := s.bundleSt
    let live := s.bundleMembers.filter fun m => s.memberSt m != .stopped && s.memberSt m != .faulted
    let mask : Nat := if code = 9 then 0xFFFFFF01 else 1
    let bad := if code = 6 ∨ code = 7 ∨ code = 9 then badWord (r.word 0) mask else 0
    if code = 0 then doneWith s.bundleIdentity s
    else if code = 1 then doneWith s.bundleQuery s
    else if bad ≠ 0 then refuse bad 0 s
    else if (code = 3 ∨ code = 5) ∧ !live.isEmpty then
      refuse 0x0201 (if code = 3 then s.memberCell (live.headD 0) else 0) s
    else if code ≠ 5 ∧ st = .faulted then refuse 0x0203 0 s
    else ⟨later, 0, [], s.beginGroup o code r.pk bytes⟩

/-- A packet is judged as one to the bundle's cell: class 0 does not see it, and the membership stands for its path. -/
def judgeBundle (o : Outer) (code : Nat) (inner : Pkt) (bytes : Bytes) (s : State) : Res :=
  let op := if (allOps.any fun x => x.code == code) then bundleOp o code bytes else opUnknown
  op.judge { inner with path := pathOf cellMembership } s

/-- A packet that has come to a place in the bundles (R44, R577, R579). -/
def reachRun (judge : Judge) (o : Outer) (code status : Nat) (inner : Pkt) (bytes : Bytes) (s : State) : Reach → Res
  | .above => s.sendForward o 16 (passBytes inner bytes inner.path)
  | .bundle =>
    if code = 8 then
      -- FORWARD at the bundle's cell: its inner path is taken from the bundle (R45)
      let (_, _, deep) := parsePacket inner.ring inner.params
      let path := s.bundleHome ++ deep.path
      runInner judge o code status
        { inner with path := pathOf cellMembership,
                     params := packetBytes inner.params (if 14 < path.length then s.bundleHome ++ [0xFF] else path) deep.auth } bytes s
    else
      runInner (fun code inner s => judgeBundle o code inner bytes s) o code status inner bytes s
  | .member m path =>
    if m = s.bundle.index then runInner judge o code 0 { inner with path := path } bytes s
    else if cfgMembers s.bundleCfg ≤ m then runInner judge o code 0 { inner with path := [0xFF] } bytes s
    else if (s.member m).failed then doneWith (lostReply s inner.checkOnly bytes m) s
    else s.sendForward o m (passBytes inner bytes path)

/-- FORWARD at the membership cell (R577, R571, R579). -/
def runBundle (judge : Judge) (o : Outer) (code status : Nat) (inner : Pkt) (bytes : Bytes) (s : State) : Res :=
  if s.bundle.bstate = .standalone then refuse 0x02B0 0 s
  else if status ≠ 0 then runInner judge o code status inner bytes s
  else reachRun judge o code 0 inner bytes s (reachOf s.bundleHome inner.path)

/-- FORWARD at depth `k - 1` (R45 to R47, R51). -/
def forwardAt (judge : Judge) (k : Nat) (top : Pkt) : Op where
  code := 0x0008
  len := forwardLen
  on _ _ := true
  classes c := if cellKind c = 0x14 then [1, 2] else [0, 1, 2]
  run r s :=
    let (code, status, inner) := parsePacket r.pk.ring r.pk.params
    let inner := { inner with checkOnly := r.pk.checkOnly || inner.checkOnly }
    if r.pk.auth.toNat < inner.auth.toNat then refuse 0x010A 0 s
    else if inner.partition ≠ r.pk.partition then refuse 0x010B 0 s
    else if s.showSt r.cell = .faulted then refuse 0x0203 0 s
    else if r.cell = cellMembership then runBundle judge ⟨top, k - 1⟩ code status inner r.pk.params s
    else runInner judge ⟨top, k - 1⟩ code status { inner with path := (pathOf r.cell ++ inner.path).take 14 } r.pk.params s

/-- Check and execute a packet of any opcode at depth `k` (R64). Each FORWARD takes 32 bytes, so 128 levels are more than a
packet can hold. -/
def judgeAt : Nat → Nat → Pkt → Judge
  | 0, _, _, _, _, s => refuse 0x0104 0 s
  | fuel + 1, k, top, code, pk, s =>
    if code = 0x0008 then (forwardAt (judgeAt fuel (k + 1) top) (k + 1) top).judge pk s
    else
      match allOps.find? fun o => o.code == code with
      | some o => o.judge pk s
      | none => opUnknown.judge pk s

/-- Check and execute a packet that a ring carried. -/
def judgeTop (code : Nat) (pk : Pkt) (s : State) : Res := judgeAt 129 0 pk code pk s

/-- FORWARD (R45). -/
def execForward (pk : Pkt) (s : State) : Host.Outcome State Fault Refusal :=
  .next (answer 0x0008 pk (judgeTop 0x0008 pk s) s)

/-! ### What follows of the bundle's commands -/

/-- This module carries out its own part of a command of its bundle, which class 1 or 2 has given. -/
def State.groupHere (s : State) (g : GroupCmd) : State :=
  let (code, status, pk) := parsePacket 1025 g.asks
  let pk := { pk with path := [], checkOnly := g.trial, auth := 1 }
  let r := if status ≠ 0 then refuse status 0 s else judgeTop code pk s
  let t := if g.trial then s else r.state
  let st := replyStatus g.trial r.status
  let t := if st = 1 then
      (t.modRing 1025 fun x => { x with outstanding := x.outstanding + 1 }).modBundle fun b =>
        { b with askers := b.askers ++ [(b.index, pk.tag)] }
    else t
  (t.groupReply s.bundle.index (replyBytes s.clock.tb (immediate code pk r))).getD t

/-- The results of a command of the bundle from its members' (R57, R66): CHANGE adds their counts, with the FAULTED members that
it skipped; SLEEP, WAKE and SLEEP_POLICY add theirs, and name the lowest member that refused. -/
def GroupCmd.results (g : GroupCmd) (cellOf : Nat → Nat) : Bytes :=
  let code := numAt g.inner 2 2
  let sum (f : Bytes → Nat) : Nat := g.got.foldl (fun n x => if x.2.1 = 0 then n + f x.2.2.2 else n) 0
  let no := g.got.filter fun x => x.2.1 != 0
  if code = 3 then
    beBytes 2 0 ++ beBytes 2 (sum fun b => numAt b 2 2) ++ beBytes 2 (sum fun b => numAt b 4 2) ++
      beBytes 2 ((sum fun b => numAt b 6 2) + g.dead.length)
  else if code = 6 ∨ code = 7 ∨ code = 9 then
    let inside := g.got.filterMap fun x =>
      if x.2.1 = 0 ∧ numAt x.2.2.2 8 8 ≠ 0 then some (x.1, cellOf x.1, numAt x.2.2.2 12 4) else none
    let out := no.map fun x => (x.1, cellOf x.1, x.2.1)
    beBytes 2 0 ++ beBytes 2 (sum fun b => numAt b 2 2) ++ beBytes 2 ((sum fun b => numAt b 4 2) + no.length) ++
      beBytes 2 (sum fun b => numAt b 6 2) ++
      match minBy Prod.fst (inside ++ out) with
      | some (_, c, st) => beBytes 4 c ++ beBytes 4 st
      | none => zeros 8
  else []

/-- The packet of a command of the bundle, for its reply. -/
def GroupCmd.pkt (g : GroupCmd) : Pkt := (parsePacket g.top.ring g.inner).2.2

/-- The reply to a command of the bundle. -/
def State.groupAnswer (s : State) (g : GroupCmd) (status detail : Nat) (results : Bytes) : State :=
  let pk := g.pkt
  let x := immediate (numAt g.inner 2 2) pk ⟨status, detail, pad8 results, s⟩
  s.forwardReply g.top g.level (replyBytes s.clock.tb x)

/-- What takes back the second round of START or CHANGE (DESIGN CHOICE, log entry 126): STOP, or a CHANGE without settings. -/
def GroupCmd.undoing (g : GroupCmd) : Bytes :=
  let pk := g.pkt
  let code := if numAt g.inner 2 2 = 4 then 2 else 3
  let head := g.inner.take 2 ++ beBytes 2 code ++ slice g.inner 4 18 ++ zeros 2 ++ slice g.inner 24 6
  packetBytes head [] pk.auth

/-- Every member has replied to a command of the bundle: the refusal of START or CHANGE, which none carries out (R56, R57), or
their second round, or the reply (R66). -/
def State.groupSettle (s : State) (g : GroupCmd) : State :=
  let drop (s : State) : State := s.modBundle fun b => { b with groups := b.groups.erase g }
  let put (s : State) (h : GroupCmd) : State := s.modBundle fun b => { b with groups := b.groups.replace g h }
  let ask (s : State) (ms : List Nat) (packet : Bytes) : State := s.modBundle fun b =>
    { b with outbound := b.outbound ++ (ms.filter (· != b.index)).map fun m => (m, packet) }
  let code := numAt g.inner 2 2
  let no := g.got.filter fun x => x.2.1 != 0 && x.2.1 != 1
  match g.undo, (if code = 3 ∨ code = 4 then minBy Prod.fst no else none) with
  | some (_, status, detail, results), _ => if g.owed.isEmpty then (drop s).groupAnswer g status detail results else s
  | none, some x =>
    let back := (g.got.filter fun y => y.2.1 == 0 || y.2.1 == 1).map Prod.fst
    let detail := s.memberCell x.1
    if g.trial ∨ back.isEmpty then (drop s).groupAnswer g x.2.1 detail x.2.2.2
    else
      put (ask s back g.undoing)
        { g with waits := back, got := [], owed := [], undo := some (g.undoing, x.2.1, detail, x.2.2.2) }
  | none, none =>
    if g.trial ∧ !g.pkt.checkOnly then put (ask s g.members g.inner) { g with trial := false, waits := g.members, got := [] }
    else if g.got.any fun x => x.2.1 == 1 then
      (((put s { g with replied := true }).groupAnswer g 1 0 (g.results s.memberCell)).modRing g.top.ring fun x =>
        { x with outstanding := x.outstanding + 1 })
    else (drop s).groupAnswer g 0 0 (g.results s.memberCell)

/-- One step of a command of the bundle: this module's own part; the members that are lost, which counts as 0x02B3 (log entry
88); what follows once every member has replied; and the completion that an ACCEPTED one owes (R662). -/
def State.groupStep (s : State) (g : GroupCmd) : State :=
  let gone := fun m => (s.member m).failed
  let h := { g with owed := g.owed.filter fun m => !gone m, bad := g.bad || g.owed.any gone,
                    waits := g.waits.filter fun m => !gone m,
                    got := g.got ++ (g.waits.filter gone).map fun m => (m, 0x02B3, m, []) }
  let s := s.modBundle fun b => { b with groups := b.groups.replace g h }
  if h.replied then
    if h.owed.isEmpty then
      let pk := h.pkt
      (s.modBundle fun b => { b with groups := b.groups.erase h }).complete
        { ring := h.top.ring, tag := pk.tag, op := BitVec.ofNat 16 (numAt h.inner 2 2), partition := pk.partition }
        (if h.bad then 0x0503 else 0) 0 []
    else s
  else if h.waits.contains s.bundle.index then s.groupHere h
  else if h.waits.isEmpty then s.groupSettle h
  else s

/-- What a tick does to the bundle's commands and to EVENT_SEND. -/
def State.groupTick (s : State) : State := (s.bundle.groups.foldl (fun s g => s.groupStep g) s).eventSendsDone

/-! ### Consumption -/

/-- A command is ready on a ring (R68, R71). -/
def Ring.ready (r : Ring) : Bool := r.enable && !r.halted && r.sized && r.cmdCons != r.cmdProd && !r.replyWait

/-- The rings after the one taken last, in round-robin order (R664). -/
def State.readyRings (s : State) : List Nat :=
  let l := ((s.rings.filter fun e => e.1 < 1024 && e.2.ready).map Prod.fst)
  (l.filter fun r => decide (s.turn < r)) ++ l.filter fun r => decide (r ≤ s.turn)

/-- The module takes one command slot of a ring (R64, R663), once memory can be read (R28, R306). -/
def State.consume (s : State) (r : Fin 1026) : State :=
  let x := s.ring r
  match s.partAddr (r / 16) (x.slotAddr x.cmdBase x.cmdCons) .read with
  | none => s.haltRing r 0x010E
  | some f =>
    let len := 32 + 8 * min 508 (numAt (s.bytesAt f.addr 32) 22 2)
    let gpa := x.slotAddr x.cmdBase x.cmdCons
    match s.reachVia (s.partTables (r / 16) gpa len) [(f.addr, len)] false fun s =>
      ((), (s.markPart (r / 16) gpa .read).dmaRead f.addr len) with
    | (none, s) => s
    | (some _, s) =>
    if s.poisoned f.addr len then s.haltRing r 0x010F
    else
      let (code, status, pk) := parsePacket r (s.bytesAt f.addr len)
      let s := s.modRing r fun x => { x with cmdCons := x.cmdCons + 1 }
      answer code pk (if status ≠ 0 then refuse status 0 s else judgeTop code pk s) s

/-- COMMAND_CONSUME (R64, R71, R664): one command of the ring whose turn it is. -/
def execCommandConsume (s : State) : Host.Outcome State Fault Refusal :=
  .next (match s.readyRings with
  | r :: _ => { s with turn := r }.consume (Fin.ofNat 1026 r)
  | [] => s)

end Sys2Proof.Machine
end

