-- ==== Sys2Proof/Machine/Heartbeat.lean ====
section
/-! DEFINITION. The heartbeat (R16 to R23): what a tick does to the module, Tansy's reactions (R607 to R612), the
timeouts of R21, and the entry of cells into sleep and their return (R24 to R29). -/

namespace Sys2Proof.Machine

/-! ### Tansy's reactions -/

/-- The payload of a level-source item (R608). -/
def Reaction.levelPayload (x : Reaction) : Nat :=
  x.reporter * 2 ^ 38 + b1 x.broken * 2 ^ 37 + b1 x.escalated * 2 ^ 36 + 1

/-- The payload of a partition-check item (R609). -/
def Reaction.checkPayload (x : Reaction) : Nat := x.reporter * 2 ^ 38 + b1 x.procStop * 2 ^ 37 + x.cell

/-- MC_HALT: STOP goes to every RUNNING partition but partition 0 (R610). -/
def State.haltPartitions (s : State) : State :=
  ((List.range 63).map (· + 1)).foldl (fun s n =>
    if s.cst (cellNo 0x14 n) = .running then (s.stopPart n none).2 else s) s

/-- Tansy reacts to one recorded fault (R607, R610, R611). -/
def State.react (s : State) (x : Reaction) : State :=
  let s := s.event (0x8C0 + x.level) x.levelPayload
  let s := if 3 ≤ x.level then
      (x.targets.foldl (fun s n => s.event (0x900 + n) x.checkPayload) s).modTansy fun t =>
        { t with errN := false, errLatch := true, pulseEnd := some (s.now + 200) }
    else s
  let s := s.log 1 x.level x.reporter (reporterCell x.reporter)
    (pack [(0, x.escBefore), (4, b1 x.broken), (5, b1 x.escalated)])
  if x.level = 4 ∧ s.tansy.mcHalt then s.haltPartitions else s

/-- ERR_N goes high in the tick after the later of the clear and the end of the pulse (R612). -/
def State.releaseErr (s : State) : State :=
  if !s.tansy.errLatch ∧ s.tansy.pulseEnd.isNone then s.modTansy fun t => { t with errN := true } else s

/-- The reactions to the faults recorded in the previous tick (R607). -/
def State.reactAll (s : State) : State :=
  let l := s.tansy.reactions
  l.foldl State.react (s.releaseErr.modTansy fun t => { t with reactions := [] })

/-! ### The tick -/

/-- SLEEP_POLICY takes effect (R27). -/
def State.policyTick (s : State) : State :=
  ((s.cells.filter fun e => e.2.nextPolicy.isSome).map Prod.fst).foldl (fun s c => s.modCell c fun x =>
    match x.nextPolicy with
    | some (manual, us) => { x with manual := manual, idleUs := us, nextPolicy := none }
    | none => x) s

/-- SENSOR_SET takes effect (R640). -/
def State.sensorTick (s : State) : State :=
  ((s.vixia.sensors.filter fun e => e.2.nextThr.isSome).map Prod.fst).foldl (fun s n => s.modSensor n fun x =>
    match x.nextThr with
    | some (high, low) => { x with high := high, low := low, nextThr := none }
    | none => x) s

/-- The quiet timers that have expired in the tick before take effect, and then FAULT_SET (R603). -/
def State.quietTick (s : State) : State :=
  let s := ((s.tansy.reps.filter fun e => e.2.expiring).map Prod.fst).foldl (fun s r => s.quietDone r) s
  ((s.tansy.reps.filter fun e => e.2.nextQuiet.isSome).map Prod.fst).foldl (fun s r => s.modRep r fun x =>
    match x.nextQuiet with
    | some q => { x with quiet := q, nextQuiet := none }
    | none => x) s

/-- What falls due in a tick whatever is commanded. -/
def State.tickWork (s : State) : State :=
  let s := (s.queues.map Prod.fst).foldl (fun s q => s.queueTick q) s
  let s := (s.timers.map Prod.fst).foldl (fun s n => s.timerTick n) s
  let s := (s.io.staging.map Prod.fst).foldl (fun s p => s.stagingTick p) s
  let s := (s.ioDieTick 0).ioDieTick 1
  let s := s.policyTick.sensorTick.quietTick.copiesTick
  let s := (s.mem.tiers.map Prod.fst).foldl (fun s t => s.pressureEval t) s.rebuildTick.intentTick
  s.bundleReplies.copyTick.groupTick.mirrorStep.sendMessages.reactAll.noteLines

/-- One heartbeat tick, in which the timebase advances by `by_` (R16, R18). The timebase starts at 0 on the first tick
after PWR_OK, from which Tansy runs (R17, R615). -/
def State.tick (s : State) (by_ : Nat) : State :=
  if !s.pins.pwrOk then s
  else if !s.tansyRuns then s.setCst cellTansy .running
  else
    let s := s.noteLines
    { s with clock := { s.clock with
        ticks := s.clock.ticks + 1
        tbBefore := s.clock.tb
        tb := s.clock.tb + BitVec.ofNat 64 by_
        sinceAdjust := if by_ = 10 then min 1024 (s.clock.sinceAdjust + 1) else 0 } }.tickWork

/-- HEARTBEAT_TICK (R16). -/
def execHeartbeatTick (s : State) : Host.Outcome State Fault Refusal := .next (s.tick 10)

/-- The tick may be adjusted: at most one in any 1,024 consecutive ticks, and only while Vixia runs (R18, R639). -/
def State.maySlew (s : State) : Bool := s.vixia.up && s.tansyRuns && decide (1023 ≤ s.clock.sinceAdjust)

/-- What is left of the offset that Vixia slews away (R584), after an adjusted tick. -/
def slewLeft (up : Bool) (left : Int) : Int :=
  if up then (if left < 0 then left + 1 else left) else (if 0 < left then left - 1 else left)

/-- TB_SLEW (R18): a tick that may not be adjusted is an ordinary one. -/
def execTbSlew (up : Bool) (s : State) : Host.Outcome State Fault Refusal :=
  .next (if s.pins.pwrOk ∧ s.maySlew then
    (s.modBundle fun b => { b with adjLeft := slewLeft up b.adjLeft }).tick (if up then 20 else 0)
  else s.tick 10)

/-- HBCLK_LOSS (R22). -/
def execHbclkLoss (s : State) : Host.Outcome State Fault Refusal :=
  .next (if !s.pins.pwrOk ∨ s.clock.backup then s
    else ({ s with clock := { s.clock with backup := true } }).report 0x1A5)

/-! ### Sleep -/

/-- The tick from which a cell is idle: of a port group, not before the latest frame of its lanes (R29). -/
def State.idleSince (s : State) (c : Nat) : Nat :=
  match cellKind c with
  | 0x05 => (List.range 16).foldl (fun n l => max n (s.port (16 * cellIndex c + l)).busyAt) (s.cell c).idleFrom
  | _ => (s.cell c).idleFrom

/-- A cell has been idle for its idle delay, or was asked to sleep and has become idle (R24, R25, R27, R29). A processor's
delay is that of R125. -/
def State.idleExpire (s : State) (c : Nat) : State :=
  let x := s.cell c
  if x.st ≠ .running ∨ x.waking ∨ !s.maySleep c ∨ s.holdsOf c ≠ 0 ∨ !s.idle c then s
  else if x.sleepAsked then s.enterSleep c
  else if x.manual then s
  else
    match cellKind c with
    | 0x01 => s.clockStop (2 * cellIndex c)
    | 0x02 => s.clockStop (cellIndex c)
    | _ => if s.idleSince c + 100 * s.idleDelay c ≤ s.now then s.enterSleep c else s

/-- IDLE_DELAY_EXPIRY (R24). -/
def execIdleDelayExpiry (cell : Nat) (s : State) : Host.Outcome State Fault Refusal := .next (s.idleExpire cell)

/-- A processor's clock runs again; a wait that can end does (R119, R125). A processor that woke because its partition stops,
stops (R476). -/
def State.coreWakes (s : State) (core : Nat) : State :=
  let s := (s.modCore core fun x => { x with clockOff := false, wakeAt := none }).tryEndWait core
  match s.proc core with
  | some q => if s.cst (cellNo 0x14 q.part) = .draining then s.stopProc (s.procCell q) else s
  | none => s

/-- A waking cell is RUNNING (R28, R29). -/
def State.wakeDone (s : State) (c : Nat) : State :=
  let x := s.cell c
  if x.st = .asleep ∧ x.waking then
    let s := s.modCell c fun x => { x with st := .running, waking := false, idleFrom := s.now }
    match cellKind c with
    | 0x01 => s.coreWakes (2 * cellIndex c)
    | 0x02 => s.coreWakes (cellIndex c)
    | _ => s
  else s

/-- CELL_WAKE_COMPLETE (R29). -/
def execCellWakeComplete (cell : Nat) (s : State) : Host.Outcome State Fault Refusal := .next (s.wakeDone cell)

/-! ### Timeouts -/

/-- What the expiry of a timeout does; one that is not due yet does nothing (R21). -/
def State.timeout (s : State) : TimerRef → State
  | .tail p => s.tailExpire p
  | .stale q => s.staleExpire q
  | .quiet r => s.quietExpire r
  | .rto x => s.rtoExpire x
  | .keepalive p => s.keepaliveDue p
  | .linkRx p => s.linkSilent p
  | .training p => s.trainExpire p
  | .align p => s.alignExpire p
  | .errPulse => s.pulseExpire
  | .cutoff j => s.cutoff j
  | .lateLimit j => s.lateLimit j
  | .powerGood cmp => s.powerGoodLate cmp
  | .idle c => s.idleExpire c

/-- TIMEOUT_EXPIRY (R21). -/
def execTimeoutExpiry (t : TimerRef) (s : State) : Host.Outcome State Fault Refusal := .next (s.timeout t)

end Sys2Proof.Machine
end

