-- ==== Sys2Proof/Machine/Partner.lean ====
section
/-! DEFINITION. The module as the partner of a conversation (R549 to R553): on a bundle port, the operations that carry bundle
messages (R575), and what a message does at the member that receives it. DATA frames of the module's own operations go
to Link. -/

namespace Sys2Proof.Machine

/-! ### Bundle messages -/

/-- The member of an identity (R572). -/
def State.memberOf (s : State) (origin : Word) : Option Nat := memberIndex s.bundleCfg origin

/-- A cross-member event arrives (R589, R590): neither member may be fenced (R586). The sender is told. -/
def State.crossEvent (s : State) (m : Nat) (w : Word) : State :=
  let ok := s.bundle.bstate != .fenced && (s.member m).fence == 0
  let s := if ok then s.event (0x9F4 + bits w 17 16) (2 ^ (32 + m) + bits w 63 32) else s
  s.modBundle fun b => { b with outbound := b.outbound ++ [(m, beBytes 1 (b1 ok) ++ wordBytes w)] }

/-- The class under which another member's packet is executed (R578). -/
def State.classFrom (s : State) (auth : Byte) : Byte := if s.trustMgr ∧ auth = 1 then 1 else 3

/-- A packet of another member is executed, and its reply goes back (R578, R586). What it gives is judged by `run`. -/
def State.runFor (s : State) (m : Nat) (bytes : Bytes) (run : Nat → Pkt → State → Res) (level : Nat) : State :=
  let (code, status, pk) := parsePacket 1025 bytes
  let pk := { pk with auth := s.classFrom pk.auth }
  let me : Nat := 2 ^ s.bundle.index
  let r := if status ≠ 0 then refuse status 0 s
    else if s.bundle.bstate = .fenced then refuse 0x02B1 me s
    else run code pk s
  let t := if pk.checkOnly ∧ r.status ≠ later then s else r.state
  let onward := level = 1023 ∧ r.status = 0
  let waits := r.status = later ∨ (!onward ∧ replyStatus pk.checkOnly r.status = 1)
  let t := if waits then t.modRing 1025 fun x => { x with outstanding := x.outstanding + 1 } else t
  let t := if waits ∨ (onward ∧ numAt r.results 8 2 = 1) then
      t.modBundle fun b => { b with askers := b.askers ++ [(m, pk.tag)] }
    else t
  if r.status = later then t
  else
    let inner := if onward then r.results else innerReply s code 1 pk r
    t.replyToMember m inner

/-- A packet for this module itself: its path is relative to the module. -/
def State.runHere (s : State) (m : Nat) (bytes : Bytes) : State := s.runFor m bytes judgeTop 0

/-- A packet for this module's bundle, from its parent, takes path byte 0 as the member index (R44); one on its way to the
outermost bundle has its path from there (R577). -/
def State.runOnward (s : State) (m : Nat) (bytes : Bytes) (fromTop : Bool) : State :=
  s.runFor m bytes (fun code pk s =>
    let o : Outer := ⟨{ pk with params := bytes }, 1023⟩
    if s.bundle.bstate = .standalone then refuse 0x02B0 0 s
    else
      reachRun judgeTop o code 0 pk bytes s (reachOf (if fromTop then s.bundleHome else []) pk.path)) 1023

/-- The packet that a waiting FORWARD sent has an opcode and a tag. -/
def forwardIs (m : Nat) (bytes : Bytes) (f : Nat × Pkt) : Bool :=
  let inner := innerPacket (forwardLevels f) f.2.params
  (forwardMember f == m || forwardMember f == 16) && slice inner 2 6 == slice bytes 2 6

/-- A reply of another member (R46, R662): it answers the FORWARD that waits for it; after ACCEPTED the completion is still
owed, and it is posted on the ring that carried the FORWARD when it comes. -/
def State.replyFrom (s : State) (bytes : Bytes) (f : Nat × Pkt) : State :=
  if f.1 < 32768 then
    let owed := numAt bytes 8 2 == 1
    let s := s.answerForwards (· == f) fun _ => bytes
    if owed then
      (s.modRing f.2.ring fun x => { x with outstanding := x.outstanding + 1 }).modBundle fun b =>
        { b with forwards := b.forwards ++ [(f.1 + 32768, f.2)] }
    else s
  else
    (s.modBundle fun b => { b with forwards := b.forwards.erase f }).complete
      { ring := f.2.ring, tag := BitVec.ofNat 32 (numAt bytes 4 4), op := BitVec.ofNat 16 (numAt bytes 2 2),
        partition := bytes.getD 24 0 } (numAt bytes 8 2) (numAt bytes 12 4) (bytes.drop 32)

/-- A bundle message of member `m` (R575; their forms are this model's, log entry 71): a manifest, an event or the answer to one,
FENCE or UNFENCE, what mirroring tells its partner and what that answers, a reply, or a packet: for this module, for its bundle where the parent
sends it (0x100), or for the outermost bundle where a byte of 0xFF precedes it. A reply follows a byte of 0xFE. -/
def State.bundleMessage (s : State) (m : Nat) (bytes : Bytes) : State :=
  let s := if m < 16 then s.modMember m fun x => { x with lastHeard := s.now } else s
  if bytes.length = 80 ∧ wordAt bytes 0 = cfgMember s.bundleCfg m then s.manifestFrom m bytes
  else if bytes.length = 8 then s.crossEvent m (wordAt bytes 0)
  else if bytes.length = 9 then (s.eventAnswer m (wordAt (bytes.drop 1) 0) (bytes.getD 0 0 == 1)).eventSendsDone
  else if bytes.length = 10 then
    (s.setFence s.bundle.index 2 (numAt bytes 0 2 == 0x0B01)).bundleEvents s
  else if bytes.length % 8 = 5 ∧ bytes.getD 0 0 = 0xFD then (s.takeRouted bytes).eventSendsDone
  else if bytes.length < 16 ∨ bytes.length = 38 ∨ bytes.length = 39 then
    (s.mirrorMessage (s.bundleHome ++ [BitVec.ofNat 8 m]) (cfgMember s.bundleCfg m) bytes).eventSendsDone
  else if bytes.length < 32 then s
  else if bytes.length % 8 = 0 then (if m = 0x100 then s.runOnward m bytes false else s.runHere m bytes)
  else if bytes.getD 0 0 = 0xFF then s.runOnward m (bytes.drop 1) true
  else
    let reply := bytes.drop 1
    match s.groupReply m reply, s.bundle.forwards.find? (forwardIs m reply) with
    | some t, _ => t
    | none, some f => s.replyFrom reply f
    | none, none => s

/-- The latest operation has all its data: END follows, and the message is delivered or, where it is for another member,
passed on (R576). -/
def State.partnerDone (s : State) (c : PartnerConv) : State :=
  let s := s.partnerEnd { c with open_ := false, status := 0 }
  let bytes := c.received.take c.count
  let (src, dst, content) := Config.bundleRead bytes
  if dst = s.bundle.index then s.bundleMessage src content
  else s.modBundle fun b => { b with transit := b.transit ++ [(dst, bytes)] }

/-! ### Frames -/

/-- An OP frame at the membership (R549). READ and SENSE have nothing to give: they end at once, with an open status. -/
def State.recvOp (s : State) (p : Nat) (f : Frame) : State :=
  let origin := s.originOf p
  let old := s.partner origin (frameCtx f)
  let c : PartnerConv := { old.getD (PartnerConv.fresh origin (frameCtx f) p) with port := p }
  let kind := numAt f.payload 2 1
  let count := numAt f.payload 4 4
  let offset := numAt f.payload 8 4
  if f.resume ∧ c.latest = some f.seq then
    if c.open_ then
      s.setPartner { c with received := c.received.take offset, rx := f.seq + 1, resync := true }
    else s.partnerEnd { c with rx := f.seq + 1, resync := true }
  else if old.isNone ∨ above f.seq c.high then
    let c := { c with high := f.seq, latest := some f.seq, open_ := true, kind := kind, count := count, received := [],
                      rx := f.seq + 1, resync := c.resync || f.resume }
    let s := s.setPartner c
    if kind = 1 ∨ kind = 4 then
      let (v, s) := s.fresh
      s.partnerEnd { c with open_ := false, status := v.setWidth 8 }
    else if count = 0 then s.partnerDone c
    else s.partnerSay c .ack []
  else s.partnerSay c .ack []

/-- OP (R549). An OP that is not for the membership is discarded: the module serves no other operation. -/
def execOp (port : PortId) (f : Frame) (s : State) : Host.Outcome State Fault Refusal :=
  .next (if s.isUp port then
    let s := s.hear port 0
    if s.bundlePort port ∧ toMembership f then s.recvOp port f else s
  else s)

/-- A DATA frame of a bundle message: its credits are free again at once (R553). -/
def State.partnerData (s : State) (c : PartnerConv) (f : Frame) : State :=
  let s := s.returnCredits c.port (creditsFor f.payload.length)
  let c := { c with unacked := c.unacked.filter fun u => above u.frame.seq f.ack }
  let (ok, c, s) := s.partnerAccept c f
  if !ok then s
  else
    let c := { c with received := c.received ++ f.payload }
    let s := s.setPartner c
    if c.count ≤ c.received.length then s.partnerDone c else s.partnerSay c .ack []

/-- The open conversation of a port to which a DATA or ABORT frame belongs. -/
def State.partnerFor (s : State) (p : Nat) (f : Frame) : Option PartnerConv :=
  if s.bundlePort p then (s.partner (s.originOf p) (frameCtx f)).filter fun c => c.open_ && c.port == p else none

/-- DATA (R551): of an operation that the partner has opened here, else of one of this module's own. -/
def execData (port : PortId) (f : Frame) (s : State) : Host.Outcome State Fault Refusal :=
  .next (if s.isUp port then
    let s := (s.hear port f.credit).acked (frameCtx f) f.ack
    match s.partnerFor port f with
    | some c => s.partnerData c f
    | none => s.recvData port f
  else s)

/-- An operation that is stopped ends with a status that the spec leaves open. -/
def State.partnerStop (s : State) (c : PartnerConv) : State :=
  let (v, s) := s.fresh
  s.partnerEnd { c with open_ := false, status := v.setWidth 8 }

/-- ABORT (R549). -/
def execAbort (port : PortId) (f : Frame) (s : State) : Host.Outcome State Fault Refusal :=
  .next (if s.isUp port then
    let s := s.hear port f.credit
    match s.partnerFor port f with
    | some c =>
      let (ok, c, s) := s.partnerAccept c f
      if !ok then s
      else if c.latest = some (BitVec.ofNat 32 (numAt f.payload 0 4)) then s.partnerStop c
      else (s.setPartner c).partnerSay c .ack []
    | none => s
  else s)

/-- RESOLVE of a conversation of any origin (R413, R549). -/
def State.answerResolve (s : State) (p : Nat) (f : Frame) : State :=
  let origin := wordAt f.payload 0
  let vc := numAt f.payload 8 4
  let seq := BitVec.ofNat 32 (numAt f.payload 12 4)
  let old := s.partner origin vc
  let c := old.getD (PartnerConv.fresh origin vc p)
  let say (s : State) (outcome : Nat) (status : Byte) : State :=
    s.partnerSay { c with port := p, vc := frameCtx f } .resolved
      (f.payload.take 16 ++ [BitVec.ofNat 8 outcome, status] ++ zeros 6)
  if c.latest = some seq then
    if c.open_ then
      let (v, s) := s.fresh
      let st := v.setWidth 8
      say (s.setPartner { c with open_ := false, status := st }) 0 st
    else say s 0 c.status
  else say (s.setPartner { c with high := if old.isNone ∨ above seq c.high then seq else c.high }) 1 0

/-- RESOLVE (R549). -/
def execResolve (port : PortId) (f : Frame) (s : State) : Host.Outcome State Fault Refusal :=
  .next (if s.isUp port then
    let s := s.hear port 0
    if s.bundlePort port ∧ toMembership f then s.answerResolve port f else s
  else s)

/-- SYNC (R548, R549): HIGH of the conversation, or NONE. -/
def execSync (port : PortId) (f : Frame) (s : State) : Host.Outcome State Fault Refusal :=
  .next (if s.isUp port then
    let s := s.hear port 0
    if s.bundlePort port ∧ toMembership f then
      match s.partner (s.originOf port) (frameCtx f) with
      | some c => s.partnerSay { c with port := port } .synced (beBytes 4 c.high.toNat ++ zeros 4)
      | none =>
        s.partnerSay (PartnerConv.fresh (s.originOf port) (frameCtx f) port) .synced (zeros 4 ++ [1, 0, 0, 0])
    else s
  else s)

end Sys2Proof.Machine
end

