-- ==== Sys2Proof/Machine/Dispatch.lean ====
section
/-! DEFINITION. One arm per command of the table: what executing it does to everything but the queue. -/

namespace Sys2Proof.Machine

/-- The effect of a command on the module (the queue of waiting commands apart). -/
def exec (i : Instr) (s : State) : Host.Outcome State Fault Refusal :=
  match i with
  | .tbSlew up => Sys2Proof.Machine.execTbSlew up s
  | .hbclkLoss => Sys2Proof.Machine.execHbclkLoss s
  | .timeoutExpiry t => Sys2Proof.Machine.execTimeoutExpiry t s
  | .idleDelayExpiry cell => Sys2Proof.Machine.execIdleDelayExpiry cell s
  | .cellWakeComplete cell => Sys2Proof.Machine.execCellWakeComplete cell s
  | .packagePowerCheck mw => Sys2Proof.Machine.execPackagePowerCheck mw s
  | .dmaTokenRefill d => Sys2Proof.Machine.execDmaTokenRefill d s
  | .dmaCapSet pk => Sys2Proof.Machine.execDmaCapSet pk s
  | .identify pk => Sys2Proof.Machine.execIdentify pk s
  | .query pk => Sys2Proof.Machine.execQuery pk s
  | .stop pk => Sys2Proof.Machine.execStop pk s
  | .change pk => Sys2Proof.Machine.execChange pk s
  | .start pk => Sys2Proof.Machine.execStart pk s
  | .reset pk => Sys2Proof.Machine.execReset pk s
  | .sleep pk => Sys2Proof.Machine.execSleep pk s
  | .wake pk => Sys2Proof.Machine.execWake pk s
  | .forward pk => Sys2Proof.Machine.execForward pk s
  | .sleepPolicy pk => Sys2Proof.Machine.execSleepPolicy pk s
  | .drainComplete cell => Sys2Proof.Machine.execDrainComplete cell s
  | .doorbell ring v => Sys2Proof.Machine.execDoorbell ring v s
  | .commandConsume => Sys2Proof.Machine.execCommandConsume s
  | .replyWrite ring => Sys2Proof.Machine.execReplyWrite ring s
  | .ringEnable ring on log2 => Sys2Proof.Machine.execRingEnable ring on log2 s
  | .ringHaltClear ring => Sys2Proof.Machine.execRingHaltClear ring s
  | .replyConsWrite ring v => Sys2Proof.Machine.execReplyConsWrite ring v s
  | .registerWrite addr v => Sys2Proof.Machine.execRegisterWrite addr v s
  | .queuePop q core => Sys2Proof.Machine.execQueuePop q core s
  | .queuePeek q => Sys2Proof.Machine.execQueuePeek q s
  | .add core d a b => Sys2Proof.Machine.execAdd core d a b s
  | .sub core d a b => Sys2Proof.Machine.execSub core d a b s
  | .and core d a b => Sys2Proof.Machine.execAnd core d a b s
  | .or core d a b => Sys2Proof.Machine.execOr core d a b s
  | .xor core d a b => Sys2Proof.Machine.execXor core d a b s
  | .andn core d a b => Sys2Proof.Machine.execAndn core d a b s
  | .addc core d a b => Sys2Proof.Machine.execAddc core d a b s
  | .subb core d a b => Sys2Proof.Machine.execSubb core d a b s
  | .sll core d a b => Sys2Proof.Machine.execSll core d a b s
  | .srl core d a b => Sys2Proof.Machine.execSrl core d a b s
  | .sra core d a b => Sys2Proof.Machine.execSra core d a b s
  | .ror core d a b => Sys2Proof.Machine.execRor core d a b s
  | .slt core d a b => Sys2Proof.Machine.execSlt core d a b s
  | .sltu core d a b => Sys2Proof.Machine.execSltu core d a b s
  | .cmp core a b => Sys2Proof.Machine.execCmp core a b s
  | .tst core a b => Sys2Proof.Machine.execTst core a b s
  | .shi core d a fn amount => Sys2Proof.Machine.execShi core d a fn amount s
  | .addi8 core d a imm => Sys2Proof.Machine.execAddi8 core d a imm s
  | .cmpi8 core a imm => Sys2Proof.Machine.execCmpi8 core a imm s
  | .mul core a b => Sys2Proof.Machine.execMul core a b s
  | .mulu core a b => Sys2Proof.Machine.execMulu core a b s
  | .div core a b => Sys2Proof.Machine.execDiv core a b s
  | .divu core a b => Sys2Proof.Machine.execDivu core a b s
  | .divideComplete core => Sys2Proof.Machine.execDivideComplete core s
  | .mfph core d => Sys2Proof.Machine.execMfph core d s
  | .mfpl core d => Sys2Proof.Machine.execMfpl core d s
  | .mtph core a => Sys2Proof.Machine.execMtph core a s
  | .mtpl core a => Sys2Proof.Machine.execMtpl core a s
  | .clz core d a => Sys2Proof.Machine.execClz core d a s
  | .ctz core d a => Sys2Proof.Machine.execCtz core d a s
  | .popc core d a => Sys2Proof.Machine.execPopc core d a s
  | .bswap core d a => Sys2Proof.Machine.execBswap core d a s
  | .sextb core d a => Sys2Proof.Machine.execSextb core d a s
  | .sexth core d a => Sys2Proof.Machine.execSexth core d a s
  | .sextw core d a => Sys2Proof.Machine.execSextw core d a s
  | .zextw core d a => Sys2Proof.Machine.execZextw core d a s
  | .ldb core d a b => Sys2Proof.Machine.execLdb core d a b s
  | .ldh core d a b => Sys2Proof.Machine.execLdh core d a b s
  | .ldw core d a b => Sys2Proof.Machine.execLdw core d a b s
  | .ldd core d a b => Sys2Proof.Machine.execLdd core d a b s
  | .ldbs core d a b => Sys2Proof.Machine.execLdbs core d a b s
  | .ldhs core d a b => Sys2Proof.Machine.execLdhs core d a b s
  | .ldws core d a b => Sys2Proof.Machine.execLdws core d a b s
  | .stb core d a b => Sys2Proof.Machine.execStb core d a b s
  | .sth core d a b => Sys2Proof.Machine.execSth core d a b s
  | .stw core d a b => Sys2Proof.Machine.execStw core d a b s
  | .std core d a b => Sys2Proof.Machine.execStd core d a b s
  | .ldd8 core d a imm => Sys2Proof.Machine.execLdd8 core d a imm s
  | .std8 core d a imm => Sys2Proof.Machine.execStd8 core d a imm s
  | .swap core d a b => Sys2Proof.Machine.execSwap core d a b s
  | .cas core d a b => Sys2Proof.Machine.execCas core d a b s
  | .faddAtomic core d a b => Sys2Proof.Machine.execFaddAtomic core d a b s
  | .fand core d a b => Sys2Proof.Machine.execFand core d a b s
  | .for_ core d a b => Sys2Proof.Machine.execFor core d a b s
  | .fxor core d a b => Sys2Proof.Machine.execFxor core d a b s
  | .setcc core d cond => Sys2Proof.Machine.execSetcc core d cond s
  | .jmpr core a => Sys2Proof.Machine.execJmpr core a s
  | .callr core a => Sys2Proof.Machine.execCallr core a s
  | .ret core => Sys2Proof.Machine.execRet core s
  | .sevt core a b => Sys2Proof.Machine.execSevt core a b s
  | .waitc core d a => Sys2Proof.Machine.execWaitc core d a s
  | .waitcTimeReached core => Sys2Proof.Machine.execWaitcTimeReached core s
  | .eret core => Sys2Proof.Machine.execEret core s
  | .wfe core => Sys2Proof.Machine.execWfe core s
  | .sev core => Sys2Proof.Machine.execSev core s
  | .syscall core => Sys2Proof.Machine.execSyscall core s
  | .hostcall core => Sys2Proof.Machine.execHostcall core s
  | .break_ core => Sys2Proof.Machine.execBreak core s
  | .rdtb core d => Sys2Proof.Machine.execRdtb core d s
  | .mfps core d => Sys2Proof.Machine.execMfps core d s
  | .mtps core a => Sys2Proof.Machine.execMtps core a s
  | .fence core => Sys2Proof.Machine.execFence core s
  | .fenceI core => Sys2Proof.Machine.execFenceI core s
  | .mfk core d k => Sys2Proof.Machine.execMfk core d k s
  | .mtk core a k => Sys2Proof.Machine.execMtk core a k s
  | .fadd core fmt d a b => Sys2Proof.Machine.execFadd core fmt d a b s
  | .fsub core fmt d a b => Sys2Proof.Machine.execFsub core fmt d a b s
  | .fmul core fmt d a b => Sys2Proof.Machine.execFmul core fmt d a b s
  | .fdiv core fmt d a b => Sys2Proof.Machine.execFdiv core fmt d a b s
  | .fsqrt core fmt d a => Sys2Proof.Machine.execFsqrt core fmt d a s
  | .fmin core fmt d a b => Sys2Proof.Machine.execFmin core fmt d a b s
  | .fmax core fmt d a b => Sys2Proof.Machine.execFmax core fmt d a b s
  | .fcmp core fmt a b => Sys2Proof.Machine.execFcmp core fmt a b s
  | .fcvt core d a src dst => Sys2Proof.Machine.execFcvt core d a src dst s
  | .fmov core fmt d a => Sys2Proof.Machine.execFmov core fmt d a s
  | .fneg core fmt d a => Sys2Proof.Machine.execFneg core fmt d a s
  | .fabs core fmt d a => Sys2Proof.Machine.execFabs core fmt d a s
  | .fclass core fmt d a => Sys2Proof.Machine.execFclass core fmt d a s
  | .frint core fmt d a => Sys2Proof.Machine.execFrint core fmt d a s
  | .frintx core fmt d a => Sys2Proof.Machine.execFrintx core fmt d a s
  | .fmvgf core d a => Sys2Proof.Machine.execFmvgf core d a s
  | .fmvgfh core d a => Sys2Proof.Machine.execFmvgfh core d a s
  | .fmvfg core d a => Sys2Proof.Machine.execFmvfg core d a s
  | .fmvfgh core d a => Sys2Proof.Machine.execFmvfgh core d a s
  | .mffs core d => Sys2Proof.Machine.execMffs core d s
  | .mtfs core a => Sys2Proof.Machine.execMtfs core a s
  | .flds core d a b => Sys2Proof.Machine.execFlds core d a b s
  | .fldd core d a b => Sys2Proof.Machine.execFldd core d a b s
  | .fldq core d a b => Sys2Proof.Machine.execFldq core d a b s
  | .fsts core d a b => Sys2Proof.Machine.execFsts core d a b s
  | .fstd core d a b => Sys2Proof.Machine.execFstd core d a b s
  | .fstq core d a b => Sys2Proof.Machine.execFstq core d a b s
  | .br8 core cond off => Sys2Proof.Machine.execBr8 core cond off s
  | .brz core test a off => Sys2Proof.Machine.execBrz core test a off s
  | .tlbi core a => Sys2Proof.Machine.execTlbi core a s
  | .tlbiasid core a => Sys2Proof.Machine.execTlbiasid core a s
  | .tlbiall core => Sys2Proof.Machine.execTlbiall core s
  | .htlbi core a b => Sys2Proof.Machine.execHtlbi core a b s
  | .htlbip core b => Sys2Proof.Machine.execHtlbip core b s
  | .fma core fmt d a b c neg => Sys2Proof.Machine.execFma core fmt d a b c neg s
  | .addi core d a imm => Sys2Proof.Machine.execAddi core d a imm s
  | .andi core d a imm => Sys2Proof.Machine.execAndi core d a imm s
  | .ori core d a imm => Sys2Proof.Machine.execOri core d a imm s
  | .xori core d a imm => Sys2Proof.Machine.execXori core d a imm s
  | .cmpi core a imm => Sys2Proof.Machine.execCmpi core a imm s
  | .ld core d a minor imm => Sys2Proof.Machine.execLd core d a minor imm s
  | .st core d a minor imm => Sys2Proof.Machine.execSt core d a minor imm s
  | .fld core d a minor imm => Sys2Proof.Machine.execFld core d a minor imm s
  | .fst core d a minor imm => Sys2Proof.Machine.execFst core d a minor imm s
  | .br core cond off => Sys2Proof.Machine.execBr core cond off s
  | .call core off => Sys2Proof.Machine.execCall core off s
  | .insh core d a imm => Sys2Proof.Machine.execInsh core d a imm s
  | .addpc core d imm => Sys2Proof.Machine.execAddpc core d imm s
  | .movi core d imm => Sys2Proof.Machine.execMovi core d imm s
  | .addi48 core d a imm => Sys2Proof.Machine.execAddi48 core d a imm s
  | .ldl core d a minor imm => Sys2Proof.Machine.execLdl core d a minor imm s
  | .stl core d a minor imm => Sys2Proof.Machine.execStl core d a minor imm s
  | .brl core cond off => Sys2Proof.Machine.execBrl core cond off s
  | .calll core off => Sys2Proof.Machine.execCalll core off s
  | .interruptEntry core => Sys2Proof.Machine.execInterruptEntry core s
  | .clockStopIdle core => Sys2Proof.Machine.execClockStopIdle core s
  | .waitcScheduledWake core => Sys2Proof.Machine.execWaitcScheduledWake core s
  | .windowCycleLimit pair => Sys2Proof.Machine.execWindowCycleLimit pair s
  | .windowCompare pair rails => Sys2Proof.Machine.execWindowCompare pair rails s
  | .pairRestartComplete pair => Sys2Proof.Machine.execPairRestartComplete pair s
  | .gatedStoreRelease pair => Sys2Proof.Machine.execGatedStoreRelease pair s
  | .busCompareDifference pair cycle field => Sys2Proof.Machine.execBusCompareDifference pair cycle field s
  | .buscmpSelfTest pair reported => Sys2Proof.Machine.execBuscmpSelfTest pair reported s
  | .delayRegisterError pair correctable => Sys2Proof.Machine.execDelayRegisterError pair correctable s
  | .checkpointArrayError pair correctable => Sys2Proof.Machine.execCheckpointArrayError pair correctable s
  | .split pk => Sys2Proof.Machine.execSplit pk s
  | .splitComplete pair => Sys2Proof.Machine.execSplitComplete pair s
  | .join pk => Sys2Proof.Machine.execJoin pk s
  | .joinComplete pair => Sys2Proof.Machine.execJoinComplete pair s
  | .spare pk => Sys2Proof.Machine.execSpare pk s
  | .spareHandover pair => Sys2Proof.Machine.execSpareHandover pair s
  | .inject pk => Sys2Proof.Machine.execInject pk s
  | .cleanRange pk => Sys2Proof.Machine.execCleanRange pk s
  | .flushRange pk => Sys2Proof.Machine.execFlushRange pk s
  | .invalRange pk => Sys2Proof.Machine.execInvalRange pk s
  | .rangeOpComplete job => Sys2Proof.Machine.execRangeOpComplete job s
  | .lockWays pk => Sys2Proof.Machine.execLockWays pk s
  | .lockWaysComplete job => Sys2Proof.Machine.execLockWaysComplete job s
  | .unlockWays pk => Sys2Proof.Machine.execUnlockWays pk s
  | .regionSet pk => Sys2Proof.Machine.execRegionSet pk s
  | .regionSetComplete job => Sys2Proof.Machine.execRegionSetComplete job s
  | .waysOff pk => Sys2Proof.Machine.execWaysOff pk s
  | .waysOffComplete job => Sys2Proof.Machine.execWaysOffComplete job s
  | .waysOn pk => Sys2Proof.Machine.execWaysOn pk s
  | .waysOnComplete job => Sys2Proof.Machine.execWaysOnComplete job s
  | .cacheDisable pk => Sys2Proof.Machine.execCacheDisable pk s
  | .cacheDisableComplete job => Sys2Proof.Machine.execCacheDisableComplete job s
  | .cacheEnable pk => Sys2Proof.Machine.execCacheEnable pk s
  | .prefetchSet pk => Sys2Proof.Machine.execPrefetchSet pk s
  | .stridePrefetch pair key => Sys2Proof.Machine.execStridePrefetch pair key s
  | .dmaStreamPrefetch slice requester page => Sys2Proof.Machine.execDmaStreamPrefetch slice requester page s
  | .sliceDrainComplete slice => Sys2Proof.Machine.execSliceDrainComplete slice s
  | .channelLinkRetry ch passed => Sys2Proof.Machine.execChannelLinkRetry ch passed s
  | .patrolScrub ch line errs => Sys2Proof.Machine.execPatrolScrub ch line errs s
  | .channelFault ch => Sys2Proof.Machine.execChannelFault ch s
  | .channelRebuildComplete ch => Sys2Proof.Machine.execChannelRebuildComplete ch s
  | .granuleKey pk => Sys2Proof.Machine.execGranuleKey pk s
  | .granuleKeyComplete job => Sys2Proof.Machine.execGranuleKeyComplete job s
  | .keyRenew pk => Sys2Proof.Machine.execKeyRenew pk s
  | .zeroRange pk => Sys2Proof.Machine.execZeroRange pk s
  | .zeroRangeComplete job => Sys2Proof.Machine.execZeroRangeComplete job s
  | .tierSet pk => Sys2Proof.Machine.execTierSet pk s
  | .tierSetComplete job => Sys2Proof.Machine.execTierSetComplete job s
  | .tierClear pk => Sys2Proof.Machine.execTierClear pk s
  | .poolAdd pk => Sys2Proof.Machine.execPoolAdd pk s
  | .poolRemove pk => Sys2Proof.Machine.execPoolRemove pk s
  | .tierThresh pk => Sys2Proof.Machine.execTierThresh pk s
  | .scrubSet pk => Sys2Proof.Machine.execScrubSet pk s
  | .tierWriteBack region line => Sys2Proof.Machine.execTierWriteBack region line s
  | .pinnedLineRetry region => Sys2Proof.Machine.execPinnedLineRetry region s
  | .startIo pk => Sys2Proof.Machine.execStartIo pk s
  | .resume pk => Sys2Proof.Machine.execResume pk s
  | .cancel pk => Sys2Proof.Machine.execCancel pk s
  | .transferEntry ctx => Sys2Proof.Machine.execTransferEntry ctx s
  | .ioCompletion ctx => Sys2Proof.Machine.execIoCompletion ctx s
  | .cpTakeover cp => Sys2Proof.Machine.execCpTakeover cp s
  | .moverGrant d => Sys2Proof.Machine.execMoverGrant d s
  | .inboundDrainEnd port => Sys2Proof.Machine.execInboundDrainEnd port s
  | .tailTimerExpiry port => Sys2Proof.Machine.execTailTimerExpiry port s
  | .outboundFill port => Sys2Proof.Machine.execOutboundFill port s
  | .stageSet pk => Sys2Proof.Machine.execStageSet pk s
  | .moverSet pk => Sys2Proof.Machine.execMoverSet pk s
  | .move pk => Sys2Proof.Machine.execMove pk s
  | .moveComplete job => Sys2Proof.Machine.execMoveComplete job s
  | .busErrorRetry mover pa unit times => Sys2Proof.Machine.execBusErrorRetry mover pa unit times s
  | .moverFault mover => Sys2Proof.Machine.execMoverFault mover s
  | .deadlineCutoff entry => Sys2Proof.Machine.execDeadlineCutoff entry s
  | .lateLimitExpiry entry => Sys2Proof.Machine.execLateLimitExpiry entry s
  | .pathFailure ctx => Sys2Proof.Machine.execPathFailure ctx s
  | .redriveSend ctx => Sys2Proof.Machine.execRedriveSend ctx s
  | .pathReturn ctx port => Sys2Proof.Machine.execPathReturn ctx port s
  | .journalEntryUe copy entry => Sys2Proof.Machine.execJournalEntryUe copy entry s
  | .journalRebuildComplete copy => Sys2Proof.Machine.execJournalRebuildComplete copy s
  | .journalRead pk => Sys2Proof.Machine.execJournalRead pk s
  | .lateAck pk => Sys2Proof.Machine.execLateAck pk s
  | .journalList pk => Sys2Proof.Machine.execJournalList pk s
  | .journalMirror pk => Sys2Proof.Machine.execJournalMirror pk s
  | .journalMirrorComplete => Sys2Proof.Machine.execJournalMirrorComplete s
  | .journalTakeover home => Sys2Proof.Machine.execJournalTakeover home s
  | .bind pk => Sys2Proof.Machine.execBind pk s
  | .unbind pk => Sys2Proof.Machine.execUnbind pk s
  | .eventPush source => Sys2Proof.Machine.execEventPush source s
  | .queueReset q => Sys2Proof.Machine.execQueueReset q s
  | .queuePointerFault q itemUe => Sys2Proof.Machine.execQueuePointerFault q itemUe s
  | .staleTimerExpiry q => Sys2Proof.Machine.execStaleTimerExpiry q s
  | .timerExpiry unit => Sys2Proof.Machine.execTimerExpiry unit s
  | .routeSet pk => Sys2Proof.Machine.execRouteSet pk s
  | .queueTune pk => Sys2Proof.Machine.execQueueTune pk s
  | .timerSet pk => Sys2Proof.Machine.execTimerSet pk s
  | .sourceQuery pk => Sys2Proof.Machine.execSourceQuery pk s
  | .assign pk => Sys2Proof.Machine.execAssign pk s
  | .revoke pk => Sys2Proof.Machine.execRevoke pk s
  | .assignRevokeComplete job => Sys2Proof.Machine.execAssignRevokeComplete job s
  | .shareSet pk => Sys2Proof.Machine.execShareSet pk s
  | .shareSetComplete job => Sys2Proof.Machine.execShareSetComplete job s
  | .mboxBellTEvent n => Sys2Proof.Machine.execMboxBellTEvent n s
  | .mboxBellTSev n => Sys2Proof.Machine.execMboxBellTSev n s
  | .mboxBellMEvent n => Sys2Proof.Machine.execMboxBellMEvent n s
  | .mboxBellMSev n => Sys2Proof.Machine.execMboxBellMSev n s
  | .compress pk => Sys2Proof.Machine.execCompress pk s
  | .decompress pk => Sys2Proof.Machine.execDecompress pk s
  | .cipher pk => Sys2Proof.Machine.execCipher pk s
  | .digest pk => Sys2Proof.Machine.execDigest pk s
  | .rsa pk => Sys2Proof.Machine.execRsa pk s
  | .ecdsaSign pk => Sys2Proof.Machine.execEcdsaSign pk s
  | .ecdsaVerify pk => Sys2Proof.Machine.execEcdsaVerify pk s
  | .random pk => Sys2Proof.Machine.execRandom pk s
  | .keyLoad pk => Sys2Proof.Machine.execKeyLoad pk s
  | .keyGen pk => Sys2Proof.Machine.execKeyGen pk s
  | .keyClear pk => Sys2Proof.Machine.execKeyClear pk s
  | .engineCompletion e => Sys2Proof.Machine.execEngineCompletion e s
  | .entropyTestFail e => Sys2Proof.Machine.execEntropyTestFail e s
  | .op port f => Sys2Proof.Machine.execOp port f s
  | .data port f => Sys2Proof.Machine.execData port f s
  | .end_ port f => Sys2Proof.Machine.execEnd port f s
  | .ack port f => Sys2Proof.Machine.execAck port f s
  | .nak port f => Sys2Proof.Machine.execNak port f s
  | .resolve port f => Sys2Proof.Machine.execResolve port f s
  | .resolved port f => Sys2Proof.Machine.execResolved port f s
  | .sync port f => Sys2Proof.Machine.execSync port f s
  | .synced port f => Sys2Proof.Machine.execSynced port f s
  | .abort port f => Sys2Proof.Machine.execAbort port f s
  | .hello port h => Sys2Proof.Machine.execHello port h s
  | .keepalive port => Sys2Proof.Machine.execKeepalive port s
  | .quietReq port => Sys2Proof.Machine.execQuietReq port s
  | .quietAck port => Sys2Proof.Machine.execQuietAck port s
  | .loopReq port => Sys2Proof.Machine.execLoopReq port s
  | .loopAck port => Sys2Proof.Machine.execLoopAck port s
  | .loopEnd port => Sys2Proof.Machine.execLoopEnd port s
  | .rtoExpiry conv => Sys2Proof.Machine.execRtoExpiry conv s
  | .keepaliveTimer port => Sys2Proof.Machine.execKeepaliveTimer port s
  | .linkRxTimeout port => Sys2Proof.Machine.execLinkRxTimeout port s
  | .trainingComplete port => Sys2Proof.Machine.execTrainingComplete port s
  | .trainingTimeout port => Sys2Proof.Machine.execTrainingTimeout port s
  | .codewordLock x => Sys2Proof.Machine.execCodewordLock x s
  | .alignTimeout port => Sys2Proof.Machine.execAlignTimeout port s
  | .codewordLockLoss port => Sys2Proof.Machine.execCodewordLockLoss port s
  | .fecUncorrectable port frames => Sys2Proof.Machine.execFecUncorrectable port frames s
  | .ethSend pk => Sys2Proof.Machine.execEthSend pk s
  | .ethRecv pk => Sys2Proof.Machine.execEthRecv pk s
  | .ethernetFrameReceive port frame fcs => Sys2Proof.Machine.execEthernetFrameReceive port frame fcs s
  | .msiWrite port data => Sys2Proof.Machine.execMsiWrite port data s
  | .msiWait pk => Sys2Proof.Machine.execMsiWait pk s
  | .endpointRequest port write addr len data => Sys2Proof.Machine.execEndpointRequest port write addr len data s
  | .loopTest pk => Sys2Proof.Machine.execLoopTest pk s
  | .loopTestComplete cell words errors => Sys2Proof.Machine.execLoopTestComplete cell words errors s
  | .manifestSend => Sys2Proof.Machine.execManifestSend s
  | .manifestReceive m bytes => Sys2Proof.Machine.execManifestReceive m bytes s
  | .tbMeasurement t1 t2 t3 t4 => Sys2Proof.Machine.execTbMeasurement t1 t2 t3 t4 s
  | .memberDeclaredFailed m => Sys2Proof.Machine.execMemberDeclaredFailed m s
  | .quorumLoss => Sys2Proof.Machine.execQuorumLoss s
  | .eventSend pk => Sys2Proof.Machine.execEventSend pk s
  | .unfence pk => Sys2Proof.Machine.execUnfence pk s
  | .manifestRead pk => Sys2Proof.Machine.execManifestRead pk s
  | .faultRecord r => Sys2Proof.Machine.execFaultRecord r s
  | .blockSnapshot b faults => Sys2Proof.Machine.execBlockSnapshot b faults s
  | .blockLinkLost b => Sys2Proof.Machine.execBlockLinkLost b s
  | .brokenPathClear r => Sys2Proof.Machine.execBrokenPathClear r s
  | .quietTimerExpiry r => Sys2Proof.Machine.execQuietTimerExpiry r s
  | .errPulseEnd => Sys2Proof.Machine.execErrPulseEnd s
  | .faultAck pk => Sys2Proof.Machine.execFaultAck pk s
  | .faultSet pk => Sys2Proof.Machine.execFaultSet pk s
  | .errClear pk => Sys2Proof.Machine.execErrClear pk s
  | .tansyStatusWrite v => Sys2Proof.Machine.execTansyStatusWrite v s
  | .faultInject pk => Sys2Proof.Machine.execFaultInject pk s
  | .faultRead pk => Sys2Proof.Machine.execFaultRead pk s
  | .mcPolicy pk => Sys2Proof.Machine.execMcPolicy pk s
  | .sensorSample source reading => Sys2Proof.Machine.execSensorSample source reading s
  | .persistentLogWrite => Sys2Proof.Machine.execPersistentLogWrite s
  | .mctpMessage kind body => Sys2Proof.Machine.execMctpMessage kind body s
  | .getMeasurements index => Sys2Proof.Machine.execGetMeasurements index s
  | .pldmUpdateComponent kind image => Sys2Proof.Machine.execPldmUpdateComponent kind image s
  | .updateActivate => Sys2Proof.Machine.execUpdateActivate s
  | .recoveryImage bytes => Sys2Proof.Machine.execRecoveryImage bytes s
  | .bootRomStart => Sys2Proof.Machine.execBootRomStart s
  | .powerUp step env => Sys2Proof.Machine.execPowerUp step env s
  | .powerUpTimeout => Sys2Proof.Machine.execPowerUpTimeout s
  | .pgIoRise => Sys2Proof.Machine.execPgIoRise s
  | .pgCmpRise => Sys2Proof.Machine.execPgCmpRise s
  | .powerGoodTimeout cmp => Sys2Proof.Machine.execPowerGoodTimeout cmp s
  | .powerGoodLoss cmp => Sys2Proof.Machine.execPowerGoodLoss cmp s
  | .pwrOkRise => Sys2Proof.Machine.execPwrOkRise s
  | .pwrOkFall => Sys2Proof.Machine.execPwrOkFall s
  | .sensorSet pk => Sys2Proof.Machine.execSensorSet pk s
  | .logRead pk => Sys2Proof.Machine.execLogRead pk s
  | .tbLoad pk => Sys2Proof.Machine.execTbLoad pk s
  | .hbclkSelect pk => Sys2Proof.Machine.execHbclkSelect pk s
  | .updateCommit pk => Sys2Proof.Machine.execUpdateCommit pk s
  | .updateCommitComplete => Sys2Proof.Machine.execUpdateCommitComplete s
  | .measureRead pk => Sys2Proof.Machine.execMeasureRead pk s
  | .samplePreload pinsIn => Sys2Proof.Machine.execSamplePreload pinsIn s
  | .idcode => Sys2Proof.Machine.execIdcode s
  | .bypass => Sys2Proof.Machine.execBypass s
  | .extest boundary => Sys2Proof.Machine.execExtest boundary s
  | .extestPulse boundary => Sys2Proof.Machine.execExtestPulse boundary s
  | .extestTrain boundary => Sys2Proof.Machine.execExtestTrain boundary s
  | .heartbeatTick => Sys2Proof.Machine.execHeartbeatTick s
  | .poolAddComplete job => Sys2Proof.Machine.execPoolAddComplete job s
  | .tierClearComplete job => Sys2Proof.Machine.execTierClearComplete job s
  | .ethSendComplete port => Sys2Proof.Machine.execEthSendComplete port s
  | .partnerWakeSignal port => Sys2Proof.Machine.execPartnerWakeSignal port s
  | .portLinkUp port width rate flit => Sys2Proof.Machine.execPortLinkUp port width rate flit s
  | .portLinkDown port => Sys2Proof.Machine.execPortLinkDown port s
  | .reporterGlitch r value => Sys2Proof.Machine.execReporterGlitch r value s
  | .reservedOpcode core p => Sys2Proof.Machine.execReservedOpcode core p s

end Sys2Proof.Machine
end

