-- ==== Sys2Proof/WellFormed.lean ====
section
/-! DEFINITION. The commands that the world outside the module can form: packets whose sizes the header can give
(R58), frames whose fields the line can carry (R542), cells that exist (R48). -/

namespace Sys2Proof

/-- A packet that a command slot can hold (R58). -/
def Pkt.wf (pk : Pkt) : Bool :=
  decide (pk.path.length ≤ 14) && decide (pk.params.length ≤ 4064) && decide (pk.params.length % 8 = 0)

/-- A frame that a link can carry (R542). -/
def Frame.wf (f : Frame) : Bool :=
  decide (f.destLen.toNat ≤ 8) && decide (f.dest.length = f.destLen.toNat) && decide (f.payload.length ≤ 4096)

/-- A cell number that names a cell of the module (R43, R48). -/
def cellExists (c : Nat) : Bool := Machine.cellOfPath (Machine.pathOf c) == some c

/-- A timeout of a unit that exists. -/
def TimerRef.wf : TimerRef → Bool
  | .idle c => cellExists c
  | .tail _ | .stale _ | .quiet _ | .rto _ | .keepalive _ | .linkRx _ | .training _ | .align _ | .errPulse
  | .cutoff _ | .lateLimit _ | .powerGood _ => true

/-- A command that can be sent. -/
def Instr.wf : Instr → Bool
  | .dmaCapSet pk | .identify pk | .query pk | .stop pk | .change pk | .start pk | .reset pk | .sleep pk
  | .wake pk | .forward pk | .sleepPolicy pk | .split pk | .join pk | .spare pk | .inject pk | .cleanRange pk
  | .flushRange pk | .invalRange pk | .lockWays pk | .unlockWays pk | .regionSet pk | .waysOff pk | .waysOn pk
  | .cacheDisable pk | .cacheEnable pk | .prefetchSet pk | .granuleKey pk | .keyRenew pk | .zeroRange pk
  | .tierSet pk | .tierClear pk | .poolAdd pk | .poolRemove pk | .tierThresh pk | .scrubSet pk | .startIo pk
  | .resume pk | .cancel pk | .stageSet pk | .moverSet pk | .move pk | .journalRead pk | .lateAck pk
  | .journalList pk | .journalMirror pk | .bind pk | .unbind pk | .routeSet pk | .queueTune pk | .timerSet pk
  | .sourceQuery pk | .assign pk | .revoke pk | .shareSet pk | .compress pk | .decompress pk | .cipher pk
  | .digest pk | .rsa pk | .ecdsaSign pk | .ecdsaVerify pk | .random pk | .keyLoad pk | .keyGen pk
  | .keyClear pk | .ethSend pk | .ethRecv pk | .msiWait pk | .loopTest pk | .eventSend pk | .unfence pk
  | .manifestRead pk | .faultAck pk | .faultSet pk | .errClear pk | .faultInject pk | .faultRead pk
  | .mcPolicy pk | .sensorSet pk | .logRead pk | .tbLoad pk | .hbclkSelect pk | .updateCommit pk
  | .measureRead pk => pk.wf
  | .op _ f | .data _ f | .end_ _ f | .ack _ f | .nak _ f | .resolve _ f | .resolved _ f | .sync _ f
  | .synced _ f | .abort _ f => f.wf
  | .powerUp step _ => decide (3 ≤ step ∧ step ≤ 8)
  | .timeoutExpiry t => t.wf
  | .fecUncorrectable _ fs => fs.all Frame.wf
  | .endpointRequest _ write _ len bs => if write then decide (bs.length = len) else bs.isEmpty
  | .ethernetFrameReceive _ frame _ => decide (frame.length ≤ 10236)
  | .idleDelayExpiry c | .cellWakeComplete c | .drainComplete c | .loopTestComplete c _ _ => cellExists c
  | .busErrorRetry _ _ _ times => decide (0 < times)
  | .mctpMessage _ body => decide (body.length ≤ 65536)
  | .sensorSample source _ => decide (0x940 ≤ source.val ∧ source.val ≤ 0x9B0)
  | .recoveryImage bytes => decide (4 ≤ bytes.length)
  | .manifestReceive _ bytes => decide (bytes.length = 80)
  | .tbSlew .. | .hbclkLoss | .packagePowerCheck .. | .dmaTokenRefill .. | .doorbell .. | .commandConsume
  | .replyWrite .. | .ringEnable .. | .ringHaltClear .. | .replyConsWrite .. | .registerWrite .. | .queuePop ..
  | .queuePeek .. | .add .. | .sub .. | .and .. | .or .. | .xor .. | .andn .. | .addc .. | .subb .. | .sll ..
  | .srl .. | .sra .. | .ror .. | .slt .. | .sltu .. | .cmp .. | .tst .. | .shi .. | .addi8 .. | .cmpi8 ..
  | .mul .. | .mulu .. | .div .. | .divu .. | .divideComplete .. | .mfph .. | .mfpl .. | .mtph .. | .mtpl ..
  | .clz .. | .ctz .. | .popc .. | .bswap .. | .sextb .. | .sexth .. | .sextw .. | .zextw .. | .ldb ..
  | .ldh .. | .ldw .. | .ldd .. | .ldbs .. | .ldhs .. | .ldws .. | .stb .. | .sth .. | .stw .. | .std ..
  | .ldd8 .. | .std8 .. | .swap .. | .cas .. | .faddAtomic .. | .fand .. | .for_ .. | .fxor .. | .setcc ..
  | .jmpr .. | .callr .. | .ret .. | .sevt .. | .waitc .. | .waitcTimeReached .. | .eret .. | .wfe .. | .sev ..
  | .syscall .. | .hostcall .. | .break_ .. | .rdtb .. | .mfps .. | .mtps .. | .fence .. | .fenceI .. | .mfk ..
  | .mtk .. | .fadd .. | .fsub .. | .fmul .. | .fdiv .. | .fsqrt .. | .fmin .. | .fmax .. | .fcmp .. | .fcvt ..
  | .fmov .. | .fneg .. | .fabs .. | .fclass .. | .frint .. | .frintx .. | .fmvgf .. | .fmvgfh .. | .fmvfg ..
  | .fmvfgh .. | .mffs .. | .mtfs .. | .flds .. | .fldd .. | .fldq .. | .fsts .. | .fstd .. | .fstq ..
  | .br8 .. | .brz .. | .tlbi .. | .tlbiasid .. | .tlbiall .. | .htlbi .. | .htlbip .. | .fma .. | .addi ..
  | .andi .. | .ori .. | .xori .. | .cmpi .. | .ld .. | .st .. | .fld .. | .fst .. | .br .. | .call ..
  | .insh .. | .addpc .. | .movi .. | .addi48 .. | .ldl .. | .stl .. | .brl .. | .calll .. | .interruptEntry ..
  | .clockStopIdle .. | .waitcScheduledWake .. | .windowCycleLimit .. | .windowCompare ..
  | .pairRestartComplete .. | .gatedStoreRelease .. | .busCompareDifference .. | .buscmpSelfTest ..
  | .delayRegisterError .. | .checkpointArrayError .. | .splitComplete .. | .joinComplete ..
  | .spareHandover .. | .rangeOpComplete .. | .lockWaysComplete .. | .regionSetComplete ..
  | .waysOffComplete .. | .waysOnComplete .. | .cacheDisableComplete .. | .stridePrefetch ..
  | .dmaStreamPrefetch .. | .sliceDrainComplete .. | .channelLinkRetry .. | .patrolScrub .. | .channelFault ..
  | .channelRebuildComplete .. | .granuleKeyComplete .. | .zeroRangeComplete .. | .tierSetComplete ..
  | .tierWriteBack .. | .pinnedLineRetry .. | .transferEntry .. | .ioCompletion .. | .cpTakeover ..
  | .moverGrant .. | .inboundDrainEnd .. | .tailTimerExpiry .. | .outboundFill .. | .moveComplete ..
  | .moverFault .. | .deadlineCutoff .. | .lateLimitExpiry .. | .pathFailure .. | .redriveSend ..
  | .pathReturn .. | .journalEntryUe .. | .journalRebuildComplete .. | .journalMirrorComplete
  | .journalTakeover .. | .eventPush .. | .queueReset .. | .queuePointerFault .. | .staleTimerExpiry ..
  | .timerExpiry .. | .assignRevokeComplete .. | .shareSetComplete .. | .mboxBellTEvent .. | .mboxBellTSev ..
  | .mboxBellMEvent .. | .mboxBellMSev .. | .engineCompletion .. | .entropyTestFail .. | .hello ..
  | .keepalive .. | .quietReq .. | .quietAck .. | .loopReq .. | .loopAck .. | .loopEnd .. | .rtoExpiry ..
  | .keepaliveTimer .. | .linkRxTimeout .. | .trainingComplete .. | .trainingTimeout .. | .codewordLock ..
  | .alignTimeout .. | .codewordLockLoss .. | .msiWrite .. | .manifestSend | .tbMeasurement ..
  | .memberDeclaredFailed .. | .quorumLoss | .faultRecord .. | .blockSnapshot .. | .blockLinkLost ..
  | .brokenPathClear .. | .quietTimerExpiry .. | .errPulseEnd | .tansyStatusWrite .. | .persistentLogWrite
  | .getMeasurements .. | .pldmUpdateComponent .. | .updateActivate | .bootRomStart | .powerUpTimeout
  | .pgIoRise | .pgCmpRise | .powerGoodTimeout .. | .powerGoodLoss .. | .pwrOkRise | .pwrOkFall
  | .updateCommitComplete | .samplePreload .. | .idcode | .bypass | .extest .. | .extestPulse ..
  | .extestTrain .. | .heartbeatTick | .poolAddComplete .. | .tierClearComplete .. | .ethSendComplete ..
  | .partnerWakeSignal .. | .portLinkUp .. | .portLinkDown .. | .reporterGlitch .. | .reservedOpcode .. => true

end Sys2Proof
end

