-- ==== Sys2Proof/Safety.lean ====
section
/-! DEFINITION. The terms in which statements about the module are made: invariants of its state, what it means that a
processor has its turn or that a packet is admitted, and what each family of commands does, said from the rules of the
spec. -/

namespace Sys2Proof.Machine

/-! ### A processor's turn -/

/-- The core is at an instruction boundary and has its next instruction of `len` parcels in hand: it executes,
waits for nothing, has no interrupt to take, and the fetch at PC succeeds and leaves `f`, with no pin beyond those a slice may
hold (R326). A checked pair has room for one more instruction in its windows (R189, R190). -/
structure Turn (s : State) (core len : Nat) (f : State) : Prop where
  ready   : s.ready core = true
  fetched : s.fetched core len = (none, false, f)
  pins    : s.overPins f = false
  room    : s.isSplit (pairOfCore core) = true ∨ (s.pair (pairOfCore core)).closed.length < 2 ∨
              (s.pair (pairOfCore core)).opened.count < 127

/-- A window of the core's pair may close (R190): it is split, or fewer than two windows wait. -/
def MayClose (s : State) (core : Nat) : Prop :=
  s.isSplit (pairOfCore core) = true ∨ (s.pair (pairOfCore core)).closed.length < 2

/-- Nothing but the core, its registers and its pair's windows differs between `f` and `t`. -/
structure OnlyCore (f t : State) (core : Nat) : Prop where
  rest  : { t with cores := f.cores, pairs := f.pairs } = f
  cores : ∀ c, c ≠ core → t.core c = f.core c
  pairs : ∀ p, p ≠ pairOfCore core → t.pair p = f.pair p
  itself : { t.core core with arch := (f.core core).arch, divUnit := (f.core core).divUnit } = f.core core
  split : f.isSplit (pairOfCore core) = true → t.pair (pairOfCore core) = f.pair (pairOfCore core)
  pair  : { t.pair (pairOfCore core) with opened := (f.pair (pairOfCore core)).opened
                                          closed := (f.pair (pairOfCore core)).closed
                                          ccLeft := (f.pair (pairOfCore core)).ccLeft } = f.pair (pairOfCore core)

/-- PH, PL and the products in flight, after one instruction that writes none of them (R127). -/
structure Landed (a b : Arch) : Prop where
  soon : b.products = (a.products.filter fun p => 1 < p.left).map fun p => { p with left := p.left - 1 }
  none : (∀ p ∈ a.products, 1 < p.left) → b.ph = a.ph ∧ b.pl = a.pl
  now  : ∀ q hi lo, a.products = q ++ [⟨1, some hi, some lo⟩] → b.ph = hi ∧ b.pl = lo

/-- Every register that an integer instruction does not name stands: floating registers, FS, control registers, and
the stack pointers of the other levels. -/
structure Stands (a b : Arch) : Prop where
  f  : b.f = a.f
  fs : b.fs = a.fs
  k  : b.k = a.k
  sp : ∀ l, l ≤ 2 → l ≠ min a.level 2 → b.sp l = a.sp l

/-- The general registers after a write of `v` to Gd: G0 discards it (R82), and G31 is the stack pointer of the
current level (R83). -/
def Wrote (a b : Arch) (d : Reg) (v : Word) : Prop :=
  ∀ r, b.gr r = if r = d ∧ d ≠ 0 then v else a.gr r

/-- An integer instruction of `len` parcels has written `v` to Gd and nothing else. -/
structure WroteG (a b : Arch) (d : Reg) (v : Word) (len : Nat) : Prop where
  g      : Wrote a b d v
  pc     : b.pc = a.pc + BitVec.ofNat 64 (3 * len)
  ps     : b.ps = a.ps
  stands : Stands a b
  landed : Landed a b

/-- What an integer instruction writes to Gd (R110): its core, its parcels, d, and the value that the registers
give, with the module's state for RDTB. -/
def intResult : Instr → Option (CoreId × Nat × Reg × (State → Arch → Word → Prop))
  | .add c d a b => some (c, 1, d, fun _ x v => v = x.gr a + x.gr b)
  | .sub c d a b => some (c, 1, d, fun _ x v => v = x.gr a - x.gr b)
  | .and c d a b => some (c, 1, d, fun _ x v => v = x.gr a &&& x.gr b)
  | .or c d a b => some (c, 1, d, fun _ x v => v = x.gr a ||| x.gr b)
  | .xor c d a b => some (c, 1, d, fun _ x v => v = x.gr a ^^^ x.gr b)
  | .andn c d a b => some (c, 1, d, fun _ x v => v = x.gr a &&& ~~~(x.gr b))
  | .sll c d a b => some (c, 1, d, fun _ x v => v = x.gr a <<< ((x.gr b).toNat % 64))
  | .srl c d a b => some (c, 1, d, fun _ x v => v = x.gr a >>> ((x.gr b).toNat % 64))
  | .sra c d a b => some (c, 1, d, fun _ x v => v = (x.gr a).sshiftRight ((x.gr b).toNat % 64))
  | .ror c d a b => some (c, 1, d, fun _ x v => v = (x.gr a).rotateRight ((x.gr b).toNat % 64))
  | .slt c d a b => some (c, 1, d, fun _ x v => v = if (x.gr a).toInt < (x.gr b).toInt then 1 else 0)
  | .sltu c d a b => some (c, 1, d, fun _ x v => v = if (x.gr a).toNat < (x.gr b).toNat then 1 else 0)
  | .shi c d a fn n => some (c, 1, d, fun _ x v => v =
      if fn = 0 then x.gr a <<< n.toNat else if fn = 1 then x.gr a >>> n.toNat
      else if fn = 2 then (x.gr a).sshiftRight n.toNat else (x.gr a).rotateRight n.toNat)
  | .addi8 c d a i => some (c, 1, d, fun _ x v => v = x.gr a + i.signExtend 64)
  | .addi c d a i => some (c, 2, d, fun _ x v => v = x.gr a + i.signExtend 64)
  | .addi48 c d a i => some (c, 3, d, fun _ x v => v = x.gr a + i.signExtend 64)
  | .movi c d i => some (c, 3, d, fun _ _ v => v = i.signExtend 64)
  | .andi c d a i => some (c, 2, d, fun _ x v => v = x.gr a &&& i.setWidth 64)
  | .ori c d a i => some (c, 2, d, fun _ x v => v = x.gr a ||| i.setWidth 64)
  | .xori c d a i => some (c, 2, d, fun _ x v => v = x.gr a ^^^ i.setWidth 64)
  | .insh c d a i => some (c, 2, d, fun _ x v => v = (x.gr a &&& 0x0000FFFFFFFFFFFF#64) ||| (i.setWidth 64 <<< 48))
  | .addpc c d i => some (c, 2, d, fun _ x v => v = x.pc + 3#64 * i.signExtend 64)
  | .clz c d a => some (c, 1, d, fun _ x v => v.toNat ≤ 64 ∧
      (∀ i, 64 - v.toNat ≤ i → i < 64 → (x.gr a).getLsbD i = false) ∧
      (v.toNat < 64 → (x.gr a).getLsbD (63 - v.toNat) = true))
  | .ctz c d a => some (c, 1, d, fun _ x v => v.toNat ≤ 64 ∧
      (∀ i, i < v.toNat → (x.gr a).getLsbD i = false) ∧ (v.toNat < 64 → (x.gr a).getLsbD v.toNat = true))
  | .popc c d a => some (c, 1, d, fun _ x v => v.toNat = (List.range 64).countP fun i => (x.gr a).getLsbD i)
  | .bswap c d a => some (c, 1, d, fun _ x v => ∀ i, i < 8 →
      v.extractLsb' (8 * i) 8 = (x.gr a).extractLsb' (8 * (7 - i)) 8)
  | .sextb c d a => some (c, 1, d, fun _ x v => v = ((x.gr a).setWidth 8).signExtend 64)
  | .sexth c d a => some (c, 1, d, fun _ x v => v = ((x.gr a).setWidth 16).signExtend 64)
  | .sextw c d a => some (c, 1, d, fun _ x v => v = ((x.gr a).setWidth 32).signExtend 64)
  | .zextw c d a => some (c, 1, d, fun _ x v => v = ((x.gr a).setWidth 32).setWidth 64)
  | .mfps c d => some (c, 1, d, fun _ x v => v = x.ps ||| BitVec.ofNat 64 (min 3 x.msh * 4096))
  | .rdtb c d => some (c, 1, d, fun f _ v => v = f.clock.tb)
  | _ => none

/-- What a comparison compares (R112): its core, its parcels, and the two values. -/
def compared : Instr → Option (CoreId × Nat × (Arch → Word × Word))
  | .cmp c a b => some (c, 1, fun x => (x.gr a, x.gr b))
  | .cmpi8 c a i => some (c, 1, fun x => (x.gr a, i.signExtend 64))
  | .cmpi c a i => some (c, 2, fun x => (x.gr a, i.signExtend 64))
  | _ => none

/-- The flags of `b`, and every other bit of PS as in `a`; MSH is not stored. -/
structure FlagsAre (a b : Arch) (n z c v : Bool) : Prop where
  n : b.ps.getLsbD 7 = n
  z : b.ps.getLsbD 6 = z
  c : b.ps.getLsbD 5 = c
  v : b.ps.getLsbD 4 = v
  rest : ∀ i, i ≠ 7 → i ≠ 6 → i ≠ 5 → i ≠ 4 → i ≠ 12 → i ≠ 13 → b.ps.getLsbD i = a.ps.getLsbD i

/-- An instruction of `len` parcels that has changed neither general registers nor those of `Stands`. -/
structure Kept (a b : Arch) (len : Nat) : Prop where
  g      : ∀ r, b.gr r = a.gr r
  pc     : b.pc = a.pc + BitVec.ofNat 64 (3 * len)
  stands : Stands a b
  landed : Landed a b

/-- Ordinary memory answers an access: it is translated into `ps` and leaves `u`, nothing makes it wait, and every piece lies
below the PCI Express windows in lines that are not poisoned. -/
structure Reads (f : State) (core : Nat) (va : Word) (size : Nat) (ps : List (Nat × Nat × Nat × Nat)) (u : State) :
    Prop where
  access : f.access (f.viewer core (f.core core).arch.level) va size .read = (.ok ps, u)
  memory : ∀ p ∈ ps, p.1 < pcieBase
  sound  : u.badPieces ps = false

/-- The bytes of the pieces of an access as the core's processor sees them (R196), the lowest address first. -/
def seen (u : State) (core : Nat) (ps : List (Nat × Nat × Nat × Nat)) : Bytes :=
  ps.flatMap fun p => (List.range p.2.1).map fun i => u.loadByte core (p.1 + i)

/-- What a load reads (R110): its core, parcels, d, address, size, and whether it is sign-extended. -/
def loaded : Instr → Option (CoreId × Nat × Reg × (Arch → Word) × Nat × Bool)
  | .ldb c d a b => some (c, 1, d, fun x => x.gr a + x.gr b, 1, false)
  | .ldh c d a b => some (c, 1, d, fun x => x.gr a + x.gr b, 2, false)
  | .ldw c d a b => some (c, 1, d, fun x => x.gr a + x.gr b, 4, false)
  | .ldd c d a b => some (c, 1, d, fun x => x.gr a + x.gr b, 8, false)
  | .ldbs c d a b => some (c, 1, d, fun x => x.gr a + x.gr b, 1, true)
  | .ldhs c d a b => some (c, 1, d, fun x => x.gr a + x.gr b, 2, true)
  | .ldws c d a b => some (c, 1, d, fun x => x.gr a + x.gr b, 4, true)
  | .ldd8 c d a i => some (c, 1, d, fun x => x.gr a + 8#64 * i.signExtend 64, 8, false)
  | .ld c d a m i => (loadForm m.toNat).map fun n => (c, 2, d, fun x => x.gr a + i.signExtend 64, n.1, n.2)
  | .ldl c d a m i => (loadForm m.toNat).map fun n => (c, 3, d, fun x => x.gr a + i.signExtend 64, n.1, n.2)
  | _ => none

/-- What a floating load reads (R84, R110). -/
def loadedF : Instr → Option (CoreId × Nat × Reg × (Arch → Word) × Nat)
  | .flds c d a b => some (c, 1, d, fun x => x.gr a + x.gr b, 4)
  | .fldd c d a b => some (c, 1, d, fun x => x.gr a + x.gr b, 8)
  | .fldq c d a b => some (c, 1, d, fun x => x.gr a + x.gr b, 16)
  | .fld c d a m i => (floatSize m.toNat).map fun n => (c, 2, d, fun x => x.gr a + i.signExtend 64, n)
  | _ => none

/-- What a store writes (R110): its core, parcels, address, size and value. -/
def stored : Instr → Option (CoreId × Nat × (Arch → Word) × Nat × (Arch → Quad))
  | .stb c d a b => some (c, 1, fun x => x.gr a + x.gr b, 1, fun x => (x.gr d).setWidth 128)
  | .sth c d a b => some (c, 1, fun x => x.gr a + x.gr b, 2, fun x => (x.gr d).setWidth 128)
  | .stw c d a b => some (c, 1, fun x => x.gr a + x.gr b, 4, fun x => (x.gr d).setWidth 128)
  | .std c d a b => some (c, 1, fun x => x.gr a + x.gr b, 8, fun x => (x.gr d).setWidth 128)
  | .std8 c d a i => some (c, 1, fun x => x.gr a + 8#64 * i.signExtend 64, 8, fun x => (x.gr d).setWidth 128)
  | .st c d a m i => some (c, 2, fun x => x.gr a + i.signExtend 64, 2 ^ m.toNat, fun x => (x.gr d).setWidth 128)
  | .stl c d a m i => some (c, 3, fun x => x.gr a + i.signExtend 64, 2 ^ m.toNat, fun x => (x.gr d).setWidth 128)
  | .fsts c d a b => some (c, 1, fun x => x.gr a + x.gr b, 4, fun x => x.fr d)
  | .fstd c d a b => some (c, 1, fun x => x.gr a + x.gr b, 8, fun x => x.fr d)
  | .fstq c d a b => some (c, 1, fun x => x.gr a + x.gr b, 16, fun x => x.fr d)
  | .fst c d a m i => (floatSize m.toNat).map fun n => (c, 2, fun x => x.gr a + i.signExtend 64, n, fun x => x.fr d)
  | _ => none

/-- A store of the floating registers. -/
def isFloatStore : Instr → Bool
  | .fsts .. => true
  | .fstd .. => true
  | .fstq .. => true
  | .fst .. => true
  | _ => false

/-- The byte that stores put at a physical address, the latest one's. -/
def newest (gs : List GStore) (pa : Nat) : Option Byte := gs.reverse.findSome? fun g => g.byteAt pa

/-- An instruction with the stores `gs` has retired: from `m`, what its accesses left, to `r` nothing but the core, its
pair's windows and L1D changes. A split pair's stores are performed at once; a checked pair holds them, so that memory
stands and its processor alone sees the new bytes (R196, R238). -/
structure StoresDone (m r t : State) (core : Nat) (gs : List GStore) : Prop where
  rest    : { r with cores := m.cores, pairs := m.pairs, caches := { r.caches with l1d := m.caches.l1d } } = m
  cores   : ∀ c, c ≠ core → r.core c = m.core c
  pairs   : ∀ p, p ≠ pairOfCore core → r.pair p = m.pair p
  split   : m.isSplit (pairOfCore core) = true → t = gs.foldl (fun t g => t.performStore core g) r
  checked : m.isSplit (pairOfCore core) = false →
              t = r ∧ (t.pair (pairOfCore core)).gated = (m.pair (pairOfCore core)).gated ++ gs ∧
              ∀ pa, t.loadByte core pa = (newest gs pa).getD (m.loadByte core pa)

/-- The gated-store buffer has room (R194). -/
def StoreRoom (s : State) (core n : Nat) : Prop :=
  s.isSplit (pairOfCore core) = true ∨ (s.pair (pairOfCore core)).gated.length + n ≤ gatedMax (pairOfCore core)

/-- No slice needs a pin beyond those it may hold (R326): neither what the accesses of an instruction at `s` left, the state
`m`, nor what a split pair makes of it as it performs the stores `gs` at once, whatever the core's own registers. -/
def PinRoom (s m : State) (core : Nat) (gs : List GStore) : Prop :=
  (m.isSplit (pairOfCore core) = false → s.overPins m = false) ∧
  (m.isSplit (pairOfCore core) = true →
    ∀ r : State, { r with cores := m.cores } = m → s.overPins (gs.foldl (fun t g => t.performStore core g) r) = false)

/-- What an atomic does (R105, R110): its core, d, address, and the value that the old one becomes. -/
def atomicOf : Instr → Option (CoreId × Reg × (Arch → Word) × (Arch → Word → Option Word))
  | .swap c d a b => some (c, d, fun x => x.gr a, fun x _ => some (x.gr b))
  | .cas c d a b => some (c, d, fun x => x.gr a, fun x old => if old = x.gr d then some (x.gr b) else none)
  | .faddAtomic c d a b => some (c, d, fun x => x.gr a, fun x old => some (old + x.gr b))
  | .fand c d a b => some (c, d, fun x => x.gr a, fun x old => some (old &&& x.gr b))
  | .for_ c d a b => some (c, d, fun x => x.gr a, fun x old => some (old ||| x.gr b))
  | .fxor c d a b => some (c, d, fun x => x.gr a, fun x old => some (old ^^^ x.gr b))
  | _ => none

/-- Whether a condition holds of the flags (R111). -/
def condition (ps : Word) (code : Nat) : Bool :=
  let n := ps.getLsbD 7
  let z := ps.getLsbD 6
  let c := ps.getLsbD 5
  let v := ps.getLsbD 4
  if code = 0 then true
  else if code = 1 then z
  else if code = 2 then !z
  else if code = 3 then n != v
  else if code = 4 then n == v
  else if code = 5 then z || (n != v)
  else if code = 6 then !z && (n == v)
  else if code = 7 then !c
  else if code = 8 then c
  else if code = 9 then !c || z
  else if code = 10 then c && !z
  else if code = 11 then n
  else if code = 12 then !n
  else if code = 13 then v
  else !v

/-- The branches (R110, R111, R115): core, parcels, whether the branch is taken, and its target. -/
def branched : Instr → Option (CoreId × Nat × (Arch → Bool) × (Arch → Word))
  | .br8 c k o => if k.toNat < 15 then some (c, 1, fun x => condition x.ps k.toNat, fun x => x.pc + 3#64 * o.signExtend 64) else none
  | .br c k o => if k.toNat < 15 then some (c, 2, fun x => condition x.ps k.toNat, fun x => x.pc + 3#64 * o.signExtend 64) else none
  | .brl c k o => if k.toNat < 15 then some (c, 3, fun x => condition x.ps k.toNat, fun x => x.pc + 3#64 * o.signExtend 64) else none
  | .brz c k a o =>
    if k.toNat < 4 then
      some (c, 1, fun x => if k = 0 then decide (x.gr a = 0) else if k = 1 then decide (x.gr a ≠ 0)
        else if k = 2 then decide ((x.gr a).toInt < 0) else decide (0 ≤ (x.gr a).toInt),
        fun x => x.pc + 3#64 * o.signExtend 64)
    else none
  | .jmpr c a => some (c, 1, fun _ => true, fun x => x.gr a)
  | _ => none

/-- The calls (R115): core, parcels and target. -/
def called : Instr → Option (CoreId × Nat × (Arch → Word))
  | .callr c a => some (c, 1, fun x => x.gr a)
  | .call c o => some (c, 2, fun x => x.pc + 3#64 * o.signExtend 64)
  | .calll c o => some (c, 3, fun x => x.pc + 3#64 * o.signExtend 64)
  | _ => none

/-- The words of a frame at two translated places: the saved PS below the saved PC (R135). -/
def frameStores (u : State) (core T : Nat) (p0 p1 : List (Nat × Nat × Nat × Nat)) (ps pc : Word) : List GStore :=
  [gstore (u.viewer core T) false p0 (wordBytes ps), gstore (u.viewer core T) false p1 (wordBytes pc)]

/-- The frame of an entry to level `T` can be pushed (R117, R135): from `f` its two words are translated into `p0` and
`p1`, which leaves `u`. -/
structure Pushes (f : State) (core T : Nat) (a : Arch) (p0 p1 : List (Nat × Nat × Nat × Nat)) (u : State) : Prop where
  limit : (a.kr (if T = 2 then 10 else 9)).toNat ≤ (a.sp T - 16#64).toNat
  top   : (a.sp T - 16#64).toNat + 16 ≤ 2 ^ 64 ∨ a.kr (if T = 2 then 10 else 9) = 0
  low   : ∃ u0, f.access (f.viewer core T) (a.sp T - 16#64) 8 .write = (.ok p0, u0) ∧
            u0.access (f.viewer core T) (a.sp T - 16#64 + 8#64) 8 .write = (.ok p1, u)

/-- The registers `b` after exception entry from `a` (R135, R136): `a` is what the exception finds, its PC the address
that is saved. -/
structure Entered (a b : Arch) (T vector : Nat) (faddr : Word) (cause : Nat) : Prop where
  pc     : (a.kr (if T = 2 then 6 else 2)).toNat % 3 = 0 →
             (a.kr (if T = 2 then 6 else 2)).toNat + 48 * vector < 2 ^ 64 →
             b.pc = a.kr (if T = 2 then 6 else 2) + BitVec.ofNat 64 (48 * vector)
  level  : b.level = T
  masked : b.ps.getLsbD 8 = true
  ps     : ∀ i, i ≠ 0 → i ≠ 1 → i ≠ 8 → i ≠ 12 → i ≠ 13 → b.ps.getLsbD i = a.ps.getLsbD i
  cause  : b.kr (if T = 2 then 4 else 0) = BitVec.ofNat 64 (vector + 256 * a.level + cause)
  faddr  : b.kr (if T = 2 then 5 else 1) = faddr
  sp     : b.sp T = a.sp T - 16#64
  others : ∀ l, l ≤ 2 → l ≠ T → b.sp l = a.sp l
  g      : b.g = a.g
  f      : b.f = a.f
  fs     : b.fs = a.fs
  ph     : b.ph = a.ph
  pl     : b.pl = a.pl
  shadow : b.products = []
  k      : ∀ n, n ≠ 12 → n ≠ 13 → (if T = 2 then n ∉ [4, 5, 26, 27] else n ∉ [0, 1, 24, 25]) → b.kr n = a.kr n
  bank   : ∀ q hi lo n, a.products = q ++ [⟨n, some hi, some lo⟩] →
             b.kr (if T = 2 then 26 else 24) = hi ∧ b.kr (if T = 2 then 27 else 25) = lo

/-- The registers that a trap of `len` parcels finds: the next instruction's PC, the division finished, the products one
instruction nearer (R129). -/
def afterTrap (c : Core) (len : Nat) : Arch :=
  let x : Core := { c with arch := { c.arch with pc := c.arch.pc + BitVec.ofNat 64 (3 * len) }.advance }
  x.finish.arch

/-- The instructions that trap (R131): core, the level it goes to from level `l`, and the vector. -/
def trapped : Instr → Option (CoreId × (Nat → Option Nat) × Nat)
  | .syscall c => some (c, fun l => if l < 2 then some 1 else none, 0x07)
  | .hostcall c => some (c, fun _ => some 2, 0x08)
  | .break_ c => some (c, fun l => if l < 2 then some 1 else some 2, 0x09)
  | _ => none

/-- Floating arithmetic (R153 to R176): core, parcels, d, and the result with its flags. -/
def floatResult : Instr → Option (CoreId × Nat × Reg × (Arch → FRes))
  | .fadd c m d a b => some (c, 1, d, fun x => addV (fmtOf m) x.rm x.fz (x.fv m a) (x.fv m b))
  | .fsub c m d a b => some (c, 1, d, fun x => subV (fmtOf m) x.rm x.fz (x.fv m a) (x.fv m b))
  | .fmul c m d a b => some (c, 1, d, fun x => mulV (fmtOf m) x.rm x.fz (x.fv m a) (x.fv m b))
  | .fmin c m d a b => some (c, 1, d, fun x => minV (fmtOf m) false (x.fbits m a) (x.fbits m b))
  | .fmax c m d a b => some (c, 1, d, fun x => minV (fmtOf m) true (x.fbits m a) (x.fbits m b))
  | .frint c m d a => some (c, 1, d, fun x => rintV (fmtOf m) x.rm false (x.fbits m a))
  | .frintx c m d a => some (c, 1, d, fun x => rintV (fmtOf m) x.rm true (x.fbits m a))
  | .fma c m d a b e n => some (c, 2, d, fun x =>
      fmaV (fmtOf m) x.rm x.fz (decide (n = 2 ∨ n = 3)) (x.fv m a) (x.fv m b)
        (if n = 1 ∨ n = 3 then (x.fv m e).flip else x.fv m e))
  | .fdiv c m d a b => some (c, 1, d, fun x => divV (fmtOf m) x.rm x.fz (x.fv m a) (x.fv m b))
  | .fsqrt c m d a => some (c, 1, d, fun x => sqrtV (fmtOf m) x.rm x.fz (x.fv m a))
  | .fcvt c d a s t =>
    match kindFmt s.toNat, kindFmt t.toNat with
    | some f, some g => if f = g then none else some (c, 1, d, fun x => convV (fmtOf f) (fmtOf g) x.rm x.fz (x.fbits f a))
    | none, some g =>
      if s = 0 then some (c, 1, d, fun x => fromInt (fmtOf g) x.rm (x.gr a).toInt)
      else if s = 1 then some (c, 1, d, fun x => fromInt (fmtOf g) x.rm (x.gr a).toNat) else none
    | _, none => none
  | _ => none

/-- FDIV and FSQRT occupy the divide unit (R147, R173). -/
def usesDivide : Instr → Bool
  | .fdiv .. => true
  | .fsqrt .. => true
  | _ => false

/-- The flags that a result raises: a tiny result under a trap enable for underflow raises UF (R157). -/
def raised (x : Arch) (fl : FFlags) : Nat := (if fl.tiny && x.ps.getLsbD 19 then { fl with uf := true } else fl).bits

/-- No flag raised has its trap enabled (R132). -/
def noTrap (x : Arch) (fl : FFlags) : Prop := raised x fl &&& x.enables = 0

/-- Moves of floating bits (R84, R110, R167): core, d, and the new register as a number, in terms of its bits. -/
def floatMoved : Instr → Option (CoreId × Reg × (Arch → Nat))
  | .fmov c m d a => some (c, d, fun x => (x.fr a).toNat % 2 ^ (fmtOf m).width)
  | .fneg c m d a => some (c, d, fun x =>
      ((x.fr a).toNat + 2 ^ ((fmtOf m).width - 1)) % 2 ^ (fmtOf m).width)
  | .fabs c m d a => some (c, d, fun x => (x.fr a).toNat % 2 ^ ((fmtOf m).width - 1))
  | .fmvfg c d a => some (c, d, fun x => (x.gr a).toNat)
  | .fmvfgh c d a => some (c, d, fun x => (x.fr d).toNat % 2 ^ 64 + (x.gr a).toNat * 2 ^ 64)
  | _ => none

/-- Moves from the floating side to a general register (R110, R113): core, d and the value. -/
def toGeneral : Instr → Option (CoreId × Reg × (Arch → Nat))
  | .fmvgf c d a => some (c, d, fun x => (x.fr a).toNat % 2 ^ 64)
  | .fmvgfh c d a => some (c, d, fun x => (x.fr a).toNat / 2 ^ 64)
  | .mffs c d => some (c, d, fun x => x.fs.toNat)
  | .fclass c m d a => some (c, d, fun x => 2 ^ classV (fmtOf m) (x.fbits m a))
  | _ => none

/-- Instructions that fault whatever the registers hold, at a level: core, parcels and vector (R92, R108, R131). -/
def faulted (i : Instr) (level : Nat) : Option (CoreId × Nat × Nat) :=
  match i with
  | .reservedOpcode c ⟨p0, p1, p2⟩ =>
    let m := p0.toNat / 2 ^ 18
    if m ∈ [0x00, 0x1D, 0x1E, 0x1F] then some (c, 1, 5)
    else if m ∈ [0x2E, 0x2F] then some (c, 2, 5)
    else if 0x36 ≤ m then some (c, 3, 5)
    else if spelled c p0 p1 p2 = none then some (c, parcels m, 5) else none
  | .mtk c _ k => if level = 0 ∧ (kLevel k.toNat).isSome ∧ k.toNat ∉ [2, 6] then some (c, 1, 6) else none
  | .syscall c => if level = 2 then some (c, 1, 5) else none
  | .eret c => if level = 0 then some (c, 1, 6) else none
  | .tlbi c _ => if level = 0 then some (c, 1, 6) else none
  | .tlbiasid c _ => if level = 0 then some (c, 1, 6) else none
  | .tlbiall c => if level = 0 then some (c, 1, 6) else none
  | .htlbi c _ _ => if level < 2 then some (c, 1, 6) else none
  | .htlbip c _ => if level < 2 then some (c, 1, 6) else none
  | _ => none

/-- Instructions that only advance PC (R102, R103). -/
def advances : Instr → Option CoreId
  | .fence c => some c
  | .fenceI c => some c
  | _ => none

/-- What a TLB instruction drops of the translations that the processors keep (R101, R110): its core, the lowest level
that may execute it, and which entries, from the registers `x`. TLBI, TLBIASID and TLBIALL drop stage-1 entries of the
issuing partition, HTLBI and HTLBIP host-stage entries of the partition in Gb[5:0]. -/
def tlbDrops (f : State) (x : Arch) : Instr → Option (CoreId × Nat × (TlbEntry → Bool))
  | .tlbi c a => some (c, 1, fun e => !e.host && e.part == f.partOfCore c &&
      (x.gr a).toNat / 2 ^ e.shift * 2 ^ e.shift == e.page)
  | .tlbiasid c a => some (c, 1, fun e => !e.host && e.part == f.partOfCore c &&
      e.asid == ((x.gr a).extractLsb' 0 16).toNat && !e.entry.testBit 6)
  | .tlbiall c => some (c, 1, fun e => !e.host && e.part == f.partOfCore c)
  | .htlbi c a b => some (c, 2, fun e => e.host && e.part == ((x.gr b).extractLsb' 0 6).toNat &&
      (x.gr a).toNat / 2 ^ e.shift * 2 ^ e.shift == e.page)
  | .htlbip c b => some (c, 2, fun e => e.host && e.part == ((x.gr b).extractLsb' 0 6).toNat)
  | _ => none

/-- The event that SEV or SEVT sends (R120, R121). -/
def sentEvent (f : State) : Instr → Option (CoreId × HeldEvent)
  | .sev c => some (c, .sev (f.partOfCore c) c)
  | .sevt c a b => some (c, .sevt (f.partOfCore c) ((f.core c).arch.gr a) ((f.core c).arch.gr b))
  | _ => none


/-! ### Commands -/

/-- A packet passes every check that is common to all opcodes (R58 to R64): `c` is the cell that it addresses. -/
structure Admitted (o : Op) (pk : Pkt) (c : Nat) (s : State) : Prop where
  path   : pk.path.length ≤ 14
  params : pk.params.length / 8 ≤ 508 ∧ pk.params.length % 8 = 0
  len    : o.len (some c) pk = true
  auth   : pk.auth.toNat < 4 ∧ pk.auth.toNat ≤ s.authMax pk.ring ∧ (pk.auth.toNat = 2 → pk.ring.val = 1024)
  part   : pk.auth.toNat = 0 → pk.partition.toNat = pk.ring.val / 16
  cell   : s.findCell pk.path = some c
  seen   : pk.auth.toNat = 0 → s.visible (pk.ring.val / 16) c = true
  on     : o.on s c = true
  class_ : (o.classes c).contains pk.auth.toNat = true
  act    : pk.checkOnly = false

/-- The immediate reply to a packet: the header fields it echoes, its status and its results (R63). -/
def replied (op : Nat) (pk : Pkt) (status : Nat) (results : Bytes) : Reply :=
  { op := BitVec.ofNat 16 op, tag := pk.tag, status := BitVec.ofNat 16 status, detail := 0, partition := pk.partition,
    completion := false, checkOnly := false, results := results, entry := none }

/-- The packet is answered: `u` is what its effect makes of `s`, and `t` differs from `u` in one reply of the ring that
sent it, which stands before what the effect has posted there (R63); an ACCEPTED command is outstanding (R71). -/
structure Answered (s u t : State) (pk : Pkt) (op status : Nat) (results : Bytes) : Prop where
  rest  : { t with rings := u.rings } = u
  rings : ∀ j, j ≠ pk.ring.val → t.ring j = u.ring j
  own   : t.ring pk.ring =
    { u.ring pk.ring with
      outbox := (u.ring pk.ring).outbox.take (s.ring pk.ring).outbox.length ++ [replied op pk status results] ++
        (u.ring pk.ring).outbox.drop (s.ring pk.ring).outbox.length
      outstanding := (u.ring pk.ring).outstanding + (if status = 1 then 1 else 0) }

/-- Nothing but one pair differs. -/
structure OnlyPair (s t : State) (p : Nat) : Prop where
  rest  : { t with pairs := s.pairs } = s
  pairs : ∀ q, q ≠ p → t.pair q = s.pair q

/-- A completion is posted at the end of a ring's outbox (R63). -/
def Posted (s t : State) (who : Asker) (status : Nat) (results : Bytes) : Prop :=
  (t.ring who.ring).outbox = (s.ring who.ring).outbox ++
    [{ op := who.op, tag := who.tag, status := BitVec.ofNat 16 status, detail := 0, partition := who.partition,
       completion := true, checkOnly := false, results := results, entry := none }]

/-- A pair has returned to its checkpoint (R199, R202): no window is left uncommitted, the leader's registers are those
of the checkpoint with EV and every event since, and it waits for nothing. -/
structure RolledBack (s t : State) (p : Nat) : Prop where
  closed : (t.pair p).closed = []
  opened : (t.pair p).opened = { Window.empty (((s.pair p).uncommitted.head?.map Window.number).getD 0) with
             ev := (s.pair p).uncommitted.any Window.ev }
  stores : (t.pair p).committed = (s.pair p).committed
  ckpt   : (t.pair p).ckpt = (s.pair p).ckpt
  arch   : (t.core (leaderOf p)).arch = { (s.pair p).ckpt with
             ps := (s.pair p).ckpt.ps ||| (if (s.pair p).uncommitted.any Window.ev then 0x200#64 else 0) }
  wait   : (t.core (leaderOf p)).wait = .none ∧ (t.core (leaderOf p)).divUnit = none ∧ (t.core (leaderOf p)).tlb = []
  failing : (t.pair p).failing = none
  cores  : ∀ c, c ≠ leaderOf p → t.core c = s.core c
  pairs  : ∀ q, q ≠ p → t.pair q = s.pair q

/-- Who is owed the completion of a packet (R63). -/
def askerOf (op : Nat) (pk : Pkt) : Asker :=
  { ring := pk.ring, tag := pk.tag, op := BitVec.ofNat 16 op, partition := pk.partition }

/-- One cache operation more is under way, and nothing else differs. -/
def AddsCacheJob (s u : State) (j : CacheJob) : Prop :=
  u.caches.jobs = s.caches.jobs ++ [j] ∧ { u with caches := { u.caches with jobs := s.caches.jobs } } = s

/-- One memory operation more is under way, and nothing else differs. -/
def AddsMemJob (s u : State) (j : MemJob) : Prop :=
  u.mem.jobs = s.mem.jobs ++ [j] ∧ { u with mem := { u.mem with jobs := s.mem.jobs } } = s

/-- The ways that a new lock may not take: those of a gated or a draining group in any slice (R262). -/
def wayOff (s : State) (w : Nat) : Bool :=
  (List.range 4).any fun d => !(s.slice d).groupOn.getLsbD (w / 4) || (s.slice d).cleaning.getLsbD (w / 4)

/-- The region that a TIER_SET packet asks for (R330). -/
def tierAsked (pk : Pkt) : Tier :=
  { Tier.reset with
    class4 := numAt pk.params 1 1 == 4, key := numAt pk.params 2 1, size := numAt pk.params 8 8
    store := numAt pk.params 16 8, desc := numAt pk.params 24 8, threshA := numAt pk.params 32 4
    threshB := numAt pk.params 36 4 }

/-- An access by a requester outside the pairs is made at once: no granule operation and no atomic holds its pieces or the
table entries that translate it, and no channel that it needs is ASLEEP (R28, R142, R306). -/
structure AtOnce (s : State) (tables ps : List (Nat × Nat)) (write : Bool) : Prop where
  free  : s.blocked tables = false ∧ s.blocked ps = false
  awake : s.asleepOf tables false = [] ∧ s.asleepOf ps write = []

/-- Nothing but one ring differs. -/
structure OnlyRing (s t : State) (r : Nat) : Prop where
  rest  : { t with rings := s.rings } = s
  rings : ∀ q, q ≠ r → t.ring q = s.ring q

/-- Nothing but one queue differs. -/
structure OnlyQueue (s t : State) (q : Nat) : Prop where
  rest   : { t with queues := s.queues } = s
  queues : ∀ j, j ≠ q → t.queue j = s.queue j

/-- Nothing but one cell differs. -/
structure OnlyCell (s t : State) (c : Nat) : Prop where
  rest  : { t with cells := s.cells } = s
  cells : ∀ k, k ≠ c → t.cell k = s.cell k

/-- A leaf whose state is its own and that keeps nothing but that state when it stops: a port group, an engine, a mover,
a queue, a class, a timer or Sorrel. -/
def plainLeaf (c : Nat) : Bool := [0x05, 0x07, 0x08, 0x0B, 0x0C, 0x0E, 0x0F, 0x13].contains (cellKind c)

/-- The cell has become RUNNING with no staged settings left, and every other cell stands (R54). -/
def Runs (s t : State) (c : Nat) : Prop :=
  t.cell c = { s.cell c with
    st := .running, staged := none, waking := false, sleepAsked := false, idleFrom := s.now } ∧
    ∀ k, k ≠ c → t.cell k = s.cell k

/-- Nothing but reports on fault reporters differs. -/
def OnlyReports (s t : State) : Prop := { t with tansy := { t.tansy with reps := s.tansy.reps } } = s

/-- The packet of an engine's command, its opcode and the kind of engine that takes it (R495). -/
def engineCommand : Instr → Option (Nat × Nat × Pkt)
  | .compress pk => some (0x0900, 7, pk)
  | .decompress pk => some (0x0901, 7, pk)
  | .cipher pk => some (0x0910, 8, pk)
  | .digest pk => some (0x0911, 8, pk)
  | .rsa pk => some (0x0912, 8, pk)
  | .ecdsaSign pk => some (0x0913, 8, pk)
  | .ecdsaVerify pk => some (0x0914, 8, pk)
  | .random pk => some (0x0915, 8, pk)
  | .keyLoad pk => some (0x0918, 8, pk)
  | .keyGen pk => some (0x0919, 8, pk)
  | .keyClear pk => some (0x091A, 8, pk)
  | _ => none

/-- No channel that a job of main memory writes to zero is ASLEEP (R28). -/
def NoneAsleep (s : State) (j : MemJob) : Prop :=
  s.sleeping ((s.jobRanges j).flatMap fun r => s.rangeChans r.1 r.2) = []

/-- The event that ends a job of main memory which writes memory to zero. -/
def ends (j : MemJob) (job : Nat) (i : Instr) : Prop :=
  match j with
  | .granuleKey _ _ _ => i = .granuleKeyComplete job
  | .zero _ _ _ _ => i = .zeroRangeComplete job
  | .tierSet _ _ _ => i = .tierSetComplete job
  | .poolAdd _ _ _ => i = .poolAddComplete job
  | .assign _ _ _ _ => i = .assignRevokeComplete job
  | .tierClear _ _ => False


/-! ### Events -/

/-- Tansy has recorded one fault of a reporter whose level before R606 is `first` (R601, R603, R604): its state, LEVEL_SEEN,
and the reaction that is due. Every other reporter stands, but for what the block's link has done to its quiet timer. -/
structure Recorded (s t : State) (r : Nat) (broken : Bool) (first : Nat) : Prop where
  level   : (t.rep r).lastLevel = first ∨ first = 3 ∧ (t.rep r).lastLevel = 4
  seen    : t.tansy.levelSeen.getLsbD (t.rep r).lastLevel = true
  active  : (t.rep r).active = true
  esc     : (t.rep r).esc = min 15 ((s.rep r).esc + 1)
  sticky  : (t.rep r).faultSeen = true
  faults  : (t.rep r).faults = satAdd (s.rep r).faults 1
  quiet   : (t.rep r).quietAt = (if t.blockLost (r / 512) then none else some (s.now + (s.rep r).quiet * 100000))
  taken   : (t.rep r).fault = false ∧ (t.rep r).stopped = []
  due     : ∃ x, t.tansy.reactions = s.tansy.reactions ++ [x] ∧ x.reporter = r ∧ x.level = (t.rep r).lastLevel ∧
              x.escBefore = (s.rep r).esc ∧ x.broken = broken ∧
              x.escalated = decide ((if broken then max (reporterBase r) 2 else reporterBase r) < first)

/-- Power-up may take step `n` (R637). -/
structure Boots (s : State) (n : Nat) : Prop where
  power : s.pins.pwrOk = true
  up    : s.vixia.up = true
  good  : s.vixia.stepFailed = false
  next  : n = if s.vixia.bootStep = 0 then 3 else s.vixia.bootStep + 1

/-! ### Ports -/

/-- Nothing but one port differs. -/
structure OnlyPort (s t : State) (p : Nat) : Prop where
  rest  : { t with io := { t.io with ports := s.io.ports } } = s
  ports : ∀ q, q ≠ p → t.port q = s.port q

/-- A received frame, with the port on which it arrives (R542). -/
def frameOf : Instr → Option (PortId × Frame)
  | .op p f => some (p, f)
  | .data p f => some (p, f)
  | .end_ p f => some (p, f)
  | .ack p f => some (p, f)
  | .nak p f => some (p, f)
  | .resolve p f => some (p, f)
  | .resolved p f => some (p, f)
  | .sync p f => some (p, f)
  | .synced p f => some (p, f)
  | .abort p f => some (p, f)
  | _ => none

/-- The port as it is once a frame has been heard on it (R29, R553, R556). -/
def heard (s : State) (p : Nat) (credit : Nat) : Port :=
  { s.port p with
    lastRx := s.now, busyAt := s.now, quietAsked := false, credits := min 65535 ((s.port p).credits + credit) }

/-- A port has put one frame of a type on its line, behind all that it had sent. -/
def SentFrame (s t : State) (p : Nat) (ty : FType) (g : Frame) : Prop :=
  (t.port p).sent = (s.port p).sent ++ [.frame ty g]

/-- The SEQ at which a frame is at the receive point of its context (R550). -/
def atReceivePoint (s : State) (f : Frame) : Prop :=
  f.seq = if f.resync then f.seq else (s.conv (frameCtx f)).rx.getD f.seq

/-- The module is the partner that a frame names: on a bundle port that is UP, at the membership (R575). -/
def ForMembership (s : State) (p : Nat) (f : Frame) : Prop :=
  s.isUp p = true ∧ s.bundlePort p = true ∧ toMembership f = true

/-- A link has left service (R556, R558). -/
structure LinkLeaves (s t : State) (p : Nat) : Prop where
  port  : (t.port p).link = .down ∧ (t.port p).lost = true ∧ (t.port p).credits = 0 ∧ (t.port p).waiting = []
  told  : (t.rep (reporterOf (cellNo 6 p) 2)).fault = true
  users : ∀ x ∈ s.io.runs.map Prod.fst, (s.ctx x).port = p → (s.ctx x).op = .active → (s.run x).result = none →
            (t.ctx x).op = .redrive
  rest  : { t with io := s.io, tansy := s.tansy } = s

end Sys2Proof.Machine
end

