-- ==== Sys2Proof/Certificates/Slice0/Obligations.lean ====
section
/-! DEFINITION. The statements about the module, one definition each; OBLIGATIONS.json says what rule of the spec each
formalises. -/

open Sys2Proof Sys2Proof.Machine

/-! ### The whole machine -/

/-- A step runs the command at the front of the queue, and idles on an empty one. The queue is the model's: log entries 1
and 2. -/
def Obligations.StepRunsTheFrontCommand : Prop :=
  (∀ (s : State) (c : Instr) (l : List Instr), step { s with pending := c :: l } = exec c { s with pending := l }) ∧
  (∀ (s : State), step { s with pending := [] } = .next { s with pending := [] })

/-- Memory at reset is in canonical form. -/
def Obligations.ResetMemoryIsCanonical : Prop :=
  Memory.wf State.reset.mem = true ∧ State.reset.mem.cells = [] ∧ State.reset.mem.poison = []

/-- The invariant of memory, kept by every step. -/
def Obligations.EveryStepKeepsMemoryCanonical : Prop :=
  ∀ (s t : State), Memory.wf s.mem = true → step s = .next t → Memory.wf t.mem = true


/-- The heartbeat. That the first tick leaves TB at 0 is the model's reading (log entry 58); the outcome of HBCLK_SELECT
is open (log entry 46). -/
def Obligations.HeartbeatAdvancesTheTimebase : Prop :=
  (∀ s : State, s.pins.pwrOk = false → exec .heartbeatTick s = .next s) ∧
  (∀ s : State, s.pins.pwrOk = true → s.cst cellTansy ≠ .running →
    ∃ t, exec .heartbeatTick s = .next t ∧ OnlyCell s t cellTansy ∧ t.cell cellTansy = { s.cell cellTansy with st := .running }) ∧
  (∀ s : State, s.pins.pwrOk = true → s.cst cellTansy = .running → s.bundle.groups = [] → s.bundle.sends = [] →
    ∃ t, exec .heartbeatTick s = .next t ∧
      t.clock = { s.clock with ticks := s.clock.ticks + 1, tb := s.clock.tb + 10, tbBefore := s.clock.tb
                               sinceAdjust := min 1024 (s.clock.sinceAdjust + 1) } ∧
      (∀ q th st on, (s.queue q).nextTune = some (th, st, on) →
        (t.queue q).cfg = { (s.queue q).cfg with thresh := th, staleT := st, noticeOn := on } ∧
        (t.queue q).nextTune = none) ∧
      (∀ c m us, (s.cell c).nextPolicy = some (m, us) →
        (t.cell c).manual = m ∧ (t.cell c).idleUs = us ∧ (t.cell c).nextPolicy = none) ∧
      (∀ n h l, (s.sensor n).nextThr = some (h, l) →
        (t.sensor n).high = h ∧ (t.sensor n).low = l ∧ (t.sensor n).nextThr = none) ∧
      (∀ n c p, (s.timer n).next = some (c, p) →
        t.timer n = { s.timer n with compare := c, period := p, expired := false, next := none }) ∧
      (∀ r q, (s.rep r).nextQuiet = some q → (t.rep r).quiet = q ∧ (t.rep r).nextQuiet = none) ∧
      (s.tansy.errLatch = false → s.tansy.pulseEnd = none → s.tansy.reactions = [] → t.tansy.errN = true) ∧
      { t with clock := s.clock, cells := s.cells, rings := s.rings, cores := s.cores, pairs := s.pairs
               caches := s.caches, mem := s.mem, io := s.io, queues := s.queues, sources := s.sources, timers := s.timers
               engines := s.engines, bundle := s.bundle, tansy := s.tansy, vixia := s.vixia, free := s.free } = s) ∧
  (∀ (s : State) (up : Bool), s.pins.pwrOk = true → s.cst cellTansy = .running → s.vixia.up = true →
    1023 ≤ s.clock.sinceAdjust → s.bundle.groups = [] → s.bundle.sends = [] →
    ∃ t, exec (.tbSlew up) s = .next t ∧
      t.clock = { s.clock with ticks := s.clock.ticks + 1, tb := s.clock.tb + (if up then 20 else 0)
                               tbBefore := s.clock.tb, sinceAdjust := 0 } ∧
      t.bundle.adjLeft = slewLeft up s.bundle.adjLeft) ∧
  (∀ (s : State) (up : Bool),
    (s.pins.pwrOk = false ∨ s.cst cellTansy ≠ .running ∨ s.vixia.up = false ∨ s.clock.sinceAdjust < 1023) →
    exec (.tbSlew up) s = exec .heartbeatTick s) ∧
  (∀ s : State, (s.pins.pwrOk = false ∨ s.clock.backup = true) → exec .hbclkLoss s = .next s) ∧
  (∀ s : State, s.pins.pwrOk = true → s.clock.backup = false →
    ∃ t, exec .hbclkLoss s = .next t ∧ t.clock = { s.clock with backup := true } ∧ (t.rep 0x1A5).fault = true ∧
      OnlyReports { s with clock := t.clock } t) ∧
  (∀ (s : State) (pk : Pkt) (c : Nat), Admitted opTbLoad pk c s → (wordAt pk.params 0).toNat % 10 = 0 →
    s.step5Begun = false →
    (s.clock.tbLoaded = false → ∃ u t, exec (.tbLoad pk) s = .next t ∧ Answered s u t pk 0x0D02 0 [] ∧
      u = { s with clock := { s.clock with tb := wordAt pk.params 0, tbLoaded := true } }) ∧
    (s.clock.tbLoaded = true → ∃ t, exec (.tbLoad pk) s = .next t ∧ Answered s s t pk 0x0D02 0x0207 [])) ∧
  (∀ (s : State) (pk : Pkt) (c : Nat) (on : Bool), Admitted opHbclkSelect pk c s →
    wordAt pk.params 0 = (if on then 1 else 0) →
    let u := { s with free := s.free + 1 }
    (on = false ∨ s.clock.backup = false →
      ∃ t, exec (.hbclkSelect pk) s = .next t ∧ Answered s s t pk 0x0D03 0 []) ∧
    (on = true → s.clock.backup = true → ∃ t, exec (.hbclkSelect pk) s = .next t ∧
      if (Config.freeValue s.free).getLsbD 0 then Answered s u t pk 0x0D03 0x02D0 []
      else Answered s { u with clock := { s.clock with backup := false } } t pk 0x0D03 0 []))

/-- Timeouts (R21). -/
def Obligations.TimeoutsActAsTheirExpiries : Prop :=
  ∀ (s : State) (p : PortId) (q : Fin 1024) (r : RepId) (j : EntryId) (x c : Nat) (b : Bool),
    exec (.timeoutExpiry (.tail p)) s = exec (.tailTimerExpiry p) s ∧
    exec (.timeoutExpiry (.stale q)) s = exec (.staleTimerExpiry q) s ∧
    exec (.timeoutExpiry (.quiet r)) s = exec (.quietTimerExpiry r) s ∧
    exec (.timeoutExpiry (.rto x)) s = exec (.rtoExpiry x) s ∧
    exec (.timeoutExpiry (.keepalive p)) s = exec (.keepaliveTimer p) s ∧
    exec (.timeoutExpiry (.linkRx p)) s = exec (.linkRxTimeout p) s ∧
    exec (.timeoutExpiry (.training p)) s = exec (.trainingTimeout p) s ∧
    exec (.timeoutExpiry (.align p)) s = exec (.alignTimeout p) s ∧
    exec (.timeoutExpiry .errPulse) s = exec .errPulseEnd s ∧
    exec (.timeoutExpiry (.cutoff j)) s = exec (.deadlineCutoff j) s ∧
    exec (.timeoutExpiry (.lateLimit j)) s = exec (.lateLimitExpiry j) s ∧
    exec (.timeoutExpiry (.powerGood b)) s = exec (.powerGoodTimeout b) s ∧
    exec (.timeoutExpiry (.idle c)) s = exec (.idleDelayExpiry c) s ∧ ∃ t, exec (.timeoutExpiry (.idle c)) s = .next t

/-- The registers and replies of rings. -/
def Obligations.RingsFollowTheirRegisters : Prop :=
  (∀ (s : State) (r : Fin 1024) (v : Word), ((s.ring r).enable = false ∨ (s.ring r).halted = true) →
    exec (.doorbell r v) s = .next s) ∧
  (∀ (s : State) (r : Fin 1024) (v : Word), (s.ring r).enable = true → (s.ring r).halted = false →
    let x := s.ring r
    let fits := v.toNat < 2 ^ 16 ∧
      (v.setWidth 16 - x.cmdProd).toNat ≤ (x.cmdCons + BitVec.ofNat 16 (2 ^ x.log2.toNat) - x.cmdProd).toNat
    ∃ t, exec (.doorbell r v) s = .next t ∧ OnlyRing s t r ∧
      (fits → t.ring r = { x with cmdProd := v.setWidth 16 }) ∧
      (¬ fits → t.ring r = { x with halted := true, haltStatus := 0x010C })) ∧
  (∀ (s : State) (r : Fin 1024) (on : Bool) (k : BitVec 4),
    let x := s.ring r
    let size := if x.enable then x.log2 else k
    let legal := 1 ≤ size.toNat ∧ size.toNat ≤ 12
    ∃ t, exec (.ringEnable r on k) s = .next t ∧ OnlyRing s t r ∧
      (on = false ∨ legal → t.ring r = { x with enable := on, log2 := size }) ∧
      (on = true → ¬ legal →
        t.ring r = { x with enable := true, log2 := size, halted := true, haltStatus := 0x010D })) ∧
  (∀ (s : State) (r : Fin 1024), (s.ring r).halted = false → exec (.ringHaltClear r) s = .next s) ∧
  (∀ (s : State) (r : Fin 1024), (s.ring r).halted = true →
    ∃ t, exec (.ringHaltClear r) s = .next t ∧ OnlyRing s t r ∧
      t.ring r = { s.ring r with halted := false, cmdProd := (s.ring r).cmdCons, kept := false }) ∧
  (∀ (s : State) (r : Fin 1024) (v : BitVec 16),
    ∃ t, exec (.replyConsWrite r v) s = .next t ∧ t.ring r = { s.ring r with replyCons := v } ∧
      (∀ q, q ≠ r.val → t.ring q = s.ring q) ∧
      { t with rings := s.rings, io := { t.io with journal := s.io.journal } } = s ∧
      (∀ j k, (s.entry j).ring = r.val → (s.entry j).state = 4 → (s.entry j).slot = some k →
        (s.entry j).popped = true → (s.entry j).consumed = false → passed v k = true → t.entry j = JEntry.free) ∧
      (∀ j k, (s.entry j).ring = r.val → (s.entry j).slot = some k → (s.entry j).popped = false → passed v k = true →
        t.entry j = { s.entry j with taken := true }) ∧
      (∀ j, ((s.entry j).ring ≠ r.val ∨ ∀ k, (s.entry j).slot = some k → passed v k = false) →
        t.entry j = s.entry j)) ∧
  (∀ (s : State) (r : Fin 1024),
    ((s.ring r).outbox = [] ∨ (s.ring r).freeSlots = 0 ∨ (s.ring r).kept = true) →
    exec (.replyWrite r) s = .next s) ∧
  (∀ (s : State) (r : Fin 1024) (m : Reply) (rest : List Reply),
    let x := s.ring r
    x.outbox = m :: rest → x.freeSlots ≠ 0 → x.kept = false →
    s.partAddr (r.val / 16) (x.slotAddr x.replyBase x.replyProd) .write = none →
    ∃ t, exec (.replyWrite r) s = .next t ∧ OnlyRing s t r ∧
      t.ring r = { x with halted := true, haltStatus := 0x010E, kept := true }) ∧
  (∀ (s : State) (r : Fin 1024) (m : Reply) (rest : List Reply) (f : Leaf),
    let x := s.ring r
    let gpa := x.slotAddr x.replyBase x.replyProd
    let b := replyBytes s.clock.tb m
    let u := (s.markPart (r.val / 16) gpa .write).dmaWrite 0 f.addr b
    x.outbox = m :: rest → x.freeSlots ≠ 0 → x.kept = false →
    s.partAddr (r.val / 16) gpa .write = some f →
    AtOnce s (s.partTables (r.val / 16) gpa b.length) [(f.addr, b.length)] true → s.overPins u = false →
    ∃ t, exec (.replyWrite r) s = .next t ∧
      t.ring r = { x with outbox := rest, replyProd := x.replyProd + 1
                          outstanding := if m.completion then x.outstanding - 1 else x.outstanding } ∧
      (∀ q, q ≠ r.val → t.ring q = s.ring q) ∧
      (t.source r).backlog = (u.source r).backlog ++
        [{ payload := BitVec.ofNat 48 (m.status.toNat * 2 ^ 32 + m.tag.toNat), queue := x.replyProd.toNat, prio := 0
           entry := m.entry }] ∧
      (∀ q, q ≠ r.val → t.source q = u.source q) ∧
      (∀ j, m.entry = some j → (s.entry j).state ≠ 0 →
        (t.entry j).slot = some x.replyProd ∧
        (t.entry j).state = (if (s.entry j).posting = 1 then 4 else if (s.entry j).posting = 2 then 5 else (s.entry j).state) ∧
        (t.entry j).posting = (if (s.entry j).posting ≤ 2 then 0 else (s.entry j).posting) ∧
        ((s.entry j).posting ≠ 1 → { t.io with journal := s.io.journal } = s.io ∧ ∀ k, k ≠ j → t.entry k = s.entry k)) ∧
      (∀ j, m.entry = some j → (s.entry j).state = 0 → t.io = s.io) ∧
      (m.entry = none → t.io = s.io) ∧
      { t with rings := s.rings, sources := u.sources, io := s.io } = u)

/-- The consumption of command slots. -/
def Obligations.CommandsAreTakenFromRings : Prop :=
  (∀ (s : State), s.readyRings = [] → exec .commandConsume s = .next s) ∧
  (∀ (s : State) (r : Nat) (l : List Nat), s.readyRings = r :: l →
    let x := s.ring r
    (tabWf Ring.reset s.rings = true → r < 1024 ∧ x.enable = true ∧ x.halted = false ∧ x.sized = true ∧ x.cmdCons ≠ x.cmdProd) ∧
    (s.partAddr (r / 16) (x.slotAddr x.cmdBase x.cmdCons) .read = none →
      ∃ t, exec .commandConsume s = .next t ∧ OnlyRing { s with turn := r } t r ∧
        t.ring r = { x with halted := true, haltStatus := 0x010E }) ∧
    (∀ f, s.partAddr (r / 16) (x.slotAddr x.cmdBase x.cmdCons) .read = some f →
      let gpa := x.slotAddr x.cmdBase x.cmdCons
      let len := 32 + 8 * min 508 (numAt (s.bytesAt f.addr 32) 22 2)
      let u := ({ s with turn := r }.markPart (r / 16) gpa .read).dmaRead f.addr len
      let v := u.modRing r fun x => { x with cmdCons := x.cmdCons + 1 }
      AtOnce s (s.partTables (r / 16) gpa len) [(f.addr, len)] false →
      (u.poisoned f.addr len = true → ∃ t, exec .commandConsume s = .next t ∧ OnlyRing u t r ∧
        t.ring r = { x with halted := true, haltStatus := 0x010F }) ∧
      (u.poisoned f.addr len = false → ∀ code status pk,
        parsePacket (Fin.ofNat 1026 r) (u.bytesAt f.addr len) = (code, status, pk) →
        (status ≠ 0 → ∃ t, exec .commandConsume s = .next t ∧ OnlyRing v t r ∧
          (t.ring r).outbox = x.outbox ++ [immediate code pk (refuse status 0 s)]) ∧
        (status = 0 → code = 8 → exec .commandConsume s = exec (.forward pk) v) ∧
        (status = 0 → ∀ o ∈ allOps, o.code = code → exec .commandConsume s = .next (submit o pk v)))))

/-- Stores to control space by partition 0. -/
def Obligations.StoresToModuleRegisters : Prop :=
  let base := 0x000FFF6000000000
  (∀ (s : State) (a : Nat) (v : Word), (a % 8 ≠ 0 ∨ s.ctrlOk 0 true true a = false) →
    exec (.registerWrite a v) s = .next s) ∧
  (∀ (s : State) (p : Nat) (v : Word), p < 57 →
    ∃ t, exec (.registerWrite (base + 0x10000 + 0x40 * p) v) s = .next t ∧ OnlyPair s t p ∧
      t.pair p = { s.pair p with
        cloveFailed := (s.pair p).cloveFailed && !v.getLsbD 10, buscmpFailed := (s.pair p).buscmpFailed && !v.getLsbD 11
        mismatch := (s.pair p).mismatch && !v.getLsbD 12, delayUe := (s.pair p).delayUe && !v.getLsbD 13
        ckptUe := (s.pair p).ckptUe && !v.getLsbD 14, hardFailed := (s.pair p).hardFailed && !v.getLsbD 15 }) ∧
  (∀ (s : State) (p : Nat) (v : Word), p < 57 →
    ∃ t, exec (.registerWrite (base + 0x10008 + 0x40 * p) v) s = .next t ∧ OnlyPair s t p ∧
      t.pair p = { s.pair p with
        retries := v.extractLsb' 0 16, delayCe := v.extractLsb' 16 16, ckptCe := v.extractLsb' 32 16
        localised := v.extractLsb' 48 16 }) ∧
  (∀ (s : State) (p : Nat) (v : Word), p < 57 → exec (.registerWrite (base + 0x10010 + 0x40 * p) v) s = .next s) ∧
  (∀ (s : State) (d : Nat) (v : Word), d < 4 →
    ∃ t, exec (.registerWrite (base + 0x30008 + 0x1000 * d) v) s = .next t ∧
      (t.slice d).lfsr = (if v.setWidth 32 = 0#32 then (s.slice d).lfsr else v.setWidth 32) ∧
      (∀ j, j ≠ d → t.slice j = s.slice j) ∧
      { t with caches := { t.caches with slices := s.caches.slices } } = s) ∧
  (∀ (s : State) (c : Nat) (v : Word), c < 24 →
    ∃ t, exec (.registerWrite (base + 0x60008 + 0x40 * c) v) s = .next t ∧
      t.chan c = { s.chan c with
        ce := v.extractLsb' 0 16, ue := v.extractLsb' 16 16, marked := (s.chan c).marked && !v.getLsbD 40
        ueSeen := (s.chan c).ueSeen && !v.getLsbD 41, linkRetry := (s.chan c).linkRetry && !v.getLsbD 42 } ∧
      (∀ j, j ≠ c → t.chan j = s.chan j) ∧ { t with mem := { t.mem with chans := s.mem.chans } } = s) ∧
  (∀ (s : State) (q : Nat) (v : Word), q < 1024 →
    ∃ t, exec (.registerWrite (base + 0xC0008 + 0x20 * q) v) s = .next t ∧ OnlyQueue s t q ∧
      t.queue q = { s.queue q with
        resetSeen := (s.queue q).resetSeen && !v.getLsbD 18, ptrMismatch := (s.queue q).ptrMismatch && !v.getLsbD 19
        itemUe := (s.queue q).itemUe && !v.getLsbD 20, fullSeen := (s.queue q).fullSeen && !v.getLsbD 21 }) ∧
  (∀ (s : State) (v : Word) (a : Nat), exec (.registerWrite (base + 0x110000) v) s = exec (.tansyStatusWrite v) s ∧
    ∃ t, exec (.tansyStatusWrite v) s = .next t ∧ t.tansy.errLatch = (s.tansy.errLatch && !v.getLsbD 0) ∧
      t.tansy.levelSeen.getLsbD a = (s.tansy.levelSeen.getLsbD a && !v.getLsbD (8 + a)) ∧
      { t with tansy := { t.tansy with errLatch := s.tansy.errLatch, levelSeen := s.tansy.levelSeen } } = s) ∧
  (∀ (s : State) (n r : Nat) (v : Word), n < 64 → r < 16 →
    ∃ t, exec (.registerWrite (0x000FFF0000000008 + n * 2 ^ 32 + 0x100 * r) v) s = .next t ∧
      OnlyRing s t (16 * n + r) ∧
      t.ring (16 * n + r) = (if (s.ring (16 * n + r)).enable then s.ring (16 * n + r)
        else { s.ring (16 * n + r) with cmdBase := v &&& 0x000FFFFFFFFFF000#64 })) ∧
  (∀ (s : State) (r : Fin 1024) (v : Word),
    exec (.registerWrite (0x000FFF5000000000 + 0x1000 * r.val) v) s = exec (.doorbell r v) s)

/-- IDENTIFY and QUERY. -/
def Obligations.CellsAreIdentifiedAndQueried : Prop :=
  (∀ (s : State) (pk : Pkt) (c : Nat), Admitted opIdentify pk c s →
    ∃ t bs, exec (.identify pk) s = .next t ∧ Answered s s t pk 0x0000 0 bs ∧
      numAt bs 0 4 = c ∧ numAt bs 4 1 = cellKind c ∧ numAt bs 5 1 = (pathOf c).length ∧
      slice bs 6 (pathOf c).length = pathOf c ∧ numAt bs 20 1 = (members c).length ∧
      (∀ i m, (members c)[i]? = some m → numAt bs (32 + 4 * i) 4 = m) ∧
      (c = cellModule → wordAt bs 3 = s.vixia.fuses.serial)) ∧
  (∀ (s : State) (pk : Pkt) (c : Nat), Admitted opQuery pk c s → (s.queryBytes c).length ≤ 4064 →
    (s.inForce c).length < 2 ^ 16 → ((s.cell c).staged.getD []).length < 2 ^ 16 →
    ∃ t bs, exec (.query pk) s = .next t ∧ Answered s s t pk 0x0001 0 bs ∧
      numAt bs 0 1 = (s.showSt c).code ∧ numAt bs 2 2 = (s.inForce c).length / 8 ∧
      numAt bs 4 2 = ((s.cell c).staged.getD []).length / 8 ∧
      slice bs 16 (s.inForce c).length = s.inForce c ∧
      slice bs (16 + (s.inForce c).length) ((s.cell c).staged.getD []).length = (s.cell c).staged.getD [])

/-- The common commands on cells. -/
def Obligations.CellsStopChangeStartAndReset : Prop :=
  (∀ (s : State) (pk : Pkt) (c : Nat), Admitted opStop pk c s → plainLeaf c = true →
    (s.cst c = .stopped → ∃ t, exec (.stop pk) s = .next t ∧ Answered s s t pk 0x0002 0 []) ∧
    (s.cst c = .running → s.admitted c = false → (s.cell c).stops = [] →
      ∃ u t, exec (.stop pk) s = .next t ∧ Answered s u t pk 0x0002 0 [] ∧ OnlyCell s u c ∧
        u.cell c = { s.cell c with st := .stopped, waking := false, sleepAsked := false }) ∧
    (s.cst c = .running → s.admitted c = true →
      ∃ u t, exec (.stop pk) s = .next t ∧ Answered s u t pk 0x0002 1 [] ∧ OnlyCell s u c ∧
        u.cell c = { s.cell c with st := .draining, waking := false, sleepAsked := false
                                   stops := (s.cell c).stops ++ [askerOf 0x0002 pk] })) ∧
  (∀ (s : State) (c : Nat), isGroup c = false → s.cst c ≠ .draining → exec (.drainComplete c) s = .next s) ∧
  (∀ (s : State) (c : Nat), plainLeaf c = true → s.cst c = .draining → s.admitted c = true →
    exec (.drainComplete c) s = .next s) ∧
  (∀ (s : State) (c : Nat) (who : Asker), plainLeaf c = true → s.cst c = .draining → s.admitted c = false →
    (s.cell c).stops = [who] →
    ∃ t, exec (.drainComplete c) s = .next t ∧ Posted s t who 0 [] ∧
      t.cell c = { s.cell c with st := .stopped, waking := false, sleepAsked := false, stops := [] } ∧
      (∀ k, k ≠ c → t.cell k = s.cell k) ∧ { t with cells := s.cells, rings := s.rings } = s) ∧
  (∀ (s : State) (pk : Pkt) (c : Nat), Admitted opChange pk c s → plainLeaf c = true → cellKind c ≠ 5 →
    (s.cst c = .stopped → pk.params = [] ∨ changeFault c pk.params = 0 →
      ∃ u t, exec (.change pk) s = .next t ∧ Answered s u t pk 0x0003 0 [] ∧ OnlyCell s u c ∧
        u.cell c = { s.cell c with staged := if pk.params = [] then none else some pk.params }) ∧
    (s.cst c = .running → pk.params = [] → ∃ t, exec (.change pk) s = .next t ∧ Answered s s t pk 0x0003 0x0201 [])) ∧
  (∀ (s : State) (pk : Pkt) (c : Nat), Admitted opStart pk c s → plainLeaf c = true →
    (s.cst c = .running → ∃ t, exec (.start pk) s = .next t ∧ Answered s s t pk 0x0004 0 []) ∧
    (s.cst c = .stopped → cellKind c ∈ [0x0B, 0x0F, 0x13] →
      ∃ u t, exec (.start pk) s = .next t ∧ Answered s u t pk 0x0004 0 [] ∧ OnlyCell s u c ∧ Runs s u c) ∧
    (∀ w, s.cst c = .stopped → cellKind c = 0x0C → (s.cell c).staged = some (wordBytes w) →
      ∃ u t, exec (.start pk) s = .next t ∧ Answered s u t pk 0x0004 0 [] ∧ Runs s u c ∧
        { u with cells := s.cells, queues := s.queues } = s ∧
        (u.queue (cellIndex c)).cfg = { (s.queue (cellIndex c)).cfg with
          line := w.extractLsb' 48 6, intrEn := w.getLsbD 54, proc := w.extractLsb' 56 7 })) ∧
  (∀ (s : State) (pk : Pkt) (c : Nat) (q : ProcShare), Admitted opStart pk c s → cellKind c = 1 → s.cst c = .stopped →
    s.isSplit (cellIndex c) = false → s.proc (2 * cellIndex c) = some q → q.whole = true →
    s.cst (cellNo 0x14 q.part) = .running →
    ∃ u t, exec (.start pk) s = .next t ∧ Answered s u t pk 0x0004 0 [] ∧ Runs s u c ∧
      (u.core (2 * cellIndex c)).arch.pc = (s.part q.part).cfg.entryPc ∧
      (u.core (2 * cellIndex c)).arch.level = 1 ∧ (u.core (2 * cellIndex c)).arch.ps = 0x101#64 ∧
      (u.core (2 * cellIndex c)).arch.sp 1 =
        (s.part q.part).cfg.stackBase + BitVec.ofNat 64 ((q.num + 1) * (s.part q.part).cfg.stackStride) ∧
      (u.core (2 * cellIndex c)).arch.kr 18 = (s.part q.part).cfg.htroot ∧
      (u.core (2 * cellIndex c)).arch.g = [] ∧
      { u with cells := s.cells, cores := s.cores, pairs := s.pairs } = s) ∧
  (∀ (s : State) (pk : Pkt) (c : Nat), Admitted opReset pk c s → plainLeaf c = true →
    (s.cst c = .running → ∃ t, exec (.reset pk) s = .next t ∧ Answered s s t pk 0x0005 0x0201 []) ∧
    (s.cst c = .stopped → cellKind c = 0x0F →
      ∃ u t, exec (.reset pk) s = .next t ∧ Answered s u t pk 0x0005 0 [] ∧
        u.timer (cellIndex c) = { Timer.reset with owner := (s.timer (cellIndex c)).owner } ∧
        (u.cell c).st = .stopped ∧ (u.cell c).staged = none ∧ (u.cell c).manual = false ∧
        (u.cell c).cmdHold = (s.cell c).cmdHold ∧ (∀ j, j ≠ cellIndex c → u.timer j = s.timer j) ∧
        { u with cells := s.cells, timers := s.timers, claims := s.claims } = s)) ∧
  (∀ (s : State) (pk : Pkt), Admitted opStop pk cellTansy s →
    ∃ t, exec (.stop pk) s = .next t ∧ Answered s s t pk 0x0002 0x02C0 [])

/-- Sleep and wake. -/
def Obligations.CellsSleepAndWake : Prop :=
  (∀ (s : State) (pk : Pkt) (c : Nat), Admitted opSleep pk c s → (cellKind c = 7 ∨ cellKind c = 8) →
    (wordAt pk.params 0 = 0 → s.cst c = .running → (s.cell c).waking = false → (s.cell c).holds = 0 →
      ∃ u t, exec (.sleep pk) s = .next t ∧ Answered s u t pk 0x0006 0 [] ∧ OnlyCell s u c ∧
        u.cell c = (if s.idle c then { s.cell c with st := .asleep, sleepAsked := false, waking := false }
          else { s.cell c with sleepAsked := true })) ∧
    (wordAt pk.params 0 = 0 → s.cst c = .running → (s.cell c).holds ≠ 0 →
      ∃ t, exec (.sleep pk) s = .next t ∧ Answered s s t pk 0x0006 0x0206 []) ∧
    (wordAt pk.params 0 = 1 → s.cst c ≠ .faulted → (s.cell c).cmdHold ≠ 0 →
      ∃ u t, exec (.sleep pk) s = .next t ∧ Answered s u t pk 0x0006 0 [] ∧ OnlyCell s u c ∧
        u.cell c = { s.cell c with cmdHold := (s.cell c).cmdHold - 1 }) ∧
    (wordAt pk.params 0 = 1 → s.cst c ≠ .faulted → (s.cell c).cmdHold = 0 →
      ∃ t, exec (.sleep pk) s = .next t ∧ Answered s s t pk 0x0006 0x0208 [])) ∧
  (∀ (s : State) (pk : Pkt) (c : Nat) (hold : Bool), Admitted opWake pk c s → (cellKind c = 7 ∨ cellKind c = 8) →
    wordAt pk.params 0 = (if hold then 1 else 0) → s.cst c ≠ .faulted → (s.cell c).cmdHold < 65535 →
    ∃ u t, exec (.wake pk) s = .next t ∧ Answered s u t pk 0x0007 0 [] ∧ OnlyCell s u c ∧
      u.cell c = { s.cell c with
        cmdHold := (s.cell c).cmdHold + (if hold then 1 else 0)
        sleepAsked := (s.cell c).sleepAsked && !hold
        waking := (s.cell c).waking || decide (s.cst c = .asleep) }) ∧
  (∀ (s : State) (pk : Pkt) (c us : Nat) (manual : Bool), Admitted opSleepPolicy pk c s →
    (cellKind c = 7 ∨ cellKind c = 8) → us < 2 ^ 24 →
    wordAt pk.params 0 = BitVec.ofNat 64 (us * 2 ^ 8 + if manual then 1 else 0) → s.cst c ≠ .faulted →
    ∃ u t, exec (.sleepPolicy pk) s = .next t ∧ Answered s u t pk 0x0009 0 [] ∧ OnlyCell s u c ∧
      u.cell c = { s.cell c with
        nextPolicy := some (manual, if us = 0 then (s.cell c).idleUs else BitVec.ofNat 24 us) }) ∧
  (∀ (s : State) (c : Nat), (cellKind c = 7 ∨ cellKind c = 8) → s.cst c = .running → (s.cell c).waking = false →
    (s.cell c).holds = 0 → s.idle c = true →
    ((s.cell c).sleepAsked = true ∨
      (s.cell c).manual = false ∧
        (s.cell c).idleFrom + 100 * (if (s.cell c).idleUs = 0 then 10 else (s.cell c).idleUs.toNat) ≤ s.now) →
    ∃ t, exec (.idleDelayExpiry c) s = .next t ∧ OnlyCell s t c ∧
      t.cell c = { s.cell c with st := .asleep, sleepAsked := false, waking := false }) ∧
  (∀ (s : State) (c : Nat), (cellKind c = 7 ∨ cellKind c = 8) →
    (s.cst c ≠ .running ∨ (s.cell c).holds ≠ 0 ∨ s.idle c = false ∨
      (s.cell c).manual = true ∧ (s.cell c).sleepAsked = false) → exec (.idleDelayExpiry c) s = .next s) ∧
  (∀ (s : State) (c : Nat), (cellKind c = 7 ∨ cellKind c = 8) →
    (s.cst c = .asleep → (s.cell c).waking = true →
      ∃ t, exec (.cellWakeComplete c) s = .next t ∧ OnlyCell s t c ∧
        t.cell c = { s.cell c with st := .running, waking := false, idleFrom := s.now }) ∧
    (s.cst c ≠ .asleep ∨ (s.cell c).waking = false → exec (.cellWakeComplete c) s = .next s))

/-- FORWARD. -/
def Obligations.ForwardCarriesAnInnerPacket : Prop :=
  ∀ (s : State) (pk inner : Pkt) (c code status : Nat) (o : Op),
    Admitted (forwardAt (judgeAt 128 1 pk) 1 pk) pk c s → parsePacket pk.ring pk.params = (code, status, inner) →
    let r := o.judge { inner with path := (pathOf c ++ inner.path).take 14 } s
    (pk.auth.toNat < inner.auth.toNat → ∃ t, exec (.forward pk) s = .next t ∧ Answered s s t pk 0x0008 0x010A []) ∧
    (inner.auth.toNat ≤ pk.auth.toNat → inner.partition ≠ pk.partition →
      ∃ t, exec (.forward pk) s = .next t ∧ Answered s s t pk 0x0008 0x010B []) ∧
    (inner.auth.toNat ≤ pk.auth.toNat → inner.partition = pk.partition → s.showSt c = .faulted →
      ∃ t, exec (.forward pk) s = .next t ∧ Answered s s t pk 0x0008 0x0203 []) ∧
    (inner.auth.toNat ≤ pk.auth.toNat → inner.partition = pk.partition → s.showSt c ≠ .faulted → c ≠ cellMembership →
      (status = 0 → inner.checkOnly = false → o ∈ allOps → o.code = code → r.status ≠ 1 → r.status ≠ later →
        ∃ t, exec (.forward pk) s = .next t ∧
          Answered s r.state t pk 0x0008 0 ((pad8 (innerReply s code 1 inner r)).take 4064)) ∧
      (status ≠ 0 → ∃ t, exec (.forward pk) s = .next t ∧
        Answered s s t pk 0x0008 0 ((pad8 (innerReply s code 1 inner (refuse status 0 s))).take 4064)))
/-- The integer instructions that write one general register. -/
def Obligations.IntegerInstructionsWriteTheirResult : Prop :=
  ∀ (s f : State) (i : Instr) (core : CoreId) (len : Nat) (d : Reg) (val : State → Arch → Word → Prop),
    intResult i = some (core, len, d, val) → Turn s core len f →
    ∃ t v, exec i s = .next t ∧ val f (f.core core).arch v ∧
      WroteG (f.core core).arch (t.core core).arch d v len ∧ OnlyCore f t core ∧
      (t.core core).divUnit = (f.core core).divUnit

/-- The instructions that write the flags. -/
def Obligations.ComparisonsAndCarriesSetTheFlags : Prop :=
  (∀ (s f : State) (i : Instr) (core : CoreId) (len : Nat) (xy : Arch → Word × Word),
    compared i = some (core, len, xy) → Turn s core len f →
    let a := (f.core core).arch
    let x := (xy a).1
    let y := (xy a).2
    ∃ t, exec i s = .next t ∧ OnlyCore f t core ∧ Kept a (t.core core).arch len ∧
      (t.core core).divUnit = (f.core core).divUnit ∧
      FlagsAre a (t.core core).arch (x - y).msb (decide (x = y)) (decide (y.toNat ≤ x.toNat))
        (decide (x.toInt - y.toInt < -2 ^ 63 ∨ 2 ^ 63 ≤ x.toInt - y.toInt))) ∧
  (∀ (s f : State) (core : CoreId) (a b : Reg), Turn s core 1 f →
    let x := (f.core core).arch
    ∃ t, exec (.tst core a b) s = .next t ∧ OnlyCore f t core ∧ Kept x (t.core core).arch 1 ∧
      (t.core core).divUnit = (f.core core).divUnit ∧
      FlagsAre x (t.core core).arch (x.gr a &&& x.gr b).msb (decide (x.gr a &&& x.gr b = 0)) false false) ∧
  (∀ (s f : State) (core : CoreId) (d a b : Reg), Turn s core 1 f →
    let x := (f.core core).arch
    ∃ t, exec (.addc core d a b) s = .next t ∧ OnlyCore f t core ∧
      (t.core core).divUnit = (f.core core).divUnit ∧
      Wrote x (t.core core).arch d (x.gr a + x.gr b + (if x.ps.getLsbD 5 then 1 else 0)) ∧
      FlagsAre x (t.core core).arch (x.ps.getLsbD 7) (x.ps.getLsbD 6)
        (decide (2 ^ 64 ≤ (x.gr a).toNat + (x.gr b).toNat + (if x.ps.getLsbD 5 then 1 else 0))) (x.ps.getLsbD 4) ∧
      (t.core core).arch.pc = x.pc + 3#64 ∧ Stands x (t.core core).arch ∧ Landed x (t.core core).arch) ∧
  (∀ (s f : State) (core : CoreId) (d a b : Reg), Turn s core 1 f →
    let x := (f.core core).arch
    ∃ t, exec (.subb core d a b) s = .next t ∧ OnlyCore f t core ∧
      (t.core core).divUnit = (f.core core).divUnit ∧
      Wrote x (t.core core).arch d (x.gr a - x.gr b - (if x.ps.getLsbD 5 then 0 else 1)) ∧
      FlagsAre x (t.core core).arch (x.ps.getLsbD 7) (x.ps.getLsbD 6)
        (decide ((x.gr b).toNat + (if x.ps.getLsbD 5 then 0 else 1) ≤ (x.gr a).toNat)) (x.ps.getLsbD 4) ∧
      (t.core core).arch.pc = x.pc + 3#64 ∧ Stands x (t.core core).arch ∧ Landed x (t.core core).arch)

/-- The exposed product and the divide unit. -/
def Obligations.ProductsAndDivisionsReachPhPl : Prop :=
  (∀ (s f : State) (core : CoreId) (a b : Reg) (sgn : Bool), Turn s core 1 f →
    let x := (f.core core).finish.arch
    let y := (f.core core).arch
    let p : BitVec 128 := if sgn then (y.gr a).signExtend 128 * (y.gr b).signExtend 128
      else (y.gr a).setWidth 128 * (y.gr b).setWidth 128
    ∃ t, exec (if sgn then .mul core a b else .mulu core a b) s = .next t ∧ OnlyCore f t core ∧
      (t.core core).divUnit = none ∧
      (t.core core).arch = { x.advance with
        pc := x.pc + 3#64
        products := x.advance.products ++ [⟨2, some (p.extractLsb' 64 64), some (p.extractLsb' 0 64)⟩] }) ∧
  (∀ (s f : State) (core : CoreId) (a b : Reg) (sgn : Bool), Turn s core 1 f →
    let x := (f.core core).finish.arch
    let n := (f.core core).arch.gr a
    let m := (f.core core).arch.gr b
    ¬ (m = 0 ∧ x.ps.getLsbD 11 = true) →
    ∃ t hi lo plan, exec (if sgn then .div core a b else .divu core a b) s = .next t ∧ OnlyCore f t core ∧
      (t.core core).divUnit = some ⟨some (hi, lo), plan⟩ ∧
      (x.ps.getLsbD 10 = true → plan.cycles = 26 ∧ (m ≠ 0 → plan.iterations = 3)) ∧
      (x.ps.getLsbD 10 = false →
        (if sgn then n.toInt.natAbs < m.toInt.natAbs ∨ m = 0 else n.toNat < m.toNat ∨ m = 0) →
        plan.cycles = 12 ∧ plan.iterations = 0) ∧
      (m = 0 → hi = n ∧ lo = BitVec.allOnes 64) ∧
      (m ≠ 0 → sgn = false → lo.toNat = n.toNat / m.toNat ∧ hi.toNat = n.toNat % m.toNat) ∧
      (m ≠ 0 → sgn = true → hi.toInt = n.toInt.tmod m.toInt ∧
        (if n.toInt = -2 ^ 63 ∧ m.toInt = -1 then lo = n else lo.toInt = n.toInt.tdiv m.toInt)) ∧
      (t.core core).arch = { x with
        pc := x.pc + 3#64
        products := (x.products.filter fun p => 1 < p.left).map fun p =>
          { p with left := p.left - 1, hi := none, lo := none } }) ∧
  (∀ (s : State) (core : CoreId) (hi lo : Word) (plan : DivPlan),
    (s.core core).divUnit = some ⟨some (hi, lo), plan⟩ →
    ∃ t, exec (.divideComplete core) s = .next t ∧ { t with cores := s.cores } = s ∧
      (∀ c, c ≠ core.val → t.core c = s.core c) ∧
      t.core core = { s.core core with arch := { (s.core core).arch with ph := hi, pl := lo }, divUnit := none }) ∧
  (∀ (s f : State) (core : CoreId) (d : Reg) (high : Bool), Turn s core 1 f →
    let x := (f.core core).finish.arch
    ∃ t, exec (if high then .mfph core d else .mfpl core d) s = .next t ∧ OnlyCore f t core ∧
      (t.core core).divUnit = none ∧ WroteG x (t.core core).arch d (if high then x.ph else x.pl) 1) ∧
  (∀ (s f : State) (core : CoreId) (a : Reg) (high : Bool), Turn s core 1 f →
    let x := (f.core core).finish.arch
    ∃ t, exec (if high then .mtph core a else .mtpl core a) s = .next t ∧ OnlyCore f t core ∧
      (t.core core).divUnit = none ∧ (∀ r, (t.core core).arch.gr r = x.gr r) ∧
      (t.core core).arch.pc = x.pc + 3#64 ∧ (t.core core).arch.ps = x.ps ∧ Stands x (t.core core).arch ∧
      (if high then (t.core core).arch.ph else (t.core core).arch.pl) = x.gr a ∧
      ∀ p ∈ (t.core core).arch.products, (if high then p.hi else p.lo) = none)

/-- The loads, integer and floating. -/
def Obligations.LoadsReadMemoryBigEndian : Prop :=
  (∀ (s f u : State) (i : Instr) (core : CoreId) (len : Nat) (d : Reg) (va : Arch → Word) (size : Nat) (sgn : Bool)
      (ps : List (Nat × Nat × Nat × Nat)),
    loaded i = some (core, len, d, va, size, sgn) → Turn s core len f →
    Reads f core (va (f.core core).arch) size ps u → s.overPins (u.touchPieces core ps) = false →
    let n := beNat (seen u core ps)
    ∃ t, exec i s = .next t ∧ OnlyCore (u.touchPieces core ps) t core ∧
      (t.core core).divUnit = (f.core core).divUnit ∧
      WroteG (f.core core).arch (t.core core).arch d
        (if sgn then BitVec.ofInt 64 (if 2 ^ (8 * size - 1) ≤ n then (n : Int) - 2 ^ (8 * size) else n)
         else BitVec.ofNat 64 n) len) ∧
  (∀ (s f u : State) (i : Instr) (core : CoreId) (len : Nat) (d : Reg) (va : Arch → Word) (size : Nat)
      (ps : List (Nat × Nat × Nat × Nat)),
    loadedF i = some (core, len, d, va, size) → core.val < 104 → Turn s core len f →
    Reads f core (va (f.core core).arch) size ps u → s.overPins (u.touchPieces core ps) = false →
    let a := (f.core core).arch
    ∃ t, exec i s = .next t ∧ OnlyCore (u.touchPieces core ps) t core ∧
      (∀ r, (t.core core).arch.fr r = if r = d then BitVec.ofNat 128 (beNat (seen u core ps)) else a.fr r) ∧
      (∀ r, (t.core core).arch.gr r = a.gr r) ∧ (t.core core).arch.pc = a.pc + BitVec.ofNat 64 (3 * len) ∧
      (t.core core).arch.ps = a.ps ∧ (t.core core).arch.fs = a.fs ∧ (t.core core).arch.k = a.k ∧
      Landed a (t.core core).arch)

/-- The stores, integer and floating. -/
def Obligations.StoresReachTheirBytesAlone : Prop :=
  ∀ (s f u : State) (i : Instr) (core : CoreId) (len : Nat) (va : Arch → Word) (size : Nat) (v : Arch → Quad)
      (ps : List (Nat × Nat × Nat × Nat)),
    stored i = some (core, len, va, size, v) → (isFloatStore i = true → core.val < 104) → Turn s core len f →
    StoreRoom s core 1 →
    f.access (f.viewer core (f.core core).arch.level) (va (f.core core).arch) size .write = (.ok ps, u) →
    (∀ p ∈ ps, p.1 < controlBase) →
    let a := (f.core core).arch
    PinRoom s u core [gstore (f.viewer core a.level) false ps (beBytes size ((v a).toNat % 2 ^ (8 * size)))] →
    ∃ r t, exec i s = .next t ∧ Kept a (r.core core).arch len ∧ (r.core core).arch.ps = a.ps ∧
      StoresDone u r t core
        [gstore (f.viewer core a.level) false ps (beBytes size ((v a).toNat % 2 ^ (8 * size)))]

/-- The atomics. -/
def Obligations.AtomicsReturnTheOldValue : Prop :=
  ∀ (s f u w : State) (i : Instr) (core : CoreId) (d : Reg) (va : Arch → Word) (new : Arch → Word → Option Word)
      (ps qs : List (Nat × Nat × Nat × Nat)),
    atomicOf i = some (core, d, va, new) → Turn s core 1 f → StoreRoom s core 1 →
    (va (f.core core).arch).toNat % 8 = 0 →
    f.access (f.viewer core (f.core core).arch.level) (va (f.core core).arch) 8 .read false = (.ok ps, w) →
    (∀ p ∈ ps, p.1 < pcieBase) →
    w.access (f.viewer core (f.core core).arch.level) (va (f.core core).arch) 8 .write false = (.ok qs, u) →
    f.gatedElsewhere (pairOfCore core) (spansOf qs) = false → u.badPieces ps = false →
    let a := (f.core core).arch
    let old := BitVec.ofNat 64 (beNat (seen u core ps))
    let gs := match new a old with
      | some x => [gstore (f.viewer core a.level) true qs (wordBytes x)]
      | none => []
    PinRoom s (u.touchPieces core ps) core gs →
    ∃ r t, exec i s = .next t ∧ StoresDone (u.touchPieces core ps) r t core gs ∧
      Wrote a (r.core core).arch d old ∧ (r.core core).arch.pc = a.pc + 3#64 ∧ Stands a (r.core core).arch ∧
      Landed a (r.core core).arch ∧
      match i with
      | .cas _ _ _ _ => FlagsAre a (r.core core).arch (a.ps.getLsbD 7) (decide (old = a.gr d)) (a.ps.getLsbD 5) (a.ps.getLsbD 4)
      | _ => (r.core core).arch.ps = a.ps

/-- Conditions and branches. -/
def Obligations.BranchesTakeTheirTargets : Prop :=
  (∀ (s f : State) (core : CoreId) (d : Reg) (k : BitVec 5), k.toNat < 15 → Turn s core 1 f →
    ∃ t, exec (.setcc core d k) s = .next t ∧ OnlyCore f t core ∧ (t.core core).divUnit = (f.core core).divUnit ∧
      WroteG (f.core core).arch (t.core core).arch d
        (if condition (f.core core).arch.ps k.toNat then 1 else 0) 1) ∧
  (∀ (s f : State) (i : Instr) (core : CoreId) (len : Nat) (go : Arch → Bool) (target : Arch → Word),
    branched i = some (core, len, go, target) → Turn s core len f →
    let a := (f.core core).arch
    (go a = true → (target a).toNat % 3 = 0) →
    ∃ t, exec i s = .next t ∧ OnlyCore f t core ∧ (t.core core).divUnit = (f.core core).divUnit ∧
      (t.core core).arch.pc = (if go a then target a else a.pc + BitVec.ofNat 64 (3 * len)) ∧
      (∀ r, (t.core core).arch.gr r = a.gr r) ∧ (t.core core).arch.ps = a.ps ∧ Stands a (t.core core).arch ∧
      Landed a (t.core core).arch)

/-- Calls and returns. -/
def Obligations.CallsPushAndReturnsPop : Prop :=
  (∀ (s f u : State) (i : Instr) (core : CoreId) (len : Nat) (target : Arch → Word) (ps : List (Nat × Nat × Nat × Nat)),
    called i = some (core, len, target) → Turn s core len f → StoreRoom s core 1 →
    let a := (f.core core).arch
    a.level ≤ 2 → (a.kr (8 + a.level)).toNat ≤ (a.gr 31 - 8#64).toNat →
    ((a.gr 31 - 8#64).toNat + 8 ≤ 2 ^ 64 ∨ a.kr (8 + a.level) = 0) → (target a).toNat % 3 = 0 →
    f.access (f.viewer core a.level) (a.gr 31 - 8#64) 8 .write = (.ok ps, u) → (∀ p ∈ ps, p.1 < controlBase) →
    PinRoom s u core [gstore (f.viewer core a.level) false ps (wordBytes (a.pc + BitVec.ofNat 64 (3 * len)))] →
    ∃ r t, exec i s = .next t ∧
      StoresDone u r t core [gstore (f.viewer core a.level) false ps (wordBytes (a.pc + BitVec.ofNat 64 (3 * len)))] ∧
      Wrote a (r.core core).arch 31 (a.gr 31 - 8#64) ∧ (r.core core).arch.pc = target a ∧
      (r.core core).arch.ps = a.ps ∧ Stands a (r.core core).arch ∧ Landed a (r.core core).arch) ∧
  (∀ (s f u : State) (core : CoreId) (ps : List (Nat × Nat × Nat × Nat)),
    Turn s core 1 f → Reads f core ((f.core core).arch.gr 31) 8 ps u →
    s.overPins (u.touchPieces core ps) = false →
    let a := (f.core core).arch
    let target := BitVec.ofNat 64 (beNat (seen u core ps))
    target.toNat % 3 = 0 →
    ∃ t, exec (.ret core) s = .next t ∧ OnlyCore (u.touchPieces core ps) t core ∧
      Wrote a (t.core core).arch 31 (a.gr 31 + 8#64) ∧ (t.core core).arch.pc = target ∧
      (t.core core).arch.ps = a.ps ∧ Stands a (t.core core).arch ∧ Landed a (t.core core).arch)

/-- The traps. -/
def Obligations.TrapsEnterTheirVectors : Prop :=
  (∀ (s f u : State) (i : Instr) (core : CoreId) (target : Nat → Option Nat) (vector T : Nat)
      (p0 p1 : List (Nat × Nat × Nat × Nat)),
    trapped i = some (core, target, vector) → Turn s core 1 f → MayClose s core → StoreRoom s core 2 →
    let c := f.core core
    let a := afterTrap c 1
    c.arch.level ≤ 2 → target c.arch.level = some T → Pushes f core T a p0 p1 u → PinRoom s u core (frameStores f core T p0 p1 a.psRead a.pc) →
    ∃ r t, exec i s = .next t ∧ Entered a (r.core core).arch T vector 0 0 ∧
      StoresDone u r t core (frameStores f core T p0 p1 a.psRead a.pc)) ∧
  (∀ (s f u : State) (core : CoreId) (x y : Reg) (sgn : Bool) (T : Nat) (p0 p1 : List (Nat × Nat × Nat × Nat)),
    Turn s core 1 f → MayClose s core → StoreRoom s core 2 →
    let c := f.core core
    let n := c.arch.gr x
    let a := { c.finish.arch with
      pc := c.arch.pc + 3#64, ph := n, pl := BitVec.allOnes 64
      products := (c.finish.arch.products.filter fun p => 1 < p.left).map fun p =>
          { p with left := p.left - 1, hi := none, lo := none } }
    c.arch.level ≤ 2 → c.arch.gr y = 0 → c.arch.ps.getLsbD 11 = true →
    T = (if c.arch.level = 2 then 2 else 1) → Pushes f core T a p0 p1 u → PinRoom s u core (frameStores f core T p0 p1 a.psRead a.pc) →
    ∃ r t, exec (if sgn then .div core x y else .divu core x y) s = .next t ∧
      Entered a (r.core core).arch T 0x0F 0 0 ∧
      StoresDone u r t core (frameStores f core T p0 p1 a.psRead a.pc))

/-- Synchronous faults without an access, and interrupts. -/
def Obligations.FaultsAndInterruptsEnterTheirVectors : Prop :=
  (∀ (s f u : State) (i : Instr) (core : CoreId) (len vector T : Nat) (p0 p1 : List (Nat × Nat × Nat × Nat)),
    faulted i (f.core core).arch.level = some (core, len, vector) → Turn s core len f → MayClose s core →
    StoreRoom s core 2 →
    let a := (f.core core).finish.arch
    a.level ≤ 2 → T = (if a.level = 2 then 2 else 1) → Pushes f core T a p0 p1 u → PinRoom s u core (frameStores f core T p0 p1 a.psRead a.pc) →
    ∃ r t, exec i s = .next t ∧ Entered a (r.core core).arch T vector 0 0 ∧
      StoresDone u r t core (frameStores f core T p0 p1 a.psRead a.pc)) ∧
  (∀ (s u : State) (core : CoreId) (line T : Nat) (p0 p1 : List (Nat × Nat × Nat × Nat)),
    s.executes core = true → (s.core core).wait = .none → s.takeLine core = some (line, T) → MayClose s core →
    StoreRoom s core 2 →
    let a := (s.core core).finish.arch
    a.level ≤ 2 → Pushes s core T a p0 p1 u → PinRoom s u core (frameStores s core T p0 p1 a.psRead a.pc) →
    ∃ r t, exec (.interruptEntry core) s = .next t ∧ Entered a (r.core core).arch T 0x20 0 (line * 2 ^ 16) ∧
      StoresDone u r t core (frameStores s core T p0 p1 a.psRead a.pc))

/-- The return from an exception. -/
def Obligations.EretRestoresTheFrame : Prop :=
  ∀ (s f u w : State) (core : CoreId) (ps qs : List (Nat × Nat × Nat × Nat)),
    Turn s core 1 f → MayClose s core →
    let a := (f.core core).arch
    (a.level = 1 ∨ a.level = 2) → Reads f core (a.gr 31) 8 ps u →
    Reads (u.touchPieces core ps) core (a.gr 31 + 8#64) 8 qs w →
    s.overPins (w.touchPieces core qs) = false →
    let saved := BitVec.ofNat 64 (beNat (seen u core ps))
    let pc := BitVec.ofNat 64 (beNat (seen w core qs))
    saved.toNat % 4 ≤ a.level → pc.toNat % 3 = 0 →
    ∃ t, exec (.eret core) s = .next t ∧ OnlyCore (w.touchPieces core qs) t core ∧
      let b := (t.core core).arch
      let msh := saved.toNat / 2 ^ 12 % 4
      b.pc = pc ∧ b.level = saved.toNat % 4 ∧ b.sp a.level = a.gr 31 + 16#64 ∧
      (∀ l, l ≤ 2 → l ≠ a.level → b.sp l = a.sp l) ∧ b.g = a.g ∧ b.f = a.f ∧ b.fs = a.fs ∧ b.k = a.k ∧
      (∀ i, b.ps.getLsbD i = if i = 9 then a.ps.getLsbD 9
        else decide (i ∈ [0, 1, 4, 5, 6, 7, 8, 10, 11, 16, 17, 18, 19, 20]) && saved.getLsbD i) ∧
      (msh = 0 → Landed a b) ∧
      (msh ≠ 0 → b.products = ((a.products.filter fun p => 1 < p.left).map fun p => { p with left := p.left - 1 }) ++
        [⟨msh, some (a.kr (if a.level = 2 then 26 else 24)), some (a.kr (if a.level = 2 then 27 else 25))⟩])

/-- The control registers. -/
def Obligations.ControlRegistersFollowTheirRules : Prop :=
  (∀ (s f : State) (core : CoreId) (d : Reg) (k : BitVec 6) (l : Nat), kLevel k.toNat = some l → Turn s core 1 f →
    l ≤ (f.core core).arch.level →
    ∃ t, exec (.mfk core d k) s = .next t ∧ OnlyCore f t core ∧ (t.core core).divUnit = (f.core core).divUnit ∧
      WroteG (f.core core).arch (t.core core).arch d (f.kRead core k.toNat) 1) ∧
  (∀ (s f : State) (core : CoreId) (a : Reg) (k : BitVec 6) (l : Nat), kLevel k.toNat = some l → Turn s core 1 f →
    let x := (f.core core).arch
    let v := x.gr a
    1 ≤ x.level → l ≤ x.level → k.toNat ∉ [19, 20, 29] → (k.toNat = 2 ∨ k.toNat = 6 → v.toNat % 3 = 0) →
    ∃ t, exec (.mtk core a k) s = .next t ∧ OnlyCore f t core ∧ (t.core core).divUnit = (f.core core).divUnit ∧
      let b := (t.core core).arch
      b.kr k.toNat = (if k.toNat = 28 then BitVec.ofNat 64 (v.toNat - v.toNat % 10)
        else if k.toNat = 17 then v &&& 0xFFFF#64
        else if k.toNat = 16 then v &&& 0xFFFFFFFFFF001#64
        else if k.toNat = 18 then v &&& 0xFFFFFFFFFF000#64
        else if k.toNat = 0 ∨ k.toNat = 4 then v &&& kMask k.toNat else v) ∧
      (∀ n, n ≠ k.toNat → b.kr n = x.kr n) ∧ b.pc = x.pc + 3#64 ∧ b.ps = x.ps ∧ b.g = x.g ∧ b.hsp = x.hsp ∧
      b.f = x.f ∧ b.fs = x.fs ∧ Landed x b) ∧
  (∀ (s f : State) (core : CoreId) (a : Reg), Turn s core 1 f →
    let x := (f.core core).arch
    ∃ t, exec (.mtps core a) s = .next t ∧ OnlyCore f t core ∧ (t.core core).divUnit = (f.core core).divUnit ∧
      let b := (t.core core).arch
      (∀ i, i ∈ [4, 5, 6, 7, 10, 11, 16, 17, 18, 19, 20] → b.ps.getLsbD i = (x.gr a).getLsbD i) ∧
      b.ps.getLsbD 8 = (if x.level = 0 then x.ps else x.gr a).getLsbD 8 ∧
      (∀ i, i ∉ [4, 5, 6, 7, 8, 10, 11, 12, 13, 16, 17, 18, 19, 20] → b.ps.getLsbD i = x.ps.getLsbD i) ∧
      b.pc = x.pc + 3#64 ∧ (∀ r, b.gr r = x.gr r) ∧ Stands x b ∧ Landed x b)

/-- Translation, the fences and the TLB instructions. -/
def Obligations.TranslationsAreCheckedKeptAndDropped : Prop :=
  (∀ (s t : State) (v : Viewer) (va pa lo hi : Nat) (acc : Acc), v.level ≠ 2 →
    s.translate v va acc = (.ok pa lo hi, t) → s.owned v.part pa = true) ∧
  (∀ (s : State) (v : Viewer) (va : Nat) (acc : Acc), v.level = 2 → va < 2 ^ 52 →
    ∃ lo hi, s.translate v va acc = (.ok va lo hi, s)) ∧
  (∀ (s f : State) (i : Instr) (core : CoreId), advances i = some core → Turn s core 1 f →
    (f.pair (pairOfCore core)).gated ≠ [] → exec i s = .next s) ∧
  (∀ (s f : State) (i : Instr) (core : CoreId), advances i = some core → Turn s core 1 f →
    (f.pair (pairOfCore core)).gated = [] →
    ∃ t, exec i s = .next t ∧ OnlyCore f t core ∧ (t.core core).divUnit = (f.core core).divUnit ∧
      Kept (f.core core).arch (t.core core).arch 1 ∧ (t.core core).arch.ps = (f.core core).arch.ps) ∧
  (∀ (s f : State) (i : Instr) (core : CoreId) (l : Nat) (p : TlbEntry → Bool),
    tlbDrops f (f.core core).arch i = some (core, l, p) → Turn s core 1 f → l ≤ (f.core core).arch.level →
    ∃ u t, exec i s = .next t ∧ { u with cores := f.cores } = f ∧
      (∀ c, c < 109 → u.core c = { f.core c with tlb := (f.core c).tlb.filter fun e => !p e }) ∧
      OnlyCore u t core ∧ (t.core core).divUnit = (f.core core).divUnit ∧
      Kept (f.core core).arch (t.core core).arch 1 ∧ (t.core core).arch.ps = (f.core core).arch.ps)

/-- Events and timed waits. -/
def Obligations.EventsAndWaitsFollowEv : Prop :=
  (∀ (s f : State) (i : Instr) (core : CoreId) (e : HeldEvent), sentEvent f i = some (core, e) → Turn s core 1 f →
    ∃ r t, exec i s = .next t ∧ OnlyCore f r core ∧ Kept (f.core core).arch (r.core core).arch 1 ∧
      (r.core core).arch.ps = (f.core core).arch.ps ∧
      (f.isSplit (pairOfCore core) = true → t = r.doEvent e) ∧
      (f.isSplit (pairOfCore core) = false → t = r ∧
        (t.pair (pairOfCore core)).uncommitted.flatMap Window.events =
          (f.pair (pairOfCore core)).uncommitted.flatMap Window.events ++ [e])) ∧
  (∀ (s f : State) (core : CoreId), Turn s core 1 f → MayClose s core →
    let a := (f.core core).arch
    ∃ t, exec (.wfe core) s = .next t ∧ { t with cores := f.cores, pairs := f.pairs } = f ∧
      (∀ c, c ≠ core.val → t.core c = f.core c) ∧ (∀ p, p ≠ pairOfCore core → t.pair p = f.pair p) ∧
      (a.ps.getLsbD 9 = true → OnlyCore f t core ∧ Kept a (t.core core).arch 1 ∧
        ∀ i, i ≠ 12 → i ≠ 13 → (t.core core).arch.ps.getLsbD i = (decide (i ≠ 9) && a.ps.getLsbD i)) ∧
      (a.ps.getLsbD 9 = false → t.core core = { f.core core with wait := .wfe f.now, first := none })) ∧
  (∀ (s f : State) (core : CoreId) (d x : Reg), Turn s core 1 f → MayClose s core →
    let a := (f.core core).arch
    let code := (if (a.gr x).toNat ≤ f.clock.tb.toNat then 1 else 0) + (if a.ps.getLsbD 9 then 2 else 0)
    ∃ t, exec (.waitc core d x) s = .next t ∧ { t with cores := f.cores, pairs := f.pairs } = f ∧
      (∀ c, c ≠ core.val → t.core c = f.core c) ∧ (∀ p, p ≠ pairOfCore core → t.pair p = f.pair p) ∧
      (code ≠ 0 → OnlyCore f t core ∧ Wrote a (t.core core).arch d (BitVec.ofNat 64 code) ∧
        (t.core core).arch.pc = a.pc + 3#64 ∧ Stands a (t.core core).arch ∧ Landed a (t.core core).arch ∧
        ∀ i, i ≠ 12 → i ≠ 13 → (t.core core).arch.ps.getLsbD i = (decide (i ≠ 9) && a.ps.getLsbD i)) ∧
      (code = 0 → t.core core = { f.core core with wait := .waitc d (a.gr x) f.now, first := none })) ∧
  (∀ (s : State) (core : CoreId) (d : Reg) (ga : Word) (since : Nat),
    (s.core core).wait = .waitc d ga since → ga.toNat ≤ s.clock.tb.toNat → (s.core core).clockOff = false →
    MayClose s core → s.takeLine core = none →
    let a := (s.core core).arch
    let now := if a.ps.getLsbD 9 then 3 else 1
    let code := match (s.core core).first with
      | some (k, _) => if k = 4 then now else k
      | none => now
    ∃ t, exec (.waitcTimeReached core) s = .next t ∧ { t with cores := s.cores, pairs := s.pairs } = s ∧
      (∀ c, c ≠ core.val → t.core c = s.core c) ∧ (t.core core).wait = .none ∧
      Wrote a (t.core core).arch d (BitVec.ofNat 64 code) ∧ (t.core core).arch.pc = a.pc + 3#64 ∧
      (∀ i, i ≠ 12 → i ≠ 13 → (t.core core).arch.ps.getLsbD i =
        (decide (¬ (i = 9 ∧ (code = 2 ∨ code = 3))) && a.ps.getLsbD i)) ∧
      Stands a (t.core core).arch ∧ Landed a (t.core core).arch)

/-- The clock of a waiting pair. -/
def Obligations.WaitingClocksStopAndWake : Prop :=
  (∀ (s : State) (core : CoreId) (since : Nat) (wake : Option Word),
    core.val < 104 → s.executes core = true →
    (s.isSplit (pairOfCore core) = true ∨
      ((s.pair (pairOfCore core)).closed = [] ∧ (s.pair (pairOfCore core)).opened.isEmpty = true)) →
    (s.cell (s.cellOfCore core)).manual = false → s.holdsOf (s.cellOfCore core) = 0 →
    let delay := ((s.core core).arch.kr 28).toNat
    delay ≤ 10 * (s.now - since) →
    ((s.core core).wait = .wfe since ∧ wake = none ∨
      ∃ d ga, (s.core core).wait = .waitc d ga since ∧ s.clock.tb.toNat + delay + 1500 ≤ ga.toNat ∧
        wake = some (ga - 1500#64)) →
    ∃ t, exec (.clockStopIdle core) s = .next t ∧ { t with cores := s.cores, cells := s.cells } = s ∧
      t.core core = { s.core core with clockOff := true, wakeAt := wake } ∧
      (∀ c, c ≠ core.val → t.core c = s.core c) ∧ t.cst (s.cellOfCore core) = .asleep ∧
      ∀ c, c ≠ s.cellOfCore core → t.cell c = s.cell c) ∧
  (∀ (s : State) (core : CoreId) (at_ : Word),
    (s.core core).wakeAt = some at_ → (s.core core).clockOff = true → at_.toNat ≤ s.clock.tb.toNat →
    ∃ t, exec (.waitcScheduledWake core) s = .next t ∧ { t with cells := s.cells } = s ∧
      t.cell (s.cellOfCore core) = { s.cell (s.cellOfCore core) with waking := true } ∧
      ∀ c, c ≠ s.cellOfCore core → t.cell c = s.cell c)

/-- The floating arithmetic. -/
def Obligations.FloatingArithmeticRoundsAndFlags : Prop :=
  ∀ (s f : State) (i : Instr) (core : CoreId) (len : Nat) (d : Reg) (res : Arch → FRes),
    floatResult i = some (core, len, d, res) → core.val < 104 → Turn s core len f →
    let a := (f.core core).arch
    noTrap a (res a).2 →
    ∃ t, exec i s = .next t ∧ OnlyCore f t core ∧
      let b := (t.core core).arch
      (∀ r, b.fr r = if r = d then BitVec.ofNat 128 (res a).1 else a.fr r) ∧
      b.fs = a.fs ||| BitVec.ofNat 64 (raised a (res a).2) ∧ (∀ r, b.gr r = a.gr r) ∧ b.ps = a.ps ∧ b.k = a.k ∧
      b.pc = a.pc + BitVec.ofNat 64 (3 * len) ∧
      (usesDivide i = true → ∃ plan, (t.core core).divUnit = some ⟨none, plan⟩ ∧ Landed (f.core core).finish.arch b) ∧
      (usesDivide i = false → (t.core core).divUnit = (f.core core).divUnit ∧ Landed a b)

/-- The floating moves. -/
def Obligations.FloatingMovesKeepTheirBits : Prop :=
  (∀ (s f : State) (i : Instr) (core : CoreId) (d : Reg) (v : Arch → Nat),
    floatMoved i = some (core, d, v) → core.val < 104 → Turn s core 1 f →
    let a := (f.core core).arch
    ∃ t, exec i s = .next t ∧ OnlyCore f t core ∧ (t.core core).divUnit = (f.core core).divUnit ∧
      let b := (t.core core).arch
      (∀ r, b.fr r = if r = d then BitVec.ofNat 128 (v a) else a.fr r) ∧ b.fs = a.fs ∧ (∀ r, b.gr r = a.gr r) ∧
      b.ps = a.ps ∧ b.k = a.k ∧ b.pc = a.pc + 3#64 ∧ Landed a b) ∧
  (∀ (s f : State) (i : Instr) (core : CoreId) (d : Reg) (v : Arch → Nat),
    toGeneral i = some (core, d, v) → core.val < 104 → Turn s core 1 f →
    ∃ t, exec i s = .next t ∧ OnlyCore f t core ∧ (t.core core).divUnit = (f.core core).divUnit ∧
      WroteG (f.core core).arch (t.core core).arch d (BitVec.ofNat 64 (v (f.core core).arch)) 1) ∧
  (∀ (s f : State) (core : CoreId) (a : Reg), core.val < 104 → Turn s core 1 f →
    let x := (f.core core).arch
    (x.gr a).toNat / 256 % 8 < 5 →
    ∃ t, exec (.mtfs core a) s = .next t ∧ OnlyCore f t core ∧ (t.core core).divUnit = (f.core core).divUnit ∧
      let b := (t.core core).arch
      b.fs = x.gr a &&& 0xF1F#64 ∧ b.f = x.f ∧ (∀ r, b.gr r = x.gr r) ∧ b.ps = x.ps ∧ b.k = x.k ∧
      b.pc = x.pc + 3#64 ∧ Landed x b) ∧
  (∀ (s f : State) (core : CoreId) (fmt : FFmt) (a b : Reg), core.val < 104 → Turn s core 1 f →
    let x := (f.core core).arch
    let u := x.fv fmt a
    let v := x.fv fmt b
    let nv := u.signals (fmtOf fmt) || v.signals (fmtOf fmt)
    noTrap x { nv := nv } →
    ∃ t, exec (.fcmp core fmt a b) s = .next t ∧ OnlyCore f t core ∧ (t.core core).divUnit = (f.core core).divUnit ∧
      let y := (t.core core).arch
      y.fs = x.fs ||| (if nv then 0x10#64 else 0) ∧ y.f = x.f ∧ (∀ r, y.gr r = x.gr r) ∧ y.k = x.k ∧
      y.pc = x.pc + 3#64 ∧ Landed x y ∧
      if u.isNan || v.isNan then FlagsAre x y true false false true
      else FlagsAre x y (decide (cmpV u v = .lt)) (decide (cmpV u v = .eq)) false false) ∧
  (∀ (s f : State) (core : CoreId) (d a : Reg) (src dst : BitVec 4) (m : FFmt),
    kindFmt src.toNat = some m → dst ∈ [0, 1, 8, 9] → core.val < 104 → Turn s core 1 f →
    let x := (f.core core).arch
    let r := toInt (fmtOf m) (if 8 ≤ dst.toNat then 1 else x.rm) (dst.toNat % 2 == 1) (x.fbits m a)
    noTrap x r.2 →
    ∃ t, exec (.fcvt core d a src dst) s = .next t ∧ OnlyCore f t core ∧
      (t.core core).divUnit = (f.core core).divUnit ∧
      let b := (t.core core).arch
      Wrote x b d (BitVec.ofNat 64 r.1) ∧ b.fs = x.fs ||| BitVec.ofNat 64 (raised x r.2) ∧ b.f = x.f ∧ b.ps = x.ps ∧
      b.k = x.k ∧ b.pc = x.pc + 3#64 ∧ Landed x b)

/-- The life of a window. -/
def Obligations.WindowsCloseCommitAndRollBack : Prop :=
  (∀ (s : State) (p : PairId), s.checks p = true → (s.pair p).failing = none → (s.pair p).opened.isEmpty = false →
    (s.pair p).closed.length < 2 →
    ∃ t, exec (.windowCycleLimit p) s = .next t ∧ OnlyPair s t p ∧
      t.pair p = { s.pair p with
        closed := (s.pair p).closed ++
          [{ (s.pair p).opened with endArch := some (s.core (leaderOf p)).finish.arch }]
        opened := Window.empty ((s.pair p).opened.number + 1), ccLeft := (s.pair p).ccLeft - 1 }) ∧
  (∀ (s : State) (p : PairId), s.checks p = true → (s.pair p).failing = none → (s.pair p).opened.isEmpty = true →
    ∃ t, exec (.windowCycleLimit p) s = .next t ∧ OnlyPair s t p ∧
      t.pair p = { s.pair p with opened := { (s.pair p).opened with number := (s.pair p).opened.number + 1 }
                                 ccLeft := (s.pair p).ccLeft - 1 }) ∧
  (∀ (s : State) (p : PairId) (w : Window) (rest : List Window), s.checks p = true → (s.pair p).closed = w :: rest →
    ((s.pair p).mode = 2 ∨ (s.pair p).forced = false) → w.pop = none → w.events = [] → (s.pair p).owed = false →
    (s.pair p).failing = none → (∀ j ∈ s.caches.jobs, j.begins p = j) →
    (s.core (leaderOf p)).wait = .none → (s.pair p).job = none → s.cst (cellOfPair p) ≠ .draining →
    ∃ t, exec (.windowCompare p 1) s = .next t ∧ (∀ q, q ≠ p.val → t.pair q = s.pair q) ∧
      { t with pairs := s.pairs, caches := { t.caches with l1i := s.caches.l1i, l1d := s.caches.l1d } } = s ∧
      t.pair p = { s.pair p with
        closed := rest, committed := (s.pair p).committed ++ w.stores, ckpt := w.endArch.getD (s.pair p).ckpt
        ckptLost := false, failRun := 0 }) ∧
  (∀ (s : State) (p : PairId), s.checks p = true → (s.pair p).closed ≠ [] → (s.pair p).mode ≠ 2 →
    (s.pair p).failRun < 2 → (s.pair p).ckptLost = false → (∀ w ∈ (s.pair p).uncommitted, w.pop = none) →
    ∃ t, exec (.windowCompare p 2) s = .next t ∧ RolledBack s t p ∧ (t.pair p).mismatch = true ∧
      (t.pair p).failRun = (s.pair p).failRun + 1 ∧ (t.pair p).restarting = true ∧
      (t.pair p).retries.toNat = min 0xFFFF ((s.pair p).retries.toNat + 1) ∧
      (t.pair p).ccLeft = (if (s.pair p).busDead then 0 else 17) ∧ (t.pair p).owed = true ∧ t.mem = s.mem) ∧
  (∀ (s : State) (p : PairId), ∃ t, exec (.pairRestartComplete p) s = .next t ∧ OnlyPair s t p ∧
      t.pair p = { s.pair p with restarting := false }) ∧
  (∀ (s : State) (p : PairId), (s.pair p).committed = [] → exec (.gatedStoreRelease p) s = .next s) ∧
  (∀ (s : State) (p : PairId) (g : GStore) (rest : List GStore), (s.pair p).committed = g :: rest →
    let u := (s.modPair p fun x => { x with committed := rest }).performStore (leaderOf p) g
    (s.acceptsStore p g = false → ∃ t, exec (.gatedStoreRelease p) s = .next t ∧ { t with cells := s.cells } = s) ∧
    (s.acceptsStore p g = true → s.overPins u = true → exec (.gatedStoreRelease p) s = .next s) ∧
    (s.acceptsStore p g = true → s.overPins u = false →
      ((u.pair p).committed = [] → exec (.gatedStoreRelease p) s = .next u) ∧
      (∀ h more, (u.pair p).committed = h :: more → u.acceptsStore p h = true →
        let v := (u.modPair p fun x => { x with committed := more }).performStore (leaderOf p) h
        u.overPins v = false → exec (.gatedStoreRelease p) s = .next v)))

/-- Faults in the checking hardware. -/
def Obligations.CheckingHardwareFaultsAreCounted : Prop :=
  (∀ (s : State) (p : PairId) (cycle : BitVec 16) (field : BitVec 4) (w : Window) (rest : List Window),
    s.checks p = true → (s.pair p).busDead = false → (0 < (s.pair p).ccLeft ∨ (s.pair p).mode = 2) →
    (s.pair p).closed = w :: rest → w.number < (s.pair p).opened.number → (s.pair p).failing = none →
    ∃ t, exec (.busCompareDifference p cycle field) s = .next t ∧ OnlyPair s t p ∧
      t.pair p = { s.pair p with
        loc := (t.pair p).loc, localised := satAdd (s.pair p).localised 1, mismatch := true
        failing := some ((s.pair p).opened.number, true) }) ∧
  (∀ (s : State) (p : PairId) (cycle : BitVec 16) (field : BitVec 4), s.checks p = true →
    (s.pair p).busDead = false → (0 < (s.pair p).ccLeft ∨ (s.pair p).mode = 2) → (s.pair p).failRun < 2 →
    (s.pair p).ckptLost = false → (s.pair p).closed = [] → (s.pair p).opened.pop = none →
    ∃ t, exec (.busCompareDifference p cycle field) s = .next t ∧ RolledBack s t p ∧
      (t.pair p).loc.extractLsb' 0 16 = cycle ∧ (t.pair p).loc.extractLsb' 16 4 = field ∧
      (t.pair p).loc.extractLsb' 20 12 = 0 ∧
      (t.pair p).loc.extractLsb' 32 32 = BitVec.ofNat 32 (s.pair p).opened.number ∧
      (t.pair p).localised.toNat = min 0xFFFF ((s.pair p).localised.toNat + 1) ∧
      (t.pair p).failRun = (s.pair p).failRun + 1 ∧ (t.pair p).restarting = true) ∧
  (∀ (s : State) (p : PairId), ∃ t, exec (.buscmpSelfTest p true) s = .next t ∧ OnlyPair s t p ∧
      t.pair p = { s.pair p with testBit := (s.pair p).testBit + 1 }) ∧
  (∀ (s : State) (p : PairId), s.checks p = true → (s.pair p).mode ≠ 2 →
    ∃ t, exec (.buscmpSelfTest p false) s = .next t ∧ (t.pair p).buscmpFailed = true ∧
      (t.pair p).busDead = true ∧ (t.pair p).ccLeft = 0 ∧
      (t.rep (reporterOf (cellOfPair p) 2)).fault = true ∧
      { t with pairs := s.pairs, tansy := s.tansy } = s ∧ ∀ q, q ≠ p.val → t.pair q = s.pair q) ∧
  (∀ (s : State) (p : PairId), ∃ t, exec (.delayRegisterError p true) s = .next t ∧
      (t.rep (reporterOf (cellOfPair p) 0)).fault = true ∧ { t with pairs := s.pairs, tansy := s.tansy } = s ∧
      (∀ q, q ≠ p.val → t.pair q = s.pair q) ∧
      (t.pair p).delayCe.toNat = min 0xFFFF ((s.pair p).delayCe.toNat + 1) ∧
      { t.pair p with delayCe := (s.pair p).delayCe } = s.pair p) ∧
  (∀ (s : State) (p : PairId), s.checks p = true → (s.pair p).failRun < 2 → (s.pair p).ckptLost = false →
    (s.pair p).closed = [] → (s.pair p).opened.pop = none →
    ∃ t, exec (.delayRegisterError p false) s = .next t ∧ RolledBack s t p ∧ (t.pair p).delayUe = true ∧
      (t.pair p).failRun = (s.pair p).failRun + 1 ∧ (t.pair p).restarting = true) ∧
  (∀ (s : State) (p : PairId), ∃ t, exec (.checkpointArrayError p true) s = .next t ∧
      (t.rep (reporterOf (cellOfPair p) 0)).fault = true ∧ { t with pairs := s.pairs, tansy := s.tansy } = s ∧
      (∀ q, q ≠ p.val → t.pair q = s.pair q) ∧
      (t.pair p).ckptCe.toNat = min 0xFFFF ((s.pair p).ckptCe.toNat + 1) ∧
      { t.pair p with ckptCe := (s.pair p).ckptCe } = s.pair p) ∧
  (∀ (s : State) (p : PairId), (s.pair p).restarting = false → (s.pair p).job = none →
    ∃ t, exec (.checkpointArrayError p false) s = .next t ∧ (t.pair p).ckptUe = true ∧
      (t.rep (reporterOf (cellOfPair p) 1)).fault = true ∧ { t with pairs := s.pairs, tansy := s.tansy } = s ∧
      ∀ q, q ≠ p.val → t.pair q = s.pair q) ∧
  (∀ (s : State) (p : PairId) (q : Nat), p.val < 52 → s.checks p = true → (s.pair p).closed ≠ [] →
    (s.pair p).mode ≠ 2 → (s.pair p).failRun = 2 → (s.pair p).ckptLost = false → (s.pair p).job = none →
    s.spareOf p = some q → (∀ w ∈ (s.pair p).uncommitted, w.pop = none) →
    ∃ t, exec (.windowCompare p 2) s = .next t ∧ (t.pair p).hardFailed = true ∧ (t.pair p).mismatch = true ∧
      (t.pair p).ckpt = (s.pair p).ckpt ∧ t.cst (cellOfPair p) = .faulted ∧
      (t.rep (reporterOf (cellOfPair p) 2)).fault = true ∧ (t.pair p).job = some (.spare q none) ∧
      t.spareOf p = none) ∧
  (∀ (s : State) (p : PairId), s.checks p = true → (s.pair p).closed ≠ [] → (s.pair p).mode ≠ 2 →
    (s.pair p).failRun < 2 → (s.pair p).ckptLost = true → (s.pair p).job = none →
    (∀ w ∈ (s.pair p).uncommitted, w.pop = none) →
    ∃ t, exec (.windowCompare p 2) s = .next t ∧ t.cst (cellOfPair p) = .faulted ∧ (t.pair p).restarting = false ∧
      (t.pair p).mismatch = true ∧ (t.rep (reporterOf (cellOfPair p) 3)).fault = true ∧ t.spares = s.spares)

/-- The pair commands. -/
def Obligations.PairCommandsBeginTheirHandOvers : Prop :=
  (∀ (s : State) (pk : Pkt) (c : Nat) (bs : Bytes) (v : State),
    Admitted opSplit pk c s →
    let p := cellIndex c
    let part := numAt pk.params 8 1
    let num := numAt pk.params 9 1
    let ways := numAt pk.params 10 1
    allZero (slice pk.params 11 5) = true → numAt pk.params 0 8 % 256 = 0 → part ≤ 63 → num ≤ 95 → ways ≤ 15 →
    s.isSpare p = false → s.isSplit p = false → s.runs c = true → (s.pair p).job = none →
    (∀ q ∈ s.procsOf part, q.num ≠ num) → (s.procsOf part).length < s.procsMax part →
    s.readPart part (numAt pk.params 0 8) 1152 = some (bs, v) → areaOk bs = true →
    ∃ u t, exec (.split pk) s = .next t ∧ Answered s u t pk 0x0100 1 [] ∧
      u.pair p = { (s.toBoundary p).pair p with
        job := some (.split part num (if ways = 0 then 8 else ways) (numAt pk.params 0 8) (askerOf 0x0100 pk)) } ∧
      u.parts.procs = s.parts.procs ++ [{ core := 2 * p + 1, part := part, num := num, whole := false }] ∧
      { u with pairs := s.pairs, parts := { u.parts with procs := s.parts.procs } } = s ∧
      ∀ q, q ≠ p → u.pair q = s.pair q) ∧
  (∀ (s : State) (pk : Pkt) (c : Nat), Admitted opJoin pk c s →
    let p := cellIndex c
    let part := s.partOfCore (2 * p + 1)
    allZero (slice pk.params 8 8) = true → numAt pk.params 0 8 % 256 = 0 → s.isSpare p = false → s.isSplit p = true →
    s.runs c = true → (s.pair p).job = none → (s.partRange part (numAt pk.params 0 8) 1152 .write).isSome = true →
    ∃ u t, exec (.join pk) s = .next t ∧ Answered s u t pk 0x0101 1 [] ∧ OnlyPair s u p ∧
      u.pair p = { s.pair p with job := some (.join part (numAt pk.params 0 8)
        { ring := pk.ring, tag := pk.tag, op := 0x0101, partition := pk.partition }) }) ∧
  (∀ (s : State) (pk : Pkt) (c q : Nat), Admitted opSpare pk c s → cellKind c = 1 →
    let p := cellIndex c
    p < 52 → s.isSplit p = false → s.spareOf p = some q → q ≠ p → (s.pair p).job = none →
    (s.runs c = true ∨ s.cst c = .faulted ∧ (s.pair p).ckptLost = false ∧ (s.pair p).sparedOut = false) →
    ∃ u t, exec (.spare pk) s = .next t ∧ Answered s u t pk 0x0102 1 [] ∧
      u.pair p = { (s.toBoundary p).pair p with job := some (.spare q (some (askerOf 0x0102 pk))) } ∧
      u.spareOf p = none ∧ { u with pairs := s.pairs, spares := s.spares } = s ∧ ∀ j, j ≠ p → u.pair j = s.pair j) ∧
  (∀ (s : State) (pk : Pkt) (c : Nat), Admitted opInject pk c s →
    let p := pairOfCell c
    let w := (wordAt pk.params 0).toNat
    w ≤ 2 → s.isSpare p = false → s.isSplit p = false → s.runs c = true →
    ∃ u t, exec (.inject pk) s = .next t ∧ Answered s u t pk 0x0103 0 [] ∧
      (w = 2 → (u.pair p).delayUe = true) ∧
      (w = 0 → OnlyPair s u p ∧ u.pair p = { s.pair p with injected := some ((s.pair p).opened.number + 1) }) ∧
      (w = 1 → (u.rep (reporterOf (cellOfPair p) 0)).fault = true ∧ { u with pairs := s.pairs, tansy := s.tansy } = s ∧
        (∀ q, q ≠ p → u.pair q = s.pair q) ∧ (u.pair p).delayCe.toNat = min 0xFFFF ((s.pair p).delayCe.toNat + 1) ∧
        { u.pair p with delayCe := (s.pair p).delayCe } = s.pair p))

/-- The ends of the hand-overs. -/
def Obligations.HandOversFinishAtRest : Prop :=
  (∀ (s v : State) (p : PairId) (part num ways area : Nat) (who : Asker) (bs : Bytes),
    p.val < 52 → (s.pair p).job = some (.split part num ways area who) → s.atRest p = true →
    s.readArea part area = (some (some bs), v) →
    ((v.emptyWays p fun w => decide (16 - ways ≤ w)).holdsL2 p fun w => decide (16 - ways ≤ w)) = false →
    ∃ t, exec (.splitComplete p) s = .next t ∧ (t.pair p).mode = 1 ∧ (t.pair p).job = none ∧
      (t.pair p).shadowWays = BitVec.ofNat 4 ways ∧ (t.core (leaderOf p + 1)).arch = areaArch bs ∧
      t.core (leaderOf p) = s.core (leaderOf p) ∧
      t.cst (cellNo 2 (leaderOf p)) = (if (s.core (leaderOf p)).clockOff then .asleep else .running) ∧
      t.cst (cellNo 2 (leaderOf p + 1)) = .running ∧ Posted s t who 0 []) ∧
  (∀ (s v : State) (p : PairId) (part area : Nat) (who : Asker),
    p.val < 52 → (s.pair p).job = some (.join part area who) →
    let sh := (s.pair p).shadowWays.toNat
    s.writeArea part area (dieOfPair p) (areaBytes s (leaderOf p + 1)) = (some true, v) →
    ((v.emptyWays p fun w => decide (16 - sh ≤ w)).holdsL2 p fun w => decide (16 - sh ≤ w)) = false →
    (∀ n, (s.port n).msiWaits = []) →
    ∃ t, exec (.joinComplete p) s = .next t ∧
      (t.pair p).mode = (if (s.pair p).cloveDead then 2 else 0) ∧ (t.pair p).ckptLost = false ∧ (t.pair p).job = none ∧
      (t.pair p).ckpt = (s.core (leaderOf p)).finish.arch ∧ (t.core (leaderOf p)).arch = (t.pair p).ckpt ∧
      (t.pair p).ccLeft = (if (s.pair p).busDead then 0 else 17) ∧ (t.pair p).closed = [] ∧
      t.cst (cellOfPair p) = s.cst (cellNo 2 (leaderOf p)) ∧
      (∀ q ∈ t.parts.procs, q.core ≠ leaderOf p + 1) ∧ Posted s t who 0 []) ∧
  (∀ (s : State) (p : PairId) (q : Nat) (who : Asker),
    p.val < 52 → q < 52 → q ≠ p.val → (s.pair p).job = some (.spare q (some who)) →
    (s.cst (cellOfPair p) = .faulted ∧ (s.pair p).committed = [] ∨
      s.atRest p = true ∧ (s.cell (cellOfPair p)).stops = []) → (s.pair p).ckptLost = false →
    ((s.emptyWays p fun _ => true).holdsL2 p fun _ => true) = false →
    ∃ t, exec (.spareHandover p) s = .next t ∧ (t.pair q).sparedIn = true ∧
      (t.core (leaderOf q)).arch = { (s.pair p).ckpt with
        ps := (s.pair p).ckpt.ps ||| (if (s.pair p).uncommitted.any Window.ev then 0x200#64 else 0) } ∧
      (t.pair q).ckpt = (t.core (leaderOf q)).arch ∧ (t.pair q).ckptLost = false ∧
      (t.pair q).ccLeft = (if (s.pair q).busDead then 0 else 17) ∧
      t.cst (cellOfPair q) = .running ∧ t.cst (cellOfPair p) = .stopped ∧ (t.pair p).job = none ∧
      t.parts.procs = s.parts.procs.map (fun x => if x.core = leaderOf p then { x with core := leaderOf q } else x) ∧
      Posted s t who 0 []) ∧
  (∀ (s : State) (p : PairId) (q : Nat) (who : Asker),
    p.val < 52 → (s.pair p).job = some (.spare q (some who)) → s.atRest p = true → (s.cell (cellOfPair p)).stops = [] →
    (s.pair p).ckptLost = true →
    ∃ t, exec (.spareHandover p) s = .next t ∧ t.cst (cellOfPair p) = .faulted ∧ (t.pair p).job = none ∧
      t.spareOf p = some q ∧ (t.rep (reporterOf (cellOfPair p) 3)).fault = true ∧ Posted s t who 0x0503 [])

/-- The commands of the caches. -/
def Obligations.CacheCommandsAreAccepted : Prop :=
  (∀ (s : State) (pk : Pkt) (c : Nat) (k : Fin 3),
    Admitted (if k = 0 then opCleanRange else if k = 1 then opFlushRange else opInvalRange) pk c s →
    let base := numAt pk.params 0 8
    let len := numAt pk.params 8 8
    let levels := numAt pk.params 16 1
    let part := partOfCell c
    allZero (slice pk.params 17 7) = true → base % 256 = 0 → len % 256 = 0 → len ≠ 0 → levels ≤ 1 →
    (s.cellRange part base len).isSome = true →
    ∃ u t, exec (if k = 0 then .cleanRange pk else if k = 1 then .flushRange pk else .invalRange pk) s = .next t ∧
      Answered s u t pk (0x0200 + k.val) 1 [] ∧
      AddsCacheJob s u (.range (BitVec.ofNat 16 (0x0200 + k.val)) base len levels part (askerOf (0x0200 + k.val) pk))) ∧
  (∀ (s : State) (pk : Pkt) (c : Nat), Admitted opLockWays pk c s →
    let mask := BitVec.ofNat 32 (numAt pk.params 0 4)
    let owner := numAt pk.params 4 4
    let base := numAt pk.params 8 8
    let len := numAt pk.params 16 8
    let flags := numAt pk.params 24 1
    allZero (slice pk.params 25 7) = true → mask &&& s.lockedWays = 0 → mask ≠ 0 → flags ≤ 1 →
    lockOwner owner = true → base % 2 ^ 24 = 0 → len % 2 ^ 24 = 0 → len ≠ 0 → len ≤ 2 ^ 24 * (waysIn mask).length →
    (∀ w ∈ waysIn mask, wayOff s w = false) → (waysIn (mask ||| s.lockedWays)).length ≤ 8 →
    ∃ u t, exec (.lockWays pk) s = .next t ∧ Answered s u t pk 0x0203 1 [] ∧
      AddsCacheJob s u (.lock { mask := mask, owner := owner, base := base, len := len } (decide (flags = 1))
        (askerOf 0x0203 pk))) ∧
  (∀ (s : State) (pk : Pkt) (c : Nat), Admitted opUnlockWays pk c s → (wordAt pk.params 0).toNat < 2 ^ 32 →
    ∃ u t, exec (.unlockWays pk) s = .next t ∧ Answered s u t pk 0x0204 0 [] ∧
      { u with caches := { u.caches with locks := s.caches.locks } } = s ∧
      (∀ k ∈ u.caches.locks, k.mask ≠ 0 ∧ k.mask &&& (wordAt pk.params 0).setWidth 32 = 0) ∧
      ∀ k ∈ s.caches.locks, k.mask ≠ 0 → k.mask &&& (wordAt pk.params 0).setWidth 32 = 0 → k ∈ u.caches.locks) ∧
  (∀ (s : State) (pk : Pkt) (c : Nat), Admitted opRegionSet pk c s →
    let e := numAt pk.params 0 1
    let a : Byte := pk.params.getD 1 0
    let base := numAt pk.params 8 8
    let limit := numAt pk.params 16 8
    allZero (slice pk.params 2 6) = true → e ≤ 63 → a.getLsbD 5 = false → a.getLsbD 6 = false →
    ¬ (a.getLsbD 0 = true ∧ a.getLsbD 1 = true) → base % 2 ^ 21 = 0 → limit % 2 ^ 21 = 0 → base ≤ limit →
    limit < 2 ^ 52 →
    ∃ u t, exec (.regionSet pk) s = .next t ∧ Answered s u t pk 0x0205 1 [] ∧
      AddsCacheJob s u (.region e
        { valid := a.getLsbD 7, base := base / 2 ^ 21, limit := limit / 2 ^ 21, policy := a.setWidth 2
          allocR := a.getLsbD 2, allocW := a.getLsbD 3, stream := a.getLsbD 4 } (askerOf 0x0205 pk))) ∧
  (∀ (s : State) (pk : Pkt) (c : Nat), Admitted opWaysOff pk c s → c = cellModule →
    let m := BitVec.ofNat 8 (wordAt pk.params 0).toNat
    (wordAt pk.params 0).toNat < 256 → m.getLsbD 0 = false → groupLocked s.lockedWays m = false →
    ∃ u t, exec (.waysOff pk) s = .next t ∧ Answered s u t pk 0x0206 1 [] ∧
      u.caches.jobs = s.caches.jobs ++ [.waysOff [0, 1, 2, 3] m (askerOf 0x0206 pk)] ∧
      (∀ d, d < 4 → (u.slice d).cleaning = (s.slice d).cleaning ||| (m &&& (s.slice d).groupOn) ∧
        (u.slice d).groupOn = (s.slice d).groupOn) ∧
      { u with caches := { u.caches with jobs := s.caches.jobs, slices := s.caches.slices } } = s) ∧
  (∀ (s : State) (pk : Pkt) (c : Nat), Admitted opWaysOn pk c s → (wordAt pk.params 0).toNat < 256 →
    ∃ u t, exec (.waysOn pk) s = .next t ∧ Answered s u t pk 0x0207 1 [] ∧
      AddsCacheJob s u (.waysOn (slicesOf c) (BitVec.ofNat 8 (wordAt pk.params 0).toNat) (askerOf 0x0207 pk))) ∧
  (∀ (s : State) (pk : Pkt) (c : Nat), Admitted opCacheDisable pk c s → (wordAt pk.params 0).toNat < 8 →
    ∃ u t, exec (.cacheDisable pk) s = .next t ∧ Answered s u t pk 0x0208 1 [] ∧
      let p := cellIndex c
      let m := wordAt pk.params 0
      let now := s.atBoundary p
      u.caches.jobs = s.caches.jobs ++ [.disable p (m.setWidth 3) now (askerOf 0x0208 pk)] ∧
      (now = false → u.pairs = s.pairs) ∧
      (now = true → u.pair p = { (s.toBoundary p).pair p with
        l1iOn := (s.pair p).l1iOn && !m.getLsbD 0 && !m.getLsbD 2
        l1dOn := (s.pair p).l1dOn && !m.getLsbD 1 && !m.getLsbD 2
        l2State := if m.getLsbD 2 ∧ (s.pair p).l2State = 0 then 1 else (s.pair p).l2State }) ∧
      (∀ q, q ≠ p → u.pair q = s.pair q) ∧
      { u with pairs := s.pairs
               caches := { u.caches with jobs := s.caches.jobs, l1i := s.caches.l1i, l1d := s.caches.l1d } } = s) ∧
  (∀ (s : State) (pk : Pkt) (c : Nat), Admitted opCacheEnable pk c s → (wordAt pk.params 0).toNat < 8 →
    let p := cellIndex c
    let m := wordAt pk.params 0
    (m.getLsbD 0 = true ∨ m.getLsbD 1 = true → (s.pair p).l2State = 0) →
    ∃ u t, exec (.cacheEnable pk) s = .next t ∧ Answered s u t pk 0x0209 0 [] ∧ OnlyPair s u p ∧
      u.pair p = { s.pair p with
        l1iOn := (s.pair p).l1iOn || m.getLsbD 0, l1dOn := (s.pair p).l1dOn || m.getLsbD 1
        l2State := if m.getLsbD 2 then 0 else (s.pair p).l2State }) ∧
  (∀ (s : State) (pk : Pkt) (c dist : Nat) (on : Bool), Admitted opPrefetchSet pk c s → cellKind c = 1 → dist ≤ 8 →
    wordAt pk.params 0 = BitVec.ofNat 64 (256 * dist + (if on then 1 else 0)) →
    ∃ u t, exec (.prefetchSet pk) s = .next t ∧ Answered s u t pk 0x020A 0 [] ∧ OnlyPair s u (cellIndex c) ∧
      u.pair (cellIndex c) = { s.pair (cellIndex c) with pfOn := on, pfDist := BitVec.ofNat 4 dist })

/-- The ends of the operations of the caches. -/
def Obligations.CacheOperationsComplete : Prop :=
  (∀ (s v : State) (job : Nat) (op : BitVec 16) (base len levels : Nat) (part : Option Nat) (who : Asker),
    s.takeCacheJob job = some (.range op base len levels part who, v) →
    v.rangeWaits op levels ((v.cellRange part base len).getD []) = false →
    let r := v.rangeOp op.toNat levels ((v.cellRange part base len).getD [])
    v.overPins r.1 = false →
    ∃ t, exec (.rangeOpComplete job) s = .next t ∧ { t with rings := r.1.rings } = r.1 ∧
      Posted r.1 t who 0 (beBytes 4 r.2.written ++ beBytes 4 r.2.dropped ++ beBytes 4 r.2.locked ++ zeros 4)) ∧
  (∀ (s v : State) (job : Nat) (l : WayLock) (who : Asker), s.takeCacheJob job = some (.lock l false who, v) →
    ∃ t, exec (.lockWaysComplete job) s = .next t ∧ t.caches.locks = s.caches.locks ++ [l] ∧ Posted s t who 0 [] ∧
      { t with rings := s.rings, caches := { t.caches with locks := s.caches.locks } } = v) ∧
  (∀ (s v : State) (job e : Nat) (new : Region) (who : Asker),
    s.takeCacheJob job = some (.region e new who, v) →
    ∃ t, exec (.regionSetComplete job) s = .next t ∧ ((∀ l, s.isDirty l = false) → t ≠ s) ∧
      (t ≠ s → Posted s t who 0 [] ∧
        ∀ j, tabGet Region.reset t.caches.regions j = if j = e then new else tabGet Region.reset s.caches.regions j)) ∧
  (∀ (s v : State) (job : Nat) (ds : List Nat) (m : BitVec 8) (who : Asker),
    s.takeCacheJob job = some (.waysOn ds m who, v) →
    ∃ t, exec (.waysOnComplete job) s = .next t ∧ Posted s t who 0 [] ∧
      (∀ d, (t.slice d).groupOn = if d ∈ ds then (s.slice d).groupOn ||| m else (s.slice d).groupOn) ∧
      { t with rings := s.rings, caches := { t.caches with slices := s.caches.slices } } = v) ∧
  (∀ (s v : State) (job : Nat) (ds : List Nat) (m : BitVec 8) (who : Asker),
    s.takeCacheJob job = some (.waysOff ds m who, v) → s.caches.slice = [] →
    ∃ t, exec (.waysOffComplete job) s = .next t ∧ Posted s t who 0 [] ∧
      (∀ d, d ∈ ds → (t.slice d).groupOn = (s.slice d).groupOn &&& ~~~m ∧
        (t.slice d).cleaning = (s.slice d).cleaning &&& ~~~m) ∧
      { t with rings := s.rings, caches := { t.caches with slices := s.caches.slices } } = v) ∧
  (∀ (s v : State) (job p : Nat) (m : BitVec 3) (begun : Bool) (who : Asker), p < 52 →
    s.takeCacheJob job = some (.disable p m begun who, v) →
    (begun = false → s.atBoundary p = false → exec (.cacheDisableComplete job) s = .next s) ∧
    (begun = false → s.atBoundary p = true →
      ∃ t, exec (.cacheDisableComplete job) s = .next t ∧ t.caches.jobs = s.caches.jobs.map (CacheJob.begins p) ∧
        (m.getLsbD 0 = true ∨ m.getLsbD 2 = true → (t.pair p).l1iOn = false) ∧
        (m.getLsbD 1 = true ∨ m.getLsbD 2 = true → (t.pair p).l1dOn = false) ∧
        (m.getLsbD 2 = true → (t.pair p).l2State ≠ 0) ∧ (∀ q, q ≠ p → t.pair q = s.pair q) ∧ t.rings = s.rings) ∧
    (begun = true → (m.getLsbD 2 = true → ((v.emptyWays p fun _ => true).holdsL2 p fun _ => true) = false) →
      ∃ t, exec (.cacheDisableComplete job) s = .next t ∧ Posted s t who 0 [] ∧
        t.pair p = { s.pair p with
          l2State := if m.getLsbD 2 ∧ (s.pair p).l2State = 1 then 2 else (s.pair p).l2State } ∧
        ∀ q, q ≠ p → t.pair q = s.pair q)) ∧
  (∀ (s : State) (d : Fin 4), s.cst (cellNo 3 d) = .draining → s.caches.slice = [] → s.pinsOf d ≠ 0 →
    exec (.sliceDrainComplete d) s = .next s) ∧
  (∀ (s : State) (d : Fin 4), s.cst (cellNo 3 d) = .draining → s.caches.slice = [] → s.pinsOf d = 0 →
    ∃ t, exec (.sliceDrainComplete d) s = .next t ∧ t.cst (cellNo 3 d) = .stopped ∧ t.caches = s.caches ∧
      t.mem = s.mem) ∧
  (∀ (s : State) (i : Instr), (∃ p k, i = .stridePrefetch p k) ∨ (∃ d r p, i = .dmaStreamPrefetch d r p) →
    ∃ t, exec i s = .next t ∧
      { t with cells := s.cells, caches := s.caches, mem := s.mem, sources := s.sources, tansy := s.tansy } = s)

/-- The commands of main memory. -/
def Obligations.MemoryCommandsAreAnswered : Prop :=
  (∀ (s : State) (pk : Pkt) (c : Nat), Admitted opGranuleKey pk c s →
    let w := (wordAt pk.params 0).toNat
    let g := w % 2 ^ 16
    let key := w / 2 ^ 16
    key ≤ 64 → s.allDirect (g * 2 ^ 30) (2 ^ 30) = true → s.meetsBacking none (g * 2 ^ 30) (2 ^ 30) = false →
    ∃ u t, exec (.granuleKey pk) s = .next t ∧ Answered s u t pk 0x0300 1 [] ∧
      AddsMemJob s u (.granuleKey g key (askerOf 0x0300 pk))) ∧
  (∀ (s : State) (pk : Pkt) (c : Nat), Admitted opKeyRenew pk c s →
    let n := (wordAt pk.params 0).toNat
    n < 64 → (∀ e ∈ s.mem.keyMap, e.2 ≠ n) →
    (∀ r, r < 16 → (s.tier r).enabled = true → (s.tier r).key ≠ n) →
    ∃ u t, exec (.keyRenew pk) s = .next t ∧ Answered s u t pk 0x0301 0 [] ∧
      (∀ j, tabGet 0 u.mem.keyGen j = tabGet 0 s.mem.keyGen j + if j = n then 1 else 0) ∧
      { u with mem := { u.mem with keyGen := s.mem.keyGen } } = s) ∧
  (∀ (s : State) (pk : Pkt) (c : Nat), Admitted opZeroRange pk c s →
    let base := numAt pk.params 0 8
    let len := numAt pk.params 8 8
    base % 256 = 0 → len % 256 = 0 →
    (match partOfCell c with
      | some n => (s.cellRange (some n) base len).isSome = true
      | none => s.allDirect base len = true ∨ (s.tierRange base len).isSome = true) →
    ∃ u t, exec (.zeroRange pk) s = .next t ∧ Answered s u t pk 0x0302 1 [] ∧
      AddsMemJob s u (.zero base len (partOfCell c) (askerOf 0x0302 pk))) ∧
  (∀ (s : State) (pk : Pkt) (c : Nat), Admitted opTierSet pk c s →
    let r := numAt pk.params 0 1
    let new := tierAsked pk
    let used (base len : Nat) : Prop := s.meetsBacking (some r) base len = true ∨ s.meetsAssigned base len = true
    allZero (slice pk.params 3 5) = true → allZero (slice pk.params 40 8) = true → r ≤ 15 →
    (numAt pk.params 1 1 = 2 ∨ numAt pk.params 1 1 = 4) → new.key ≤ 64 → new.size ≠ 0 →
    new.size % (numAt pk.params 1 1 * 2 ^ 30) = 0 → new.size ≤ 2 ^ 46 → new.store % 2 ^ 30 = 0 →
    new.desc % 2 ^ 21 = 0 → s.allDirect new.store new.storeLen = true → s.allDirect new.desc new.descLen = true →
    meets new.store new.storeLen new.desc new.descLen = false → ¬ used new.store new.storeLen →
    ¬ used new.desc new.descLen → (s.tier r).enabled = false → (∀ x w, MemJob.tierSet r x w ∉ s.mem.jobs) →
    ∃ u t, exec (.tierSet pk) s = .next t ∧ Answered s u t pk 0x0303 1 [] ∧
      AddsMemJob s u (.tierSet r new (askerOf 0x0303 pk))) ∧
  (∀ (s : State) (pk : Pkt) (c : Nat), Admitted opTierClear pk c s →
    let r := (wordAt pk.params 0).toNat
    r ≤ 15 → s.meetsAssigned (tierAddr r 0) (2 ^ 46) = false →
    ∃ u t, exec (.tierClear pk) s = .next t ∧ Answered s u t pk 0x0304 1 [] ∧
      AddsMemJob s u (.tierClear r (askerOf 0x0304 pk))) ∧
  (∀ (s : State) (pk : Pkt) (c : Nat), Admitted opPoolAdd pk c s →
    let r := numAt pk.params 0 1
    let base := numAt pk.params 8 8
    let frames := numAt pk.params 16 8
    allZero (slice pk.params 1 7) = true → r ≤ 15 → base % 4096 = 0 → 2 ≤ frames → frames ≤ 2 ^ 24 →
    s.allDirect base (frames * 4096) = true → s.meetsBacking none base (frames * 4096) = false →
    s.meetsAssigned base (frames * 4096) = false → (s.tier r).enabled = true →
    (s.tier r).pools.length + s.mem.jobs.length < 16 →
    ∃ u t, exec (.poolAdd pk) s = .next t ∧ Answered s u t pk 0x0305 1 [] ∧
      AddsMemJob s u (.poolAdd r { base := base, frames := frames, used := [], lines := [] } (askerOf 0x0305 pk))) ∧
  (∀ (s : State) (pk : Pkt) (c : Nat) (p : PoolRange), Admitted opPoolRemove pk c s →
    let r := (wordAt pk.params 0).toNat
    let base := (wordAt pk.params 1).toNat
    r ≤ 15 → (s.tier r).enabled = true → (s.tier r).pools.find? (fun p => p.base = base) = some p → p.used = [] →
    ∃ u t, exec (.poolRemove pk) s = .next t ∧ Answered s u t pk 0x0306 0 [] ∧
      u.tier r = { s.tier r with pools := (s.tier r).pools.filter fun q => q.base != base } ∧
      (∀ j, j ≠ r → u.tier j = s.tier j) ∧
      { u with mem := { u.mem with tiers := s.mem.tiers, scrambled := s.mem.scrambled } } = s) ∧
  (∀ (s : State) (pk : Pkt) (c : Nat), Admitted opTierThresh pk c s →
    let r := (wordAt pk.params 0).toNat
    r ≤ 15 → (s.tier r).enabled = true →
    ∃ u t, exec (.tierThresh pk) s = .next t ∧ Answered s u t pk 0x0307 0 [] ∧
      u.tier r = { s.tier r with threshA := numAt pk.params 12 4, threshB := numAt pk.params 8 4 } ∧
      (∀ j, j ≠ r → u.tier j = s.tier j) ∧ { u with mem := { u.mem with tiers := s.mem.tiers } } = s) ∧
  (∀ (s : State) (pk : Pkt) (c : Nat), Admitted opScrubSet pk c s →
    let w := (wordAt pk.params 0).toNat
    w < 2 ^ 24 → w % 256 ≠ 0 → w % 256 ≤ 168 → w / 256 ≠ 0 →
    ∃ u t, exec (.scrubSet pk) s = .next t ∧ Answered s u t pk 0x0308 0 [] ∧
      (∀ i, i < 24 → u.chan i = { s.chan i with periodH := w % 256, devLimit := w / 256 }) ∧
      { u with mem := { u.mem with chans := s.mem.chans } } = s)

/-- The ends of the operations of main memory. -/
def Obligations.MemoryOperationsComplete : Prop :=
  (∀ (s v : State) (job g key : Nat) (who : Asker), s.takeMemJob job = some (.granuleKey g key who, v) →
    s.meetsBacking none (g * 2 ^ 30) (2 ^ 30) = false → NoneAsleep s (.granuleKey g key who) →
    ∃ t, exec (.granuleKeyComplete job) s = .next t ∧ Posted s t who 0 [] ∧
      (∀ j, tabGet 64 t.mem.keyMap j = if j = g then key else tabGet 64 s.mem.keyMap j) ∧
      (∀ pa, g * 2 ^ 30 ≤ pa → pa < (g + 1) * 2 ^ 30 → t.rawByte pa = 0) ∧
      { t with cells := s.cells, rings := s.rings, caches := s.caches, mem := s.mem, sources := s.sources, tansy := s.tansy } = s) ∧
  (∀ (s v : State) (job base len a n : Nat) (part : Option Nat) (who : Asker),
    s.takeMemJob job = some (.zero base len part who, v) → v.cellRange part base len = some [(a, n)] → n ≠ 0 →
    s.tierRange a n = none → s.meetsBacking none a n = false → NoneAsleep s (.zero base len part who) →
    ∃ t, exec (.zeroRangeComplete job) s = .next t ∧ Posted s t who 0 [] ∧
      (∀ pa, a ≤ pa → pa < a + n → t.rawByte pa = 0) ∧
      { t with cells := s.cells, rings := s.rings, caches := s.caches, mem := s.mem, sources := s.sources } = s) ∧
  (∀ (s v : State) (job r : Nat) (new : Tier) (who : Asker), s.takeMemJob job = some (.tierSet r new who, v) →
    NoneAsleep s (.tierSet r new who) →
    ∃ t, exec (.tierSetComplete job) s = .next t ∧ Posted s t who 0 [] ∧ t.tier r = { new with
        enabled := true, exhaustedSeen := (s.tier r).exhaustedSeen, codeErr := (s.tier r).codeErr
        directAccess := (t.tier r).directAccess } ∧
      ((s.tier r).enabled = false → (t.tier r).directAccess = (s.tier r).directAccess) ∧
      { t with cells := s.cells, rings := s.rings, caches := s.caches, mem := s.mem, sources := s.sources, tansy := s.tansy } = s) ∧
  (∀ (s v : State) (job r : Nat) (who : Asker), s.takeMemJob job = some (.tierClear r who, v) →
    ∃ t, exec (.tierClearComplete job) s = .next t ∧ Posted s t who 0 [] ∧
      t.tier r = (if (s.tier r).enabled then
        { Tier.reset with exhaustedSeen := (s.tier r).exhaustedSeen, codeErr := (s.tier r).codeErr
                          directAccess := (s.tier r).directAccess } else s.tier r) ∧
      t.mem.cells = s.mem.cells ∧
      { t with rings := s.rings, caches := s.caches, mem := s.mem, sources := s.sources } = s) ∧
  (∀ (s v : State) (job r : Nat) (p : PoolRange) (who : Asker), s.takeMemJob job = some (.poolAdd r p who, v) →
    (s.tier r).enabled = true → p.base + p.frames * 4096 ≤ tierBase →
    v.meetsBacking none p.base ((p.frames + 32767) / 32768 * 4096) = false → NoneAsleep s (.poolAdd r p who) →
    ∃ t, exec (.poolAddComplete job) s = .next t ∧ Posted s t who 0 [] ∧
      t.tier r = { s.tier r with pools := (s.tier r).pools ++ [p] } ∧ (∀ j, j ≠ r → t.tier j = s.tier j) ∧
      (∀ pa, t.storedByte pa = if p.base ≤ pa ∧ pa < p.base + (p.frames + 32767) / 32768 * 4096 then 0
        else s.storedByte pa) ∧
      { t with cells := s.cells, rings := s.rings, caches := s.caches
               mem := { t.mem with tiers := s.mem.tiers, cells := s.mem.cells, scrambled := s.mem.scrambled
                                   intents := s.mem.intents, poison := s.mem.poison, fresh := s.mem.fresh } } = v) ∧
  (∀ (s : State) (r : Fin 16) (i : Nat) (b : Bytes), i < 2 ^ 38 → i * 256 < (s.tier r).size →
    (s.tier r).enabled = true → tabFind s.caches.dirty (lineOf (tierAddr r i)) = some b → b.length = 256 →
    let u := s.writeBack (lineOf (tierAddr r i))
    ∃ t, exec (.tierWriteBack r i) s = .next t ∧
      (s.overPins u = false → (s.tierStore r i b).isSome = true → tabFind t.caches.dirty (lineOf (tierAddr r i)) = none ∧
        i ∉ (t.tier r).pins) ∧
      (s.overPins u = false → s.tierStore r i b = none →
        i ∈ (t.tier r).pins ∧ tabFind t.caches.dirty (lineOf (tierAddr r i)) = some b) ∧
      (s.overPins u = true → t = s) ∧
      { t with cells := s.cells, caches := s.caches, mem := s.mem, sources := s.sources, tansy := s.tansy } = s) ∧
  (∀ (s : State) (r : Fin 16) (i : Nat), tabFind s.caches.dirty (lineOf (tierAddr r i)) = none →
    ∃ t, exec (.tierWriteBack r i) s = .next t ∧ { t with caches := s.caches } = s ∧ t.caches.dirty = s.caches.dirty) ∧
  (∀ (s : State) (i : Instr) (job : Nat) (j : MemJob) (v : State), s.takeMemJob job = some (j, v) → ends j job i →
    ¬ NoneAsleep s j → ∃ t, exec i s = .next t ∧ { t with cells := s.cells } = s) ∧
  (∀ (s : State) (r : Fin 16), ∃ t, exec (.pinnedLineRetry r) s = .next t ∧
      { t with cells := s.cells, caches := s.caches, mem := s.mem, sources := s.sources, tansy := s.tansy } = s ∧
      ((s.tier r).pins = [] → t = s))

/-- The events of memory channels. -/
def Obligations.ChannelEventsFollowTheirRules : Prop :=
  (∀ (s : State) (ch : Fin 24) (passed : Bool), (passed = true ∨ (s.chan ch).retries < 7) →
    ∃ t, exec (.channelLinkRetry ch passed) s = .next t ∧
      t.chan ch = { s.chan ch with linkRetry := true, retries := if passed then 0 else (s.chan ch).retries + 1 } ∧
      (∀ i, i ≠ ch.val → t.chan i = s.chan i) ∧ { t with mem := { t.mem with chans := s.mem.chans } } = s) ∧
  (∀ (s : State) (ch : Fin 24), 7 ≤ (s.chan ch).retries → s.cst (cellNo 4 ch) ≠ .faulted →
    ∃ t, exec (.channelLinkRetry ch false) s = .next t ∧ t.cst (cellNo 4 ch) = .faulted ∧ (t.chan ch).lost = true ∧
      (t.chan ch).linkRetry = true ∧ (t.rep (reporterOf (cellNo 4 ch) 2)).fault = true) ∧
  (∀ (s : State) (ch : Fin 24), s.cst (cellNo 4 ch) = .faulted → exec (.channelFault ch) s = .next s) ∧
  (∀ (s : State) (ch : Fin 24), s.cst (cellNo 4 ch) ≠ .faulted →
    ∃ t, exec (.channelFault ch) s = .next t ∧ t.cst (cellNo 4 ch) = .faulted ∧
      t.chan ch = { s.chan ch with
        lost := true, rebuild := none, starter := none, retries := 0, wiped := (t.chan ch).wiped } ∧
      (∀ i, i ≠ ch.val → t.chan i = { s.chan i with wiped := (t.chan i).wiped }) ∧ (∀ c, c ≠ cellNo 4 ch → t.cell c = s.cell c) ∧
      let others := (s.lostIn (ch.val / 6)).filter (· != ch.val)
      ((s.setOfChan ch).all (fun m => m.redundant && others.isEmpty) = true →
        (t.rep (reporterOf (cellNo 4 ch) 2)).fault = true) ∧
      (∀ m, s.setOfChan ch = some m → (m.redundant = false ∨ others ≠ []) →
        (t.rep (reporterOf (cellNo 4 ch) 3)).fault = true) ∧
      (others = [] → ∀ i, (t.chan i).wiped = (s.chan i).wiped) ∧
      (s.mem.intents = [] → t.mem.cells = s.mem.cells ∧ t.mem.scrambled = s.mem.scrambled) ∧
      { t with cells := s.cells, rings := s.rings, caches := s.caches, tansy := s.tansy
               mem := { t.mem with chans := s.mem.chans, groupStarts := s.mem.groupStarts, intents := s.mem.intents
                                   cells := s.mem.cells, scrambled := s.mem.scrambled } } = s) ∧
  (∀ (s : State) (ch : Fin 24) (line : Nat) (errs : List BlockErr),
    (s.setOfChan ch = none ∨ (s.chan ch).lost = true) → exec (.patrolScrub ch line errs) s = .next s) ∧
  (∀ (s : State) (ch : Fin 24) (line : Nat) (m : MemSet) (errs : List BlockErr), s.setOfChan ch = some m →
    (s.chan ch).lost = false → s.cst (cellNo 4 ch) = .asleep →
    ∃ t, exec (.patrolScrub ch line errs) s = .next t ∧ { t with cells := s.cells } = s ∧
      (t.cell (cellNo 4 ch)).waking = true) ∧
  (∀ (s : State) (ch : Fin 24) (line : Nat) (m : MemSet), s.setOfChan ch = some m → (s.chan ch).lost = false →
    s.cst (cellNo 4 ch) ≠ .asleep →
    ∃ t, exec (.patrolScrub ch line []) s = .next t ∧ t.cell (cellNo 4 ch) = { s.cell (cellNo 4 ch) with idleFrom := s.now } ∧
      (line + 1 ≠ (s.chan ch).capGib * 2 ^ 22 → { t with cells := s.cells } = s) ∧
      (line + 1 = (s.chan ch).capGib * 2 ^ 22 →
        t.chan ch = { s.chan ch with passes := satAdd (s.chan ch).passes 1, devErrors := [] } ∧
        (∀ i, i ≠ ch.val → t.chan i = s.chan i) ∧
        { t with cells := s.cells, mem := { t.mem with chans := s.mem.chans } } = s)) ∧
  (∀ (s : State) (ch : Fin 24) (line : Nat) (m : MemSet) (e : BlockErr) (d : Byte), s.setOfChan ch = some m →
    (s.chan ch).lost = false → s.cst (cellNo 4 ch) ≠ .asleep → line + 1 ≠ (s.chan ch).capGib * 2 ^ 22 →
    (∀ pa, s.addrOf ch line = some pa → pa / 64 + e.block ∉ s.mem.poison) →
    eccDecode (s.chan ch).x8 (s.chan ch).failedDevice e.devices = .corrected d →
    let n := tabGet 0 (s.chan ch).devErrors d.toNat + 1
    ∃ t, exec (.patrolScrub ch line [e]) s = .next t ∧
      (t.chan ch).ce = satAdd (s.chan ch).ce 1 ∧ tabGet 0 (t.chan ch).devErrors d.toNat = n ∧
      (n < (s.chan ch).devLimit → (t.chan ch).marked = (s.chan ch).marked ∧ t.tansy = s.tansy) ∧
      ((s.chan ch).devLimit ≤ n → (s.chan ch).failedDevice = 0xFF → (t.chan ch).failedDevice = d ∧
        (t.chan ch).marked = true ∧ (t.rep (reporterOf (cellNo 4 ch) 2)).fault = true) ∧
      (∀ i, i ≠ ch.val → t.chan i = s.chan i) ∧
      { t with cells := s.cells, caches := s.caches, tansy := s.tansy, mem := { t.mem with chans := s.mem.chans } } = s) ∧
  (∀ (s : State) (ch : Fin 24) (line : Nat) (m : MemSet) (e : BlockErr), s.setOfChan ch = some m →
    (s.chan ch).lost = false → s.cst (cellNo 4 ch) ≠ .asleep → line + 1 ≠ (s.chan ch).capGib * 2 ^ 22 →
    eccDecode (s.chan ch).x8 (s.chan ch).failedDevice e.devices = .uncorrectable →
    (∀ pa, s.addrOf ch line = some pa → pa / 64 + e.block ∈ s.mem.poison →
      ∃ t, exec (.patrolScrub ch line [e]) s = .next t ∧ { t with cells := s.cells, caches := s.caches } = s) ∧
    ((∀ pa, s.addrOf ch line = some pa → pa / 64 + e.block ∉ s.mem.poison) →
    ∃ t, exec (.patrolScrub ch line [e]) s = .next t ∧
      t.chan ch = { s.chan ch with ue := satAdd (s.chan ch).ue 1, ueSeen := true } ∧
      (m.redundant = true → s.lostIn (ch.val / 6) = [] → t.mem.poison = s.mem.poison ∧
        (t.rep (reporterOf (cellNo 4 ch) 1)).fault = true) ∧
      (m.redundant = false ∨ s.lostIn (ch.val / 6) ≠ [] → (t.rep (reporterOf (cellNo 4 ch) 2)).fault = true ∧
        ∀ pa, s.addrOf ch line = some pa → pa / 64 + e.block ∈ t.mem.poison) ∧
      t.mem.cells = s.mem.cells ∧
      { t with cells := s.cells, caches := s.caches, tansy := s.tansy, mem := s.mem } = s)) ∧
  (∀ (s : State) (ch : Fin 24) (done : Nat), (s.chan ch).rebuild = some done →
    ∃ t, exec (.channelRebuildComplete ch) s = .next t ∧
      (t.chan ch).rebuild = none ∧ (t.chan ch).lost = false ∧ (t.chan ch).starter = none ∧
      (s.mem.groupStarts = [] → (∀ who, (s.chan ch).starter = some who → Posted s t who 0 []) ∧
        ((s.chan ch).starter = none → t.rings = s.rings)) ∧ t.mem.cells = s.mem.cells ∧
      { t with rings := s.rings
               mem := { t.mem with chans := s.mem.chans, groupStarts := s.mem.groupStarts } } = s)

/-- The commands of contexts, movers and staging queues. -/
def Obligations.StartsAndStagingCommandsAreAnswered : Prop :=
  (∀ (s : State) (pk : Pkt) (c j : Nat), Admitted opStartIo pk c s →
    let x := cellIndex c
    let a := s.ctx x
    let program := (wordAt pk.params 0).toNat
    let d := s.classDef a.cls
    allZero (slice pk.params 9 7) = true → numAt pk.params 8 1 ≤ 1 → s.cst c = .running → program % 32 = 0 →
    s.ownerHolds x program = true → (numAt pk.params 8 1 = 1 → a.op = .idle) →
    s.envelope x = none → (a.op ≠ .idle → a.queue.length + s.startsWaiting x < 8) → s.freeEntry = some j →
    (∀ m, s.mirrorOf x = some m → ∃ t, exec (.startIo pk) s = .next t ∧
      t.bundle = { s.bundle with
        sends := s.bundle.sends ++ [⟨0x0400, pk, 1022, [], BitVec.ofNat 64 j, [m], 0⟩] } ∧
      (t.entry j).state = 1 ∧ (t.entry j).tag = pk.tag ∧ (t.entry j).ctx = x ∧ (t.entry j).program = program ∧
      (t.ring pk.ring).outstanding = (s.ring pk.ring).outstanding + 1 ∧
      (t.ring pk.ring).outbox.length = (s.ring pk.ring).outbox.length ∧ ∀ y, t.ctx y = s.ctx y ∧ t.run y = s.run y) ∧
    (s.mirrorOf x = none →
      ∃ u t, exec (.startIo pk) s = .next t ∧ Answered s u t pk 0x0400 1 [] ∧
        (u.entry j).tag = pk.tag ∧ (u.entry j).ring = pk.ring ∧ (u.entry j).ctx = x ∧
        (u.entry j).program = program ∧ (u.entry j).part = pk.partition ∧ (u.entry j).timed = a.clsValid ∧
        (u.entry j).consumed = false ∧
        (a.clsValid = true → (u.entry j).deadline = s.now + d.l / 10 ∧
          (u.entry j).lateTick = s.now + d.l / 10 + d.lateMs * 100000 ∧
          u.bucket x = { level := ((s.bucket x).refill d s.now).level - oneStart, tick := s.now }) ∧
        (a.op = .idle → (u.ctx x).op = .active ∧ (u.ctx x).cur = ⟨pk.tag, pk.ring, j⟩ ∧ (u.ctx x).queue = a.queue ∧
          (u.ctx x).cfg = a.cfg ∧ u.run x = Run.start program ∧ (u.entry j).state = 2) ∧
        (a.op ≠ .idle → u.ctx x = { a with queue := a.queue ++ [⟨pk.tag, pk.ring, j⟩] } ∧ u.run x = s.run x ∧
          (u.entry j).state = 1) ∧
        (∀ y, y ≠ x → u.ctx y = s.ctx y ∧ u.run y = s.run y) ∧ (∀ i, i ≠ j → u.entry i = s.entry i) ∧
        { u with io := s.io, queues := s.queues, sources := s.sources, rings := s.rings } = s ∧
        u.linked j = false ∧ (s.linked j = false → { u with io := s.io } = s))) ∧
  (∀ (s : State) (pk : Pkt) (c : Nat), Admitted opResume pk c s →
    let x := cellIndex c
    s.cst c ≠ .faulted → (s.ctx x).op = .halted →
    ∃ u t, exec (.resume pk) s = .next t ∧ Answered s u t pk 0x0401 0 [] ∧
      ((s.ctx x).queue = [] → u.ctx x = { s.ctx x with op := .idle } ∧ u.io.journal = s.io.journal) ∧
      (∀ r l, (s.ctx x).queue = r :: l → (u.ctx x).op = .active ∧ (u.ctx x).cur = r ∧ (u.ctx x).queue = l ∧
        (u.ctx x).cfg = (s.ctx x).cfg ∧ u.run x = Run.start (s.entry r.entry).program ∧
        ((s.entry r.entry).state = 1 → (u.entry r.entry).state = 2) ∧
        ∀ i, i ≠ r.entry → u.entry i = s.entry i) ∧
      (∀ y, y ≠ x → u.ctx y = s.ctx y ∧ u.run y = s.run y) ∧ { u with io := s.io } = s) ∧
  (∀ (s : State) (pk : Pkt) (c : Nat), Admitted opCancel pk c s →
    let x := cellIndex c
    let q := (s.ctx x).queue
    (q.map StartRef.entry).Nodup → (∀ r ∈ q, s.isActive r.entry = false) →
    ∃ u t, exec (.cancel pk) s = .next t ∧ Answered s u t pk 0x0402 0 (beBytes 8 q.length) ∧
      u.ctx x = { s.ctx x with queue := [] } ∧ (∀ y, y ≠ x → u.ctx y = s.ctx y) ∧
      (∀ r ∈ q,
        ((s.entry r.entry).state ≠ 5 → (s.entry r.entry).ring < 1024 →
          (u.entry r.entry).state = (s.entry r.entry).state ∧ (u.entry r.entry).status = 0x0508 ∧
          (u.entry r.entry).posting = 1) ∧
        ((s.entry r.entry).state ≠ 5 → 1024 ≤ (s.entry r.entry).ring → u.entry r.entry = JEntry.free) ∧
        ((s.entry r.entry).state = 5 → (u.entry r.entry).state = 6 ∧ (u.entry r.entry).status = 0x0508)) ∧
      (∀ i, (∀ r ∈ q, r.entry ≠ i) → u.entry i = s.entry i) ∧
      { u with rings := s.rings, sources := s.sources,
               io := { u.io with ctxs := s.io.ctxs, journal := s.io.journal } } = s) ∧
  (∀ (s : State) (pk : Pkt) (c : Nat), Admitted opMove pk c s →
    let list := numAt pk.params 0 8
    let segments := numAt pk.params 8 2
    let die := numAt pk.params 10 1
    let fewer := if s.movesActive 1 < s.movesActive 0 then 1 else 0
    let d := if die ≠ 255 then die else if s.cst (cellNo 0x16 fewer) = .faulted then 1 - fewer else fewer
    allZero (slice pk.params 11 5) = true → list % 32 = 0 → segments ≠ 0 → (die ≤ 1 ∨ die = 255) →
    ∃ u t, exec (.move pk) s = .next t ∧ Answered s u t pk 0x0403 1 [] ∧
      u.io.moves = s.io.moves ++
        [{ id := s.io.moveId, part := cellIndex c, die := d, list := list, segments := segments, seg := 0, off := 0,
           held := none, result := if s.cst (cellNo 0x16 d) = .faulted then some (0x0503, cellNo 0x16 d) else none
           who := askerOf 0x0403 pk }] ∧
      u.io.moveId = s.io.moveId + 1 ∧
      (s.cst (cellNo 0x16 d) = .faulted → u.io.dies = s.io.dies) ∧
      (s.cst (cellNo 0x16 d) ≠ .faulted → (u.ioDie d).has (.move s.io.moveId) = true) ∧
      (u.ioDie d).serving = (s.ioDie d).serving ∧ (∀ e, e ≠ d → u.ioDie e = s.ioDie e) ∧
      { u with io := { u.io with moves := s.io.moves, moveId := s.io.moveId, dies := s.io.dies } } = s) ∧
  (∀ (s : State) (pk : Pkt) (c high low tail : Nat), Admitted opStageSet pk c s →
    wordAt pk.params 0 = BitVec.ofNat 64 (high + low * 2 ^ 8 + tail * 2 ^ 16) → high ≤ 128 → low < high →
    1 ≤ tail → tail < 2 ^ 16 →
    ∃ u t, exec (.stageSet pk) s = .next t ∧ Answered s u t pk 0x0404 0 [] ∧
      u.staging (cellIndex c) = { s.staging (cellIndex c) with next := some (high, low, tail) } ∧
      (∀ p, p ≠ cellIndex c → u.staging p = s.staging p) ∧
      { u with io := { u.io with staging := s.io.staging } } = s) ∧
  (∀ (s : State) (pk : Pkt) (c n : Nat), Admitted opMoverSet pk c s → wordAt pk.params 0 = BitVec.ofNat 64 n →
    n ≤ 24 → (s.reservedPorts s.io.bindings (cellIndex c)).length + n ≤ 32 →
    ∃ u t, exec (.moverSet pk) s = .next t ∧ Answered s u t pk 0x0405 0 [] ∧
      u.ioDie (cellIndex c) = { s.ioDie (cellIndex c) with nextMax := some n } ∧
      (∀ d, d ≠ cellIndex c → u.ioDie d = s.ioDie d) ∧ { u with io := { u.io with dies := s.io.dies } } = s) ∧
  (∀ (s : State) (pk : Pkt) (c cap share : Nat), Admitted opDmaCapSet pk c s →
    wordAt pk.params 0 = BitVec.ofNat 64 (cap + share * 2 ^ 16) → 128 ≤ cap → cap ≤ s.capMax → 64 ≤ share →
    share + 64 ≤ cap → s.admission { s.plan with shares := [share, cap - share] } = none →
    ∃ u t, exec (.dmaCapSet pk) s = .next t ∧ Answered s u t pk 0x0406 0 [] ∧
      u = { s with io := { s.io with nextCap := some (cap, share) } })

/-- The events of transfer programs and their paths. -/
def Obligations.TransferProgramsGoOn : Prop :=
  (∀ (s : State) (x : CtxId),
    ((s.ctx x).op ≠ .active ∨ s.served x = false ∨ (s.run x).result.isSome = true) →
    exec (.transferEntry x) s = .next s) ∧
  (∀ (s v : State) (x : CtxId) (b : Bytes), (s.ctx x).op = .active → s.served x = true → (s.run x).result = none →
    (s.run x).op = none → (s.run x).left = none → s.limits x = none → (s.run x).next % 32 = 0 →
    AtOnce s [] (s.entryPieces x) false →
    let read := (s.entryPieces x).foldl (fun t p => t.dmaRead p.1 p.2) s
    s.overPins read = false → read.ownerRead x (s.run x).next 32 = some (b, v) →
    let r := s.run x
    let kind := numAt b 0 1
    let flags := numAt b 1 1
    let l := v.readList x (numAt b 16 2) (numAt b 8 8) (numAt b 4 4)
    (entryFault b = 0 → (kind = 0 ∨ kind = 5) → r.jumps < 16 →
      ∃ t, exec (.transferEntry x) s = .next t ∧
        t.run x = { r with
          jumps := r.jumps + 1, entries := r.entries + 1, index := r.index + 1, lastAddr := some r.next
          lastIndex := r.index, lastBytes := 0, next := if kind = 5 then numAt b 8 8 else r.next + 32
          nop := if kind = 5 then r.nop else decide (flags / 2 % 2 = 1)
          result := if kind = 0 ∧ flags % 2 = 1 then some (0, 0) else none } ∧
        (∀ y, y ≠ x.val → t.run y = s.run y ∧ t.ctx y = s.ctx y) ∧ { t with io := v.io } = v) ∧
    (entryFault b = 0 → (kind = 0 ∨ kind = 5) → 16 ≤ r.jumps →
      ∃ t, exec (.transferEntry x) s = .next t ∧ (t.run x).result = some (0x0504, 6)) ∧
    (entryFault b ≠ 0 → ∃ t, exec (.transferEntry x) s = .next t ∧
      (t.run x).result = some (0x0504, BitVec.ofNat 32 (entryFault b)) ∧ (t.run x).lastAddr = some r.next ∧
      (t.run x).lastIndex = r.index ∧ { t with io := v.io } = v) ∧
    (entryFault b = 0 → 1 ≤ kind → kind ≤ 4 → r.nop = true →
      ∃ t, exec (.transferEntry x) s = .next t ∧ (t.run x).result = some (0x0504, 9)) ∧
    (entryFault b = 0 → 1 ≤ kind → kind ≤ 4 → r.nop = false → flags / 8 % 2 = 0 → l.2.2 ≠ 2 →
      ∃ t op, exec (.transferEntry x) s = .next t ∧ (t.run x).op = some op ∧ op.kind = kind ∧
        op.count = numAt b 4 4 ∧ op.whole = decide (flags / 2 % 2 = 0) ∧ op.devOp = BitVec.ofNat 16 (numAt b 2 2) ∧
        (t.run x).jumps = 0 ∧ (t.run x).result = none ∧ (t.run x).next = r.next + 32 ∧
        { t with cells := v.cells, io := v.io } = v)) ∧
  (∀ (s : State) (x : CtxId), (s.run x).result = none → (s.run x).crcs = [] → exec (.ioCompletion x) s = .next s) ∧
  (∀ (s : State) (x : CtxId) (status : BitVec 16) (detail : BitVec 32),
    (s.run x).result = some (status, detail) → ((s.ctx x).op = .active ∨ (s.ctx x).op = .redrive) →
    s.served x = true → s.ioSettled x = true →
    let j := (s.ctx x).cur.entry
    let e := s.entry j
    let reply : Reply :=
      { op := 0x0400, tag := e.tag, status := status, detail := detail, partition := e.part, completion := true,
        checkOnly := false, results := s.ioResults x j, entry := some j }
    e.ctx = x → e.posting = 0 →
    ∃ t, exec (.ioCompletion x) s = .next t ∧
      (e.state ≠ 5 → e.ring < 1024 → (t.entry j).state = e.state ∧ (t.entry j).posting = 1 ∧ (t.entry j).status = status ∧
        (t.ring e.ring).outbox = (s.ring e.ring).outbox ++ [reply] ∧ t.sources = s.sources ∧
        t.ctx x = s.ctx x ∧ t.run x = s.run x) ∧
      (e.state ≠ 5 → 1024 ≤ e.ring → t.entry j = JEntry.free ∧ t.sources = s.sources ∧
        (t.ring e.ring).outbox = (s.ring e.ring).outbox ++ [{ reply with entry := none }]) ∧
      (e.state = 5 → (t.entry j).state = 6 ∧ (t.entry j).status = status ∧ t.rings = s.rings) ∧
      (e.state = 5 ∨ 1024 ≤ e.ring →
        (status = 0x0502 → (t.ctx x).op = .halted ∧ (t.ctx x).queue = (s.ctx x).queue) ∧
        (status ≠ 0x0502 → (s.ctx x).queue = [] → (t.ctx x).op = .idle) ∧
        (∀ r l, status ≠ 0x0502 → (s.ctx x).queue = r :: l → (t.ctx x).op = .active ∧ (t.ctx x).cur = r ∧
          (t.ctx x).queue = l)) ∧
      (∀ y, y ≠ x.val → t.ctx y = s.ctx y ∧ t.run y = s.run y) ∧ (∀ k, k ≠ e.ring → t.ring k = s.ring k) ∧
      { t with rings := s.rings, sources := s.sources, io := s.io } = s) ∧
  (∀ (s : State) (x : CtxId),
    ((s.ctx x).op = .redrive → exec (.pathFailure x) s = .next s) ∧
    ((s.ctx x).op ≠ .redrive → ((s.ctx x).op ≠ .active ∨ (s.run x).result.isSome = true) →
      ∃ t, exec (.pathFailure x) s = .next t ∧ (t.conv x).unacked = [] ∧ (t.conv x).syncPort = none ∧
        (∀ y, y ≠ x.val → t.conv y = s.conv y) ∧ { t with io := { t.io with convs := s.io.convs } } = s) ∧
    ((s.ctx x).op = .active → (s.run x).result = none →
      ∃ t, exec (.pathFailure x) s = .next t ∧ t.ctx x = { s.ctx x with op := .redrive } ∧
      (t.run x).op = (s.run x).op.map (fun op => if op.ended.isSome then op else { op with due := true }) ∧
      (t.conv x).unacked = [] ∧ (t.conv x).syncPort = none ∧
      ((s.entry (s.ctx x).cur.entry).state = 2 → (t.entry (s.ctx x).cur.entry).state = 3) ∧
      (∀ y, y ≠ x.val → t.ctx y = s.ctx y ∧ t.run y = s.run y ∧ t.conv y = s.conv y) ∧
      { t with io := s.io } = s)) ∧
  (∀ (s : State) (x : CtxId) (i : Instr),
    (i = .redriveSend x ∨ ∃ p k, i = .pathReturn x p ∧ k < (s.ctx x).cfg.pathCount ∧ s.usable x k = true ∧
      (s.ctx x).pathPort k = p) →
    ((s.ctx x).op ≠ .redrive ∨ s.nextPath x = none ∨ s.served x = false → exec i s = .next s) ∧
    (∀ k, s.nextPath x = some k → (s.ctx x).op = .redrive → s.served x = true →
      ((s.staging (s.ctx x).port).inq.any fun q => q.ctx = x.val) = false →
      let j := (s.ctx x).cur.entry
      let again := ((s.run x).op.map fun op => op.whole && op.ended.isNone).getD false
      ∃ t, exec i s = .next t ∧ (t.ctx x).op = .active ∧ (t.ctx x).pathCur = k ∧
        ((s.entry j).state = 3 → (t.entry j).state = 2) ∧
        (t.entry j).redriven = ((s.entry j).redriven || again) ∧
        (again = true → (t.run x).flags &&& 0x28 = 0x28) ∧ (again = false → t.run x = s.run x) ∧
        { t with cells := s.cells, io := s.io } = s)) ∧
  (∀ (s : State) (n : Fin 4), s.cpDead n = false → exec (.cpTakeover n) s = .next s) ∧
  (∀ (s : State) (n : Fin 4), s.cpDead n = true → ∃ t, exec (.cpTakeover n) s = .next t ∧
    (∀ x, x ∈ s.io.ctxs.map Prod.fst → s.ctxCp x = n → (∃ k ∈ [1, 2, 3], s.cpDead (Nat.xor n k) = false) →
      t.cpDead (t.ctxCp x) = false) ∧
    (∀ x, s.ctxCp x ≠ n → (t.ctx x).shift = (s.ctx x).shift) ∧ { t with cells := s.cells, io := s.io } = s)

/-- The events of movers and staging queues. -/
def Obligations.MoversServeTheirRequests : Prop :=
  (∀ (s : State) (d : Fin 2), s.grantNext d = none → exec (.moverGrant d) s = .next s) ∧
  (∀ (s : State) (d : Fin 2) (j : MoverJob) (m : Nat), s.grantNext d = some (j, m) → (∀ p, j ≠ .fill p) →
    ∃ t, exec (.moverGrant d) s = .next t ∧ tabFind (t.ioDie d).serving m = some j ∧
      (∀ k, k ≠ m → tabFind (t.ioDie d).serving k = tabFind (s.ioDie d).serving k) ∧
      { t with cells := s.cells, rings := s.rings, caches := s.caches, mem := s.mem, io := s.io
               sources := s.sources, tansy := s.tansy, free := s.free } = s) ∧
  (∀ (s : State) (p : PortId), ((s.ioDie (p.val / 128)).serving.find? fun e => e.2 = .drain p) = none →
    exec (.inboundDrainEnd p) s = .next s) ∧
  (∀ (s : State) (p : PortId) (m : Nat),
    ((s.ioDie (p.val / 128)).serving.find? fun e => e.2 = .drain p) = some (m, .drain p) →
    tabFind (s.ioDie (p.val / 128)).serving m = some (.drain p) → s.drained p = true →
    ∃ t, exec (.inboundDrainEnd p) s = .next t ∧ tabFind (t.ioDie (p.val / 128)).serving m = none ∧
      t.staging p = { s.staging p with
        toZero := false, tailAt := if (s.staging p).inFill = 0 then none else some (s.now + (s.staging p).tail) } ∧
      (∀ q, q ≠ p.val → t.staging q = s.staging q) ∧
      { t with io := { t.io with dies := s.io.dies, staging := s.io.staging } } = s) ∧
  (∀ (s : State) (p : PortId), ((s.staging p).tailAt = none ∨ ∃ n, (s.staging p).tailAt = some n ∧ s.now < n) →
    exec (.tailTimerExpiry p) s = .next s) ∧
  (∀ (s : State) (p : PortId) (n : Nat), (s.staging p).tailAt = some n → n ≤ s.now →
    ∃ t, exec (.tailTimerExpiry p) s = .next t ∧
      t.staging p = { s.staging p with toZero := true, tailAt := none, flushes := satAdd (s.staging p).flushes 1 } ∧
      (t.ioDie (p.val / 128)).has (.drain p) = true ∧ (∀ q, q ≠ p.val → t.staging q = s.staging q) ∧
      { t with io := { t.io with dies := s.io.dies, staging := s.io.staging } } = s) ∧
  (∀ (s : State) (p : PortId), ((s.ioDie (p.val / 128)).serving.find? fun e => e.2 = .fill p) = none →
    (s.staging p).outq = [] →
    ∃ t, exec (.outboundFill p) s = .next t ∧ (s.writers p ≠ [] → (t.ioDie (p.val / 128)).has (.fill p) = true) ∧
      { t with io := { t.io with dies := s.io.dies } } = s) ∧
  (∀ (s : State) (n : Nat),
    (s.io.moves[n]? = none ∨ ∃ j, s.io.moves[n]? = some j ∧ j.result = none) →
    exec (.moveComplete n) s = .next s) ∧
  (∀ (s : State) (n st dt : Nat) (j : MoveJob), s.io.moves[n]? = some j → j.result = some (st, dt) →
    ∃ t, exec (.moveComplete n) s = .next t ∧ (∀ k ∈ t.io.moves, k.id ≠ j.id) ∧
      (∀ k ∈ s.io.moves, k.id ≠ j.id → k ∈ t.io.moves) ∧
      (t.ring j.who.ring).outbox = (s.ring j.who.ring).outbox ++
        [{ op := j.who.op, tag := j.who.tag, status := BitVec.ofNat 16 st, detail := BitVec.ofNat 32 dt
           partition := j.who.partition, completion := true, checkOnly := false
           results := beBytes 4 j.seg ++ beBytes 4 j.off ++ zeros 8, entry := none }] ∧
      { t with rings := s.rings, io := { t.io with moves := s.io.moves, dies := s.io.dies } } = s) ∧
  (∀ (s : State) (n : Fin 64) (pa unit times : Nat),
    tabFind (s.ioDie (n.val / 32)).serving (n.val % 32) = none →
    ∃ t, exec (.busErrorRetry n pa unit times) s = .next t ∧
      t.ioDie (n.val / 32) = { s.ioDie (n.val / 32) with
        busErr := (s.ioDie (n.val / 32)).busErr ++ [⟨n.val % 32, lineOf pa, unit, times⟩] } ∧
      { t with io := { t.io with dies := s.io.dies } } = s) ∧
  (∀ (s : State) (n : Fin 64), ∃ t, exec (.moverFault n) s = .next t ∧ t.cst (cellNo 0x0B n) = .faulted ∧
    (t.rep (reporterOf (cellNo 0x0B n) 2)).fault = true ∧
    tabFind (t.ioDie (n.val / 32)).serving (n.val % 32) = none ∧
    (∀ p, tabFind (s.ioDie (n.val / 32)).serving (n.val % 32) = some (.drain p) →
      (t.ioDie (n.val / 32)).requests = .drain p :: (s.ioDie (n.val / 32)).requests) ∧
    (∀ p, tabFind (s.ioDie (n.val / 32)).serving (n.val % 32) = some (.fill p) →
      (t.ioDie (n.val / 32)).requests = .fill p :: (s.ioDie (n.val / 32)).requests) ∧
    (∀ id, tabFind (s.ioDie (n.val / 32)).serving (n.val % 32) = some (.move id) →
      ∀ k ∈ t.io.moves, k.id = id → k.result.isSome = true) ∧
    { t with cells := s.cells, rings := s.rings, io := s.io, tansy := s.tansy } = s) ∧
  (∀ (s : State) (d : Fin 2), (s.ioDie d).serving = [] → (∀ x, (s.run x).crcDue = false) →
    let cap := (s.io.nextCap.map Prod.fst).getD s.io.capLines
    let share := (s.io.nextCap.map Prod.snd).getD s.io.share0
    ∃ t, exec (.dmaTokenRefill d) s = .next t ∧ t.io.capLines = cap ∧ t.io.share0 = share ∧ t.io.nextCap = none ∧
      t.ioDie d = { s.ioDie d with tokens := if d = 0 then share else cap - share } ∧
      (∀ e, e ≠ d.val → t.ioDie e = s.ioDie e) ∧
      { t with io := { t.io with
        dies := s.io.dies, capLines := s.io.capLines, share0 := s.io.share0, nextCap := s.io.nextCap } } = s)

/-- The events and commands of the journal. -/
def Obligations.TheJournalKeepsEveryOutcome : Prop :=
  (∀ (s : State) (j : EntryId),
    let e := s.entry j
    let due : Prop := e.timed = true ∧ 1 ≤ e.state ∧ e.state ≤ 3 ∧ e.posting = 0 ∧ e.deadline ≤ s.now + 40 ∧
      s.hasEnded j = false ∧ s.awaitsCopy j = false
    let status : BitVec 16 := if s.waitsPartner e.ctx then 0x0501 else 0x0509
    (¬ due → exec (.deadlineCutoff j) s = .next s) ∧
    (due → ∃ t, exec (.deadlineCutoff j) s = .next t ∧ (t.entry j).status = status ∧
      (e.ring < 1024 → (t.entry j).state = e.state ∧ (t.entry j).posting = 2) ∧
      (1024 ≤ e.ring → (t.entry j).state = 5 ∧ (t.entry j).consumed = true) ∧
      (t.ring e.ring).outbox = (s.ring e.ring).outbox ++
        [{ op := 0x0400, tag := e.tag, status := status, detail := 0, partition := e.part, completion := true
           checkOnly := false, entry := if e.ring < 1024 then some j.val else none
           results := if s.isActive j then s.ioResults e.ctx j else s.queuedResults j }] ∧
      (∀ d, d < 2 → (t.copy d).lateSeen = true ∧ (t.copy d).latePosts = satAdd (s.copy d).latePosts 1) ∧
      (∀ i, i ≠ j.val → t.entry i = s.entry i) ∧ (∀ k, k ≠ e.ring → t.ring k = s.ring k) ∧
      { t with rings := s.rings, io := { t.io with journal := s.io.journal, copies := s.io.copies } } = s)) ∧
  (∀ (s : State) (j : EntryId),
    let e := s.entry j
    let due : Prop := e.state = 5 ∧ e.lateTick ≤ s.now ∧ s.hasEnded j = false
    let src := 0x9D0 + s.ctxCp e.ctx / 2
    (¬ due → exec (.lateLimitExpiry j) s = .next s) ∧
    (due → s.ctxCp e.ctx < 4 → ∃ t, exec (.lateLimitExpiry j) s = .next t ∧ (t.entry j).state = 6 ∧
      (t.entry j).status = 0x050A ∧ t.rings = s.rings ∧
      (t.source src).backlog = (s.source src).backlog ++
        [{ payload := BitVec.ofNat 48 (0x050A * 2 ^ 32 + j), queue := e.ring, prio := 0, entry := some j.val }] ∧
      (∀ r, r ≠ src → t.source r = s.source r) ∧
      (∀ d, d < 2 → (t.copy d).abandonSeen = true ∧ (t.copy d).abandons = satAdd (s.copy d).abandons 1) ∧
      (s.isActive j = false → (t.ctx e.ctx).queue = (s.ctx e.ctx).queue.filter fun r => r.entry != j.val) ∧
      { t with cells := s.cells, sources := s.sources, io := s.io } = s)) ∧
  (∀ (s : State) (d : Fin 2) (j : EntryId),
    let cell := cellNo 0x12 (1 + d.val)
    ∃ t, exec (.journalEntryUe d j) s = .next t ∧ t.copy d = { s.copy d with copyUe := true, bad := insertNat (s.copy d).bad j } ∧
      let other := s.copyServes (1 - d.val) && !(s.copy (1 - d.val)).bad.contains j.val
      (other = true → (t.rep (reporterOf cell 1)).fault = true ∧ t.io.journal = s.io.journal) ∧
      (other = false → (t.rep (reporterOf cell 2)).fault = true ∧
        t.entry j = if (s.entry j).state = 4 ∨ (s.entry j).state = 6 then JEntry.free else s.entry j) ∧
      (∀ i, i ≠ j.val → t.entry i = s.entry i) ∧ { t with io := s.io, tansy := s.tansy } = s) ∧
  (∀ (s : State) (d : Fin 2),
    ((s.copy d).rebuilding = false → exec (.journalRebuildComplete d) s = .next s) ∧
    ((s.copy d).rebuilding = true → ∃ t, exec (.journalRebuildComplete d) s = .next t ∧
      t.copy d = { s.copy d with rebuilding := false, rebuildWho := none } ∧
      (∀ who, (s.copy d).rebuildWho = some who → Posted s t who 0 []) ∧
      { t with rings := s.rings, io := { t.io with copies := s.io.copies } } = s)) ∧
  (∀ (s : State) (pk : Pkt) (c j : Nat), Admitted opJournalRead pk c s → wordAt pk.params 0 = BitVec.ofNat 64 j →
    j < 2 ^ 20 → pk.auth ≠ 3 → s.entryAtCell c j = true →
    ∃ t, exec (.journalRead pk) s = .next t ∧ Answered s s t pk 0x0500 0 (s.entry j).bytes) ∧
  (∀ (s : State) (pk : Pkt) (j : Nat) (k : BundleCopy), Admitted opJournalRead pk cellJournal s →
    wordAt pk.params 0 = BitVec.ofNat 64 (j + 2 ^ 32) → j < 2 ^ 20 → s.io.copyOf = some k → k.waits = [] →
    AtOnce s [] [(k.entryAddr j, 32)] false → s.overPins (s.dmaRead (k.entryAddr j) 32) = false →
    ∃ u t, exec (.journalRead pk) s = .next t ∧
      Answered s u t pk 0x0500 0 (s.bytesAt (k.entryAddr j) 32) ∧
      u = { s.dmaRead (k.entryAddr j) 32 with
        io := { s.io with copyOf := some { k with unread := k.unread.filter (· != j) } } }) ∧
  (∀ (s : State) (pk : Pkt) (c j : Nat), Admitted opLateAck pk c s → wordAt pk.params 0 = BitVec.ofNat 64 j →
    j < 2 ^ 20 → s.entryAtCell c j = true → (s.entry j).state = 6 →
    ∃ u t, exec (.lateAck pk) s = .next t ∧ Answered s u t pk 0x0501 0 [] ∧
      u.entry j = (if (s.entry j).consumed then JEntry.free else { s.entry j with lateAcked := true }) ∧
      (∀ i, i ≠ j → u.entry i = s.entry i) ∧ { u with io := { u.io with journal := s.io.journal } } = s) ∧
  (∀ (s : State) (pk : Pkt) (c first states : Nat), Admitted opJournalList pk c s →
    wordAt pk.params 0 = BitVec.ofNat 64 (first + states * 2 ^ 32) → first < 2 ^ 20 → states < 256 →
    let wanted (j : Nat) : Prop := first ≤ j ∧ states.testBit (s.entry j).state = true ∧
      (c = cellJournal ∨ (s.entry j).state ≠ 0 ∧ (s.ctx (s.entry j).ctx).owner = some (cellIndex c))
    ∃ (t : State) (next : Nat) (listed : List Nat), exec (.journalList pk) s = .next t ∧
      Answered s s t pk 0x0502 0 (pad8 (beBytes 4 next ++ beBytes 4 listed.length ++ listed.flatMap (beBytes 4))) ∧
      (∀ j ∈ listed, wanted j) ∧ listed.length ≤ 1014 ∧
      (listed.length < 1014 → next = 1048576 ∧ ∀ j, j < 1048576 → wanted j → j ∈ listed)) ∧
  (∀ (s : State) (pk : Pkt) (c : Nat), Admitted opJournalMirror pk c s →
    let len := numAt pk.params 0 1
    let first := numAt pk.params 16 4
    let count := numAt pk.params 20 4
    let standby := numAt pk.params 24 3
    let queue := numAt pk.params 27 2
    let partner := slice pk.params 1 len
    allZero (slice pk.params 15 1) = true → len ≤ 14 → allZero (slice pk.params (1 + len) (14 - len)) = true →
    (len ≠ 0 → 1 ≤ count ∧ first + count ≤ 131072 ∧ standby + count ≤ 131072 ∧ queue ≤ 1023) →
    (∀ b ∈ partner, b.toNat ≤ 15) →
    (∀ o, s.io.mirror = some o → len = 0 ∨ o.on = false ∨ o.partner = partner) →
    let owed := (s.io.mirror.map Mirror.who).getD []
    let left := (s.io.mirror.bind Mirror.sent).filter fun k => decide (len ≠ 0) && k.1 != partner
    ∃ u t, exec (.journalMirror pk) s = .next t ∧ Answered s u t pk 0x0503 1 [] ∧
      u.io.mirror = some (Mirror.mk partner first count standby queue (numAt pk.params 29 3) false
        (askerOf 0x0503 pk :: owed) (if len = 0 then s.io.mirror.bind Mirror.sent else none) []) ∧
      u.bundle = ((left.map fun k => s.sendTo (s.bundleHome ++ k.1) mirrorEnd).getD s).bundle ∧
      { u with bundle := s.bundle, io := { u.io with mirror := s.io.mirror } } = s) ∧
  (∀ (s : State), s.io.mirror = none → exec .journalMirrorComplete s = .next s) ∧
  (∀ (s : State) (m : Mirror), s.io.mirror = some m → m.who ≠ [] →
    let told (t : State) (status detail : Nat) : Prop := ∀ who ∈ m.who,
      ({ op := who.op, tag := who.tag, status := BitVec.ofNat 16 status, detail := BitVec.ofNat 32 detail
         partition := who.partition, completion := true, checkOnly := false, results := [], entry := none } : Reply) ∈
        (t.ring who.ring).outbox
    (m.partner = [] → ∃ t, exec .journalMirrorComplete s = .next t ∧ t.io = { s.io with mirror := none } ∧
      t.bundle = ((m.sent.map fun k => s.sendTo (s.bundleHome ++ k.1) mirrorEnd).getD s).bundle ∧ told t 0 0 ∧
      { t with rings := s.rings, io := s.io, bundle := s.bundle } = s) ∧
    (m.partner ≠ [] → s.bundle.bstate ≠ .fenced → (s.member (m.partner.headD 0).toNat).fence = 0 →
      (s.mirrorHeld m = false → exec .journalMirrorComplete s = .next s) ∧
      (s.mirrorHeld m = true → ∃ t, exec .journalMirrorComplete s = .next t ∧
        t.io = { s.io with mirror := some { m with who := [], on := true } } ∧ told t 0 0 ∧
        t.bundle = (s.sendTo (s.bundleHome ++ m.partner) mirrorForce).bundle ∧
        { t with rings := s.rings, io := s.io, bundle := s.bundle, vixia := s.vixia } = s)) ∧
    (m.partner ≠ [] → s.bundle.bstate = .fenced → ∃ t, exec .journalMirrorComplete s = .next t ∧
      t.io = { s.io with mirror := some { m with who := [] } } ∧ told t 0x02B1 (2 ^ s.bundle.index) ∧
      { t with rings := s.rings, io := s.io } = s)) ∧
  (∀ (s : State) (m : Mirror) (b : Byte) (rest p : Bytes) (j : Nat) (l : Tab Bytes),
    s.io.mirror = some m → s.mirrorRuns m = true → m.sent = some (p, l) → m.partner = b :: rest →
    (s.entry j).state ≠ 0 → m.first ≤ (s.entry j).ctx → (s.entry j).ctx < m.first + m.count →
    (s.entry j).bytes.take 24 ≠ tabGet (zeros 24) l j →
    let content := mirrorEntry j (s.entry j).bytes
    (b.toNat, if rest.isEmpty then content
      else routed (s.bundleHome ++ m.partner) s.modulePath s.vixia.fuses.serial content) ∈ s.mirrorStep.bundle.outbound) ∧
  (∀ e : JEntry, 1 ≤ e.state → e.state ≤ 7 → e.ctx < 2 ^ 17 → (entryOf e.bytes).bytes = e.bytes) ∧
  (∀ (s : State) (home : Word), s.homeFailed home = false ∨ s.io.copyOf = none ∨
      (∃ k, s.io.copyOf = some k ∧ (k.home ≠ home ∨ k.resolving ≠ [] ∨ k.waits ≠ [])) →
    exec (.journalTakeover home) s = .next s) ∧
  (∀ (s : State) (k : BundleCopy), s.io.copyOf = some k → k.resolving = [] → k.waits = [] →
    s.homeFailed k.home = true → (k.entries.map Prod.fst).Nodup →
    ∃ t k', exec (.journalTakeover k.home) s = .next t ∧ t.io.copyOf = some k' ∧
      (∀ e ∈ k.entries, e.2.state = 1 ∨ e.2.state = 4 → e.1 ∈ k'.unread) ∧
      (∀ e ∈ k.entries, e.2.state ≠ 1 → e.2.state ≠ 4 → e.1 ∈ k'.resolving) ∧
      { t with cells := s.cells, io := s.io, sources := s.sources, vixia := s.vixia, mem := s.mem, caches := s.caches
               tansy := s.tansy } = s)

/-- BIND and UNBIND. -/
def Obligations.DeadlineClassesBindContexts : Prop :=
  (∀ (s : State) (pk : Pkt) (c : Nat) (xs : List Nat), Admitted opBind pk c s →
    let n := cellIndex c
    let first := numAt pk.params 0 4
    let ranges := numAt pk.params 9 1
    let rs := (List.range ranges).map fun i => (numAt pk.params (16 + 16 * i) 8, numAt pk.params (24 + 16 * i) 8)
    let b : Binding := { cls := n, ctxs := xs, hold := numAt pk.params 8 1 == 1, ranges := rs, held := [] }
    let held := s.bindHolds b
    ctxRange first (numAt pk.params 4 4) = some xs → allZero (slice pk.params 10 6) = true →
    numAt pk.params 8 1 ≤ 1 → ranges ≤ 4 →
    allZero (slice pk.params (16 + 16 * ranges) (64 - 16 * ranges)) = true → (s.ctx first).owner ≠ none →
    (∀ x ∈ xs, (s.ctx x).owner = (s.ctx first).owner ∧ s.cst (cellNo 0x0D x) = .stopped ∧
      (s.ctx x).clsValid = false) →
    (∀ r ∈ rs, (s.declared first r.1 r.2).isSome = true) →
    s.admission { s.plan with binds := s.io.bindings ++ [{ b with held := held }] } = none →
    (∀ k ∈ held, (s.cell k).bindHold < 65535) →
    ∃ u t, exec (.bind pk) s = .next t ∧ Answered s u t pk 0x0600 0 [] ∧
      u.io.bindings = s.io.bindings ++ [{ b with held := held }] ∧
      (∀ x ∈ xs, u.ctx x = { s.ctx x with cls := n, clsValid := true } ∧
        u.bucket x = { level := (s.classDef n).sigma * oneStart, tick := s.now }) ∧
      (∀ x, x ∉ xs → u.ctx x = s.ctx x ∧ u.bucket x = s.bucket x) ∧
      (∀ k, (u.cell k).bindHold = (s.cell k).bindHold + held.count k ∧ u.cst k = s.cst k) ∧
      { u with cells := s.cells,
               io := { u.io with ctxs := s.io.ctxs, bindings := s.io.bindings, buckets := s.io.buckets
                                 ports := s.io.ports } } = s) ∧
  (∀ (s : State) (pk : Pkt) (c : Nat) (xs : List Nat), Admitted opUnbind pk c s →
    allZero (slice pk.params 10 6) = true → ctxRange (numAt pk.params 0 4) (numAt pk.params 4 4) = some xs →
    (∀ x ∈ xs, s.cst (cellNo 0x0D x) = .stopped) →
    ∃ u t, exec (.unbind pk) s = .next t ∧ Answered s u t pk 0x0601 0 [] ∧
      (∀ b ∈ u.io.bindings, b.cls = cellIndex c → ∀ x ∈ xs, x ∉ b.ctxs) ∧
      (∀ b ∈ s.io.bindings, b.cls ≠ cellIndex c → b ∈ u.io.bindings) ∧
      (∀ b ∈ s.io.bindings, b.cls = cellIndex c → ∀ x ∈ xs, x ∈ b.ctxs → (u.ctx x).clsValid = false) ∧
      (∀ x, x ∉ xs → u.ctx x = s.ctx x ∧ u.bucket x = s.bucket x) ∧ (∀ k, u.cst k = s.cst k) ∧
      { u with cells := s.cells,
               io := { u.io with ctxs := s.io.ctxs, bindings := s.io.bindings, buckets := s.io.buckets
                                 ports := s.io.ports } } = s)

/-- R435: a pop of a queue that holds no ready item returns zero and changes nothing. -/
def Obligations.PopOfAnEmptyQueueReturnsZero : Prop :=
  ∀ (s : State) (q : Fin 1024) (c : CoreId), (s.queue q).items = [] → s.leads c = true →
    (s.isSplit (pairOfCore c) = true → exec (.queuePop q c) s = .next { s with bus := 0 }) ∧
    (s.isSplit (pairOfCore c) = false → s.popWaits q (pairOfCore c) = false →
      ((s.pair (pairOfCore c)).opened.isEmpty = true → exec (.queuePop q c) s = .next { s with bus := 0 }) ∧
      ((s.pair (pairOfCore c)).opened.isEmpty = false →
        exec (.queuePop q c) s = .next { s.closeWindow c with bus := 0 } ∧
        { s.closeWindow c with pairs := s.pairs } = s))

/-- R436: a peek returns what a pop would and changes nothing. -/
def Obligations.PeekReturnsWhatAPopWould : Prop :=
  ∀ (s : State) (q : Fin 1024), ∃ t, exec (.queuePeek q) s = .next t ∧ { t with bus := s.bus } = s ∧
    (∀ (c : CoreId) (r : State), exec (.queuePop q c) s = .next r → s.leads c = true →
      (s.isSplit (pairOfCore c) = true ∨ s.popWaits q (pairOfCore c) = false) → r.bus = t.bus) ∧
    ((s.queue q).items = [] → t.bus = 0)

/-- Pops. -/
def Obligations.PopsTakeTheFirstItem : Prop :=
  (∀ (s : State) (q : Fin 1024) (c : CoreId) (i : QItem), s.serves q = true → s.leads c = true → i ∈ (s.queue q).items →
    (∀ j ∈ (s.queue q).items, j = i ∨ j.prio < i.prio ∨ j.prio = i.prio ∧ i.ord < j.ord) →
    (∀ j ∈ (s.queue q).items, j.ord < 2 ^ 64) → i.word ≠ 0 →
    let others := (s.queue q).items.filter fun j => j.ord != i.ord
    (s.isSplit (pairOfCore c) = true → ∃ t, exec (.queuePop q c) s = .next t ∧ t.bus = i.word ∧
      (t.queue q).items = others ∧ (t.queue q).pend = (s.queue q).pend ∧ (t.queue q).stale = false ∧
      (others ≠ [] → (s.queue q).cfg.staleT ≠ 0 → (t.queue q).staleAt = some (s.now + (s.queue q).cfg.staleT)) ∧
      (∀ j, j ≠ q.val → t.queue j = s.queue j) ∧
      { t with bus := s.bus, queues := s.queues, io := { t.io with journal := s.io.journal } } = s ∧
      (i.entry = none → t.io = s.io)) ∧
    (s.isSplit (pairOfCore c) = false → (s.pair (pairOfCore c)).closed = [] →
      (s.pair (pairOfCore c)).opened.pop = none → (s.queue q).pend.length < 8 →
      ∃ u : State, exec (.queuePop q c) s = .next { u.closeWindow c with bus := i.word } ∧
      u.queue q = { s.queue q with items := others
                                   pend := (s.queue q).pend ++ [(cellOfPair (pairOfCore c), i)] } ∧
      u.pair (pairOfCore c) = { s.pair (pairOfCore c) with
        opened := { (s.pair (pairOfCore c)).opened with pop := some q } } ∧
      (∀ j, j ≠ q.val → u.queue j = s.queue j) ∧ (∀ p, p ≠ pairOfCore c → u.pair p = s.pair p) ∧
      { u with queues := s.queues, pairs := s.pairs } = s) ∧
    (s.isSplit (pairOfCore c) = false → ((s.pair (pairOfCore c)).closed ≠ [] ∨
      (s.pair (pairOfCore c)).opened.pop ≠ none ∨ 8 ≤ (s.queue q).pend.length) → exec (.queuePop q c) s = .next s)) ∧
  (∀ (s : State) (q : Fin 1024) (c : CoreId), s.leads c = false → exec (.queuePop q c) s = .next s) ∧
  (∀ (s : State) (q : Fin 1024) (c : CoreId), s.serves q = false → s.leads c = true →
    s.isSplit (pairOfCore c) = true → exec (.queuePop q c) s = .next { s with bus := 0 })

/-- Queues take, hold and lose items. -/
def Obligations.EventsEnterTheirQueues : Prop :=
  (∀ (s : State) (src : SourceId), (s.source src).backlog = [] → ∃ t, exec (.eventPush src) s = .next t ∧
    (t.source src).backlog = [] ∧ (∀ j, j ≠ src.val → t.source j = s.source j) ∧ { t with sources := s.sources } = s) ∧
  (∀ (s : State) (src : SourceId) (i : SrcItem), 0x400 ≤ src.val →
    s.itemPayload src i =
      (some (i.payload.toNat + if src.val < 0x800 then (s.queue (src - 0x400)).items.length else 0), s)) ∧
  (∀ (s : State) (src : SourceId) (i : SrcItem), s.heads src = [i] →
    let q := (s.route src i).1
    let w := s.waitsHere src
    let x := s.source src
    (s.canPush src i = false → exec (.eventPush src) s = .next w) ∧
    (s.canPush src i = true → (s.queue q).cfg.capacity ≤ (s.queue q).count → tabFind x.fullAt q = none →
      ∃ t, exec (.eventPush src) s = .next t ∧ OnlyQueue { s with sources := t.sources } t q ∧
        t.queue q = { s.queue q with fullSeen := true, fullWaits := satAdd (s.queue q).fullWaits 1 } ∧
        tabFind (t.source src).fullAt q = some s.now ∧ (t.source src).backlog = x.backlog ∧
        ∀ j, j ≠ src.val → t.source j = s.source j) ∧
    ((s.queue q).cfg.capacity ≤ (s.queue q).count → tabFind x.fullAt q ≠ none →
      exec (.eventPush src) s = .next w) ∧
    (s.canPush src i = true → (s.queue q).count < (s.queue q).cfg.capacity → s.waitsBefore q src = true →
      (tabFind x.fullAt q ≠ none ∨ tabFind x.lostAt q ≠ none → exec (.eventPush src) s = .next w) ∧
      (tabFind x.fullAt q = none → tabFind x.lostAt q = none →
        ∃ t, exec (.eventPush src) s = .next t ∧ OnlyQueue { s with sources := t.sources } t q ∧
          t.queue q = { s.queue q with lostNext := (s.queue q).lostNext + 1 } ∧
          tabFind (t.source src).lostAt q = some (s.queue q).lostNext ∧ (t.source src).backlog = x.backlog ∧
          ∀ j, j ≠ src.val → t.source j = s.source j))) ∧
  (∀ (s : State) (src : SourceId) (i : SrcItem) (before after : List SrcItem) (n : Nat) (u : State),
    let q := (s.route src i).1
    let link := if src.val < 0x400 then i.entry else none
    s.heads src = before ++ i :: after → (∀ j ∈ before, s.canPush src j = false) → s.canPush src i = true →
    (s.queue q).count < (s.queue q).cfg.capacity → s.waitsBefore q src = false →
    (s.waitsHere src).itemPayload src i = (some n, u) →
      ∃ t, exec (.eventPush src) s = .next t ∧
        (t.queue q).items = (u.queue q).items ++
          [{ word := pack [(63, 1), (60, (s.route src i).2.1), (48, src), (0, n)], ord := (u.queue q).ordNext
             entry := link }] ∧
        (t.queue q).ordNext = (u.queue q).ordNext + 1 ∧ (t.queue q).pend = (u.queue q).pend ∧
        (∀ j, j ≠ q → t.queue j = u.queue j) ∧
        t.source src = { u.source src with
          backlog := (u.source src).backlog.erase i, fullAt := tabErase (u.source src).fullAt q
          lostAt := tabErase (u.source src).lostAt q } ∧
        (∀ j, j ≠ src.val → t.source j = u.source j) ∧ (link = none → t.io = u.io) ∧
        { t with queues := u.queues, sources := u.sources, io := { t.io with journal := u.io.journal } } = u) ∧
  (∀ (s : State) (q : Fin 1024), ∃ t, exec (.queueReset q) s = .next t ∧ OnlyQueue { t with queues := s.queues } t q ∧
    t.queue q = { s.queue q with
      items := [], pend := [], stale := false, staleAt := none, staleDone := false, heldExpiry := false
      expiring := false, rose := false, resetSeen := true, resets := satAdd (s.queue q).resets 1 } ∧
    ((∀ j, (s.entry j).ring < 1024) → ∀ src, 0x400 ≤ src → ¬ (0x9D0 ≤ src ∧ src ≤ 0x9D2) → src ≠ 0x400 + q.val →
      (s.source src).queue.toNat ≠ q → t.source src = s.source src) ∧
    { t with queues := s.queues, sources := s.sources, rings := s.rings, io := s.io } = s) ∧
  (∀ (s : State) (q : Fin 1024) (ue : Bool), ∃ t, exec (.queuePointerFault q ue) s = .next t ∧
    (t.queue q).items = [] ∧ (t.queue q).pend = [] ∧ (t.queue q).resetSeen = true ∧
    (t.queue q).itemUe = ((s.queue q).itemUe || ue) ∧ (t.queue q).ptrMismatch = ((s.queue q).ptrMismatch || !ue) ∧
    (t.rep (reporterOf (cellNo 0x0C q) 1)).fault = true ∧ (∀ j, j ≠ q.val → t.queue j = s.queue j) ∧
    { t with queues := s.queues, sources := s.sources, rings := s.rings, io := s.io, tansy := s.tansy } = s) ∧
  (∀ (s : State) (q : Fin 1024), ((s.queue q).staleAt = none ∨ ∃ n, (s.queue q).staleAt = some n ∧ s.now < n) →
    exec (.staleTimerExpiry q) s = .next s) ∧
  (∀ (s : State) (q : Fin 1024) (n : Nat), (s.queue q).staleAt = some n → n ≤ s.now →
    ∃ t, exec (.staleTimerExpiry q) s = .next t ∧ OnlyQueue s t q ∧
      t.queue q = { s.queue q with staleAt := none, expiring := true }) ∧
  (∀ (s : State) (q : Nat), (s.queue q).expiring = true → (s.queue q).heldExpiry = false → (s.queue q).rose = false →
    let t := s.settleQueue q
    ((s.queue q).items ≠ [] → OnlyQueue { s with sources := t.sources } t q ∧
      t.queue q = { s.queue q with
        stale := true, staleDone := true, staleAt := none, expiring := false
        staleNotices := satAdd (s.queue q).staleNotices 1 } ∧
      ((s.queue q).cfg.noticeOn = false → t.sources = s.sources) ∧ ∀ j, j ≠ 0x400 + q → t.source j = s.source j) ∧
    ((s.queue q).items = [] → OnlyQueue s t q ∧
      t.queue q = { s.queue q with expiring := false, heldExpiry := decide (0 < (s.queue q).pend.length) }))

/-- Timer expiries (R457), and the commands of queues, sources and timers. -/
def Obligations.TimersAndQueueCommands : Prop :=
  (∀ (s : State) (n : Fin 64), ((s.timer n).compare = 0 ∨ s.clock.tb.toNat < (s.timer n).compare.toNat) →
    exec (.timerExpiry n) s = .next s) ∧
  (∀ (s : State) (n : Fin 64), (s.timer n).compare ≠ 0 → (s.timer n).compare.toNat ≤ s.clock.tb.toNat →
    let x := s.timer n
    ∃ t, exec (.timerExpiry n) s = .next t ∧ (t.timer n).expired = true ∧ (t.timer n).period = x.period ∧
      (t.timer n).owner = x.owner ∧ (t.timer n).lastCompare = x.compare.setWidth 32 ∧
      (x.period = 0 → (t.timer n).compare = 0 ∧ (t.timer n).missed = x.missed) ∧
      (∀ k, 0 < x.period → s.clock.tb.toNat < x.compare.toNat + k * x.period →
        x.compare.toNat + (k - 1) * x.period ≤ s.clock.tb.toNat →
        (t.timer n).compare = x.compare + BitVec.ofNat 64 (k * x.period) ∧
        (t.timer n).missed.toNat = min 0xFFFF (x.missed.toNat + (k - 1))) ∧
      (∀ j, j ≠ n.val → t.timer j = s.timer j) ∧ (t.source (0x880 + n.val)).backlog ≠ [] ∧
      (∀ j, j ≠ 0x880 + n.val → t.source j = s.source j) ∧
      { t with timers := s.timers, sources := s.sources } = s) ∧
  (∀ (s : State) (pk : Pkt) (c src q prio : Nat) (on : Bool), Admitted opRouteSet pk c s →
    wordAt pk.params 0 = BitVec.ofNat 64 (src + q * 2 ^ 16 + prio * 2 ^ 28 + (if on then 2 ^ 32 else 0)) →
    src < 4096 → q < 1024 → prio < 8 → sourceExists src = true → 0x400 ≤ src →
    ¬ (0x9D0 ≤ src ∧ src ≤ 0x9D2) → (pk.auth = 0 → s.sourceOf pk.partition.toNat src = true) →
    (s.queue q).owner = some (s.sourcePart src) →
    ∃ u t, exec (.routeSet pk) s = .next t ∧ Answered s u t pk 0x0700 0 [] ∧
      { u.source src with fullAt := (s.source src).fullAt, lostAt := (s.source src).lostAt } =
        { s.source src with queue := BitVec.ofNat 10 q, prio := BitVec.ofNat 3 prio, enable := on } ∧
      (∀ k, k ≠ q → tabFind (u.source src).fullAt k = none ∧ tabFind (u.source src).lostAt k = none) ∧
      (∀ j, j ≠ src → u.source j = s.source j) ∧ { u with sources := s.sources } = s) ∧
  (∀ (s : State) (pk : Pkt) (c thresh stale : Nat) (on : Bool), Admitted opQueueTune pk c s →
    wordAt pk.params 0 = BitVec.ofNat 64 (thresh + stale * 2 ^ 16 + (if on then 2 ^ 32 else 0)) →
    1 ≤ thresh → thresh ≤ 256 → thresh ≤ (s.queue (cellIndex c)).cfg.capacity → stale < 2 ^ 16 →
    ∃ u t, exec (.queueTune pk) s = .next t ∧ Answered s u t pk 0x0701 0 [] ∧ OnlyQueue s u (cellIndex c) ∧
      u.queue (cellIndex c) = { s.queue (cellIndex c) with nextTune := some (thresh, stale, on) }) ∧
  (∀ (s : State) (pk : Pkt) (c : Nat), Admitted opTimerSet pk c s →
    let n := cellIndex c
    let cmp := wordAt pk.params 0
    let per := (wordAt pk.params 1).toNat
    cmp.toNat % 10 = 0 → per % 10 = 0 → (per = 0 ∨ 1000 ≤ per) → per ≤ 10 ^ 12 →
    ∃ u t, exec (.timerSet pk) s = .next t ∧ Answered s u t pk 0x0702 0 [] ∧
      (u.timer n).next = some (cmp, per) ∧
      (∀ j, j ≠ n → u.timer j = s.timer j) ∧ { u with timers := s.timers, sources := s.sources } = s ∧
      (((s.timer n).compare = 0 ∨ s.clock.tb.toNat < (s.timer n).compare.toNat) →
        u.timer n = { s.timer n with next := some (cmp, per) } ∧ u.sources = s.sources)) ∧
  (∀ (s : State) (n per : Nat) (cmp : Word), (s.timer n).next = some (cmp, per) →
    (s.timerTick n).timer n = { s.timer n with compare := cmp, period := per, expired := false, next := none }) ∧
  (∀ (s : State) (pk : Pkt) (c : Nat), Admitted opSourceQuery pk c s →
    let src := (wordAt pk.params 0).toNat
    src < 4096 → sourceExists src = true → (pk.auth = 0 → s.sourceOf pk.partition.toNat src = true) →
    ∃ t, exec (.sourceQuery pk) s = .next t ∧ Answered s s t pk 0x0703 0 (wordBytes (s.srcRoute src)))

/-- The commands of partitions and their mailboxes. -/
def Obligations.PartitionsHoldWhatTheyAreGiven : Prop :=
  (∀ (s : State) (pk : Pkt) (c : Nat), Admitted opAssign pk c s →
    let n := cellIndex c
    let h := (Req.mk pk c 0x0800).share
    allZero (slice pk.params 1 3) = true → s.rangeKnown h = true → h.extrasOk = true → s.assignFault n h = none →
    (h.kind = 1 ∨ h.kind = 2 → (s.procsOf n).length < s.procsMax n ∧ ∀ p ∈ s.procsOf n, p.num ≠ h.a) →
    (h.kind = 3 → ∃ u t, exec (.assign pk) s = .next t ∧ Answered s u t pk 0x0800 1 [] ∧
      AddsMemJob s u (.assign n true h.range (askerOf 0x0800 pk))) ∧
    (h.kind ≠ 3 → ∃ u t, exec (.assign pk) s = .next t ∧ Answered s u t pk 0x0800 0 [] ∧
      (∀ i ∈ h.range, n ∈ u.holders h.kind i) ∧
      (∀ k i, k ≠ h.kind ∨ i ∉ h.range → u.holders k i = s.holders k i) ∧
      (h.kind = 5 → ∀ i ∈ h.range, (u.queue i).cfg.capacity = h.a) ∧
      (h.kind = 8 → ∀ i ∈ h.range, ⟨i, n, h.a, 0⟩ ∈ u.parts.ports) ∧
      (h.kind = 9 → ∀ i ∈ h.range, ⟨i, n, h.a, h.b⟩ ∈ u.parts.engines) ∧
      { u with io := s.io, queues := s.queues, sources := s.sources, timers := s.timers, parts := s.parts } = s)) ∧
  (∀ (s : State) (pk : Pkt) (c : Nat), Admitted opRevoke pk c s →
    let n := cellIndex c
    let h := (Req.mk pk c 0x0801).share
    allZero (slice pk.params 1 3) = true → s.rangeKnown h = true → h.a = 0 → h.b = 0 → s.revokeFault n h = none →
    (h.kind = 3 → ∃ u t, exec (.revoke pk) s = .next t ∧ Answered s u t pk 0x0801 1 [] ∧
      AddsMemJob s u (.assign n false h.range (askerOf 0x0801 pk))) ∧
    (h.kind ≠ 3 → ∃ u t, exec (.revoke pk) s = .next t ∧ Answered s u t pk 0x0801 0 [] ∧
      (∀ i ∈ h.range, n ∉ u.holders h.kind i) ∧
      (∀ i, i ∉ h.range → u.holders h.kind i = s.holders h.kind i) ∧
      (h.kind = 1 → ∀ i ∈ h.range, u.core (2 * i) = Core.reset) ∧
      (h.kind = 2 → ∀ i ∈ h.range, u.core i = Core.reset) ∧
      (h.kind = 9 → ∀ i ∈ h.range, ∀ k ∈ (u.engine i).slots, k.2.map KeySlot.part ≠ some n) ∧
      (4 ≤ h.kind →
        { u with io := s.io, queues := s.queues, sources := s.sources, timers := s.timers, parts := s.parts
                 engines := s.engines } = s))) ∧
  (∀ (s v : State) (job n : Nat) (take : Bool) (gs : List Nat) (who : Asker),
    s.takeMemJob job = some (.assign n take gs who, v) → NoneAsleep s (.assign n take gs who) →
    ∃ t, exec (.assignRevokeComplete job) s = .next t ∧ Posted s t who 0 [] ∧
      (∀ g ∈ gs, t.owner g = if take then some n else none) ∧ (∀ g, g ∉ gs → t.owner g = s.owner g) ∧
      { t with rings := s.rings, cells := s.cells, caches := s.caches, mem := s.mem, sources := s.sources
               parts := s.parts, tansy := s.tansy } = s) ∧
  (∀ (s : State) (pk : Pkt) (c : Nat), Admitted opShareSet pk c s →
    let n := cellIndex c
    let h := (Req.mk pk c 0x0802).share
    let value := if h.kind = 5 then h.a else h.b
    let fits := h.range.all fun i => s.fits h.kind n value i
    let left := s.parts.shareJobs.filter fun j => !j.meets n h
    allZero (slice pk.params 1 3) = true → (h.kind = 5 ∨ (h.kind = 8 ∨ h.kind = 9) ∧ h.count = 1) →
    s.rangeKnown h = true → h.extrasOk = true → (∀ i ∈ h.range, n ∈ s.holders h.kind i) →
    ∃ u t, exec (.shareSet pk) s = .next t ∧ Answered s u t pk 0x0802 (if fits then 0 else 1) [] ∧
      u.parts.shareJobs = left ++ (if fits then []
        else [{ kind := h.kind, first := h.first, count := h.count, value := value, part := n
                who := askerOf 0x0802 pk }]) ∧
      (h.kind = 5 → ∀ i ∈ h.range, u.queue i = { s.queue i with cfg := { (s.queue i).cfg with capacity := h.a } }) ∧
      (h.kind = 8 → ∀ p ∈ u.parts.ports, p.unit = h.first → p.part = n → p.weight = h.a) ∧
      (h.kind = 9 → ∀ e ∈ u.parts.engines, e.unit = h.first → e.part = n → e.weight = h.a ∧ e.depth = h.b) ∧
      (∀ i, i ∉ h.range → u.queue i = s.queue i) ∧
      (u.rings = s.rings ∨ left ≠ s.parts.shareJobs) ∧
      { u with rings := s.rings, queues := s.queues, parts := s.parts } = s) ∧
  (∀ (s : State) (job : Nat), takeAt s.parts.shareJobs job = none → exec (.shareSetComplete job) s = .next s) ∧
  (∀ (s : State) (job : Nat) (j : ShareJob) (rest : List ShareJob),
    takeAt s.parts.shareJobs job = some (j, rest) →
    let fits := ((List.range j.count).map (j.first + ·)).all fun i => s.fits j.kind j.part j.value i
    (fits = false → exec (.shareSetComplete job) s = .next s) ∧
    (fits = true → ∃ t, exec (.shareSetComplete job) s = .next t ∧ t.parts.shareJobs = rest ∧ Posted s t j.who 0 [] ∧
      { t with rings := s.rings, parts := { t.parts with shareJobs := s.parts.shareJobs } } = s)) ∧
  (∀ (s : State) (n : Fin 64) (i : Instr) (src : Nat),
    (i = .mboxBellTEvent n ∧ src = 0x800 + 2 * n.val ∨ i = .mboxBellMEvent n ∧ src = 0x801 + 2 * n.val) →
    ∃ t e, exec i s = .next t ∧ (t.source src).backlog = [e] ∧
      e.payload.toNat = min 0xFFFF ((((s.source src).backlog.head?).map fun o => o.payload.toNat).getD 0 + 1) ∧
      (∀ r, r ≠ src → t.source r = s.source r) ∧ { t with sources := s.sources } = s) ∧
  (∀ (s : State) (n : Fin 64) (i : Instr) (chosen : ProcShare → Bool),
    (i = .mboxBellTSev n ∧ chosen = (fun p => p.part == n.val) ∨
      i = .mboxBellMSev n ∧ chosen = (fun p => p.part == 0 && decide (p.num < 64) &&
        ((s.part n).cfg.mgrProcs.getLsbD p.num))) →
    ∃ t, exec i s = .next t ∧
      (∀ p ∈ s.parts.procs, chosen p = true → s.leads p.core = true → (s.core p.core).wait = .none →
        (t.core p.core).arch = { (s.core p.core).arch with ps := (s.core p.core).arch.ps ||| 0x200#64 }) ∧
      (∀ k, (∀ p ∈ s.parts.procs, chosen p = true → p.core ≠ k) → t.core k = s.core k) ∧
      { t with cells := s.cells, cores := s.cores, pairs := s.pairs } = s)

/-- The commands and events of the engines. -/
def Obligations.EnginesServeTheirRequests : Prop :=
  (∀ (s : State) (i : Instr) (code kind : Nat) (pk : Pkt) (c : Nat) (share : UnitShare),
    engineCommand i = some (code, kind, pk) → Admitted (engineOp code kind) pk c s →
    let e := engineOf c
    let part := pk.partition.toNat
    let k := blkOf pk.params
    s.engineShare e part = some share → cellKind c = kind → allZero (slice pk.params 39 1) = true →
    allZero (slice pk.params 56 8) = true → numAt pk.params 38 1 < 8 → k.area % 256 = 0 →
    ¬ (streams code = true ∧ k.first = true ∧ k.last = false ∧ k.area = 0) → k.slotOk = true → k.modeOk code = true →
    k.lensOk code = true → k.overlaps code = false → (s.cst c = .running ∨ s.cst c = .asleep) →
    s.engineLoad e part < share.depth → (∀ types, k.keyTypes code = some types → s.slotFault e part k types = 0) →
    (code = 0x0918 ∨ code = 0x0919 → (s.freeSlot e k.alg).isSome = true) →
    ∃ u t, exec i s = .next t ∧ Answered s u t pk code 1 [] ∧
      u.engine e = { s.engine e with queue := (s.engine e).queue ++
        [{ part := part, op := BitVec.ofNat 16 code, block := pk.params, who := askerOf code pk
           armed := s.engineLoad e part == 0 && s.limitNow e pk.params }] } ∧
      (∀ j, j ≠ e → u.engine j = s.engine j) ∧ (∀ j, j ≠ c → u.cell j = s.cell j) ∧
      (s.cst c = .asleep → u.cell c = { s.cell c with waking := true }) ∧
      (s.cst c = .running → u.cell c = { s.cell c with idleFrom := s.now }) ∧
      { u with engines := s.engines, cells := s.cells } = s) ∧
  (∀ (s : State) (e : Fin 8),
    ((s.cst (engineCell e) ≠ .running ∧ s.cst (engineCell e) ≠ .draining) ∨ s.pins.thermtrip = true ∨
      (s.nextRequest e).1 = none) →
    exec (.engineCompletion e) s = .next s) ∧
  (∀ (s v : State) (e : Fin 8) (q : EngReq), (s.cst (engineCell e) = .running ∨ s.cst (engineCell e) = .draining) →
    s.pins.thermtrip = false → s.nextRequest e = (some q, v) → (∀ n, (s.port n).msiWaits = []) →
    let x := v.runRequest e q
    let slot := (blkOf q.block).slot
    (x.status = stalled → exec (.engineCompletion e) s = .next { s with cells := x.state.cells }) ∧
    (x.status ≠ stalled → ∃ t, exec (.engineCompletion e) s = .next t ∧
      (t.engine e).queue.length + 1 = (s.engine e).queue.length ∧
      (t.engine e).requests = satAdd (s.engine e).requests 1 ∧
      (t.ring q.who.ring).outbox = (s.ring q.who.ring).outbox ++
        [{ op := q.who.op, tag := q.who.tag, status := BitVec.ofNat 16 x.status, detail := BitVec.ofNat 32 x.detail
           partition := q.who.partition, completion := true, checkOnly := false, results := pad8 x.results
           entry := none }] ∧
      (∀ r, r ≠ q.who.ring → t.ring r = s.ring r) ∧ (∀ j, j ≠ e.val → t.engine j = s.engine j) ∧
      ((s.engine e).entropyDead = true → (q.op = 0x0913 ∨ q.op = 0x0915 ∨ q.op = 0x0919) → x.status = 0x0527) ∧
      (q.op = 0x091A → x.status = 0 ∧ tabGet none (t.engine e).slots slot = none ∧
        ∀ j, j ≠ slot → tabGet none (t.engine e).slots j = tabGet none (s.engine e).slots j) ∧
      (x.status = 0x0521 ∨ x.status = 0x0525 →
        (t.engine e).checkSeen = true ∧ (t.engine e).checkFails = satAdd (s.engine e).checkFails 1) ∧
      (x.status = 0x0522 →
        (t.engine e).limitSeen = true ∧ (t.engine e).limitStops = satAdd (s.engine e).limitStops 1) ∧
      { t with cells := s.cells, rings := s.rings, caches := s.caches, mem := s.mem, sources := s.sources
               io := s.io, tansy := s.tansy, engines := s.engines, areas := s.areas, free := s.free } = s)) ∧
  (∀ (s : State) (e : Fin 4), ∃ t, exec (.entropyTestFail e) s = .next t ∧
    t.engine (4 + e.val) = { s.engine (4 + e.val) with entropyFail := true, entropyDead := true } ∧
    (t.rep (reporterOf (cellNo 8 e) 2)).fault = true ∧ (∀ j, j ≠ 4 + e.val → t.engine j = s.engine j) ∧
    { t with engines := s.engines, tansy := s.tansy } = s)

/-- The frames of the Knangefa link. -/
def Obligations.FramesFollowTheReceivePoint : Prop :=
  (∀ (s : State) (i : Instr) (p : PortId) (f : Frame), frameOf i = some (p, f) → s.isUp p = false →
    exec i s = .next s) ∧
  (∀ (s : State) (i : Instr) (p : PortId) (f : Frame), (i = .op p f ∨ i = .resolve p f ∨ i = .sync p f) →
    s.isUp p = true → ¬ ForMembership s p f →
    ∃ t, exec i s = .next t ∧ OnlyPort (s.abandonSleep (groupOfPort p)) t p ∧ t.port p = heard s p 0) ∧
  (∀ (s : State) (p : PortId) (f : Frame) (op : DevOp), s.isUp p = true → s.partnerFor p f = none →
    (s.conv (frameCtx f)).unacked = [] → s.opFor p f = some op → (op.kind = 1 ∨ op.kind = 4) → atReceivePoint s f →
    f.payload ≠ [] → op.here + f.payload.length ≤ op.count →
    ∃ t g, exec (.data p f) s = .next t ∧ (t.conv (frameCtx f)).rx = some (f.seq + 1) ∧
      (t.staging p).inq = (s.staging p).inq ++
        [{ ctx := frameCtx f, addr := 0, bytes := f.payload, credits := creditsFor f.payload.length }] ∧
      (t.run (frameCtx f)).op = some { op with here := op.here + f.payload.length } ∧
      SentFrame s t p .ack g ∧ g.ack = f.seq ∧ frameCtx g = frameCtx f ∧ { t with io := s.io } = s) ∧
  (∀ (s : State) (p : PortId) (f : Frame) (r : BitVec 32), s.isUp p = true → s.partnerFor p f = none →
    (s.conv (frameCtx f)).unacked = [] → f.resync = false → (s.conv (frameCtx f)).rx = some r → r ≠ f.seq →
    ∃ t, exec (.data p f) s = .next t ∧ (t.conv (frameCtx f)).rx = some r ∧ t.staging p = s.staging p ∧
      t.run (frameCtx f) = s.run (frameCtx f) ∧ { t with io := s.io } = s) ∧
  (∀ (s : State) (p : PortId) (f : Frame) (op : DevOp) (e : SpanEntry), s.isUp p = true →
    s.lineFor p f = none → (s.conv (frameCtx f)).unacked = [] → s.opFor p f = some op → atReceivePoint s f →
    op.entries = [e] → e.crcStore = false → (s.run (frameCtx f)).result = none →
    ((s.staging p).inq.any fun c => c.ctx = frameCtx f) = false →
    let st := f.payload.getD 0 0
    let long := (f.payload.getD 1 0).getLsbD 0
    let moved := numAt f.payload 4 4
    ∃ t, exec (.end_ p f) s = .next t ∧ (t.conv (frameCtx f)).rx = some (f.seq + 1) ∧
      (st.getLsbD 7 = true → (t.run (frameCtx f)).result = some (0x0507, BitVec.ofNat 32 st.toNat)) ∧
      (st.getLsbD 7 = false → (moved < op.count ∨ long = true) → e.tolerant = false →
        (t.run (frameCtx f)).result = some (0x0505, 0)) ∧
      (st.getLsbD 7 = false → op.count ≤ moved → long = false → op.excess = false → e.last = true →
        (t.run (frameCtx f)).result = some (0, 0)) ∧
      { t with io := s.io } = s) ∧
  (∀ (s : State) (p : PortId) (f : Frame), s.isUp p = true → (s.run (frameCtx f)).op = none →
    (∀ q, (s.staging q).outq = []) →
    ∃ t, exec (.ack p f) s = .next t ∧
      t.conv (frameCtx f) = { s.conv (frameCtx f) with
        unacked := (s.conv (frameCtx f)).unacked.filter fun u => above u.frame.seq f.ack } ∧
      t.port p = heard s p f.credit.toNat ∧
      (∀ c ∈ t.io.partners, c.port = p.val → c.vc = frameCtx f → ∀ u ∈ c.unacked, above u.frame.seq f.ack = true) ∧
      { t with io := s.io } = s) ∧
  (∀ (s : State) (p : PortId) (f : Frame), s.isUp p = true → (s.ctx (frameCtx f)).port = p.val →
    (∀ c ∈ s.io.partners, ¬ (c.port = p.val ∧ c.vc = frameCtx f)) →
    ((s.conv (frameCtx f)).unacked = [] →
      ∃ t, exec (.nak p f) s = .next t ∧ OnlyPort (s.abandonSleep (groupOfPort p)) t p ∧ t.port p = heard s p f.credit.toNat) ∧
    (∀ u, (s.conv (frameCtx f)).unacked = [u] → above u.frame.seq f.ack = true → u.ty ≠ .data →
      (s.resentNow u = true → ∃ t, exec (.nak p f) s = .next t ∧ OnlyPort (s.abandonSleep (groupOfPort p)) t p ∧
        t.port p = heard s p f.credit.toNat) ∧
      (s.resentNow u = false → u.times ≤ (s.port p).cfg.retryMax → ∃ t g, exec (.nak p f) s = .next t ∧ SentFrame s t p u.ty g ∧
        g.seq = u.frame.seq ∧ g.payload = u.frame.payload ∧
        (t.conv (frameCtx f)).unacked = [{ u with tick := s.now, times := u.times + 1 }] ∧
        (t.port p).resends = satAdd (s.port p).resends 1 ∧ { t with io := s.io } = s) ∧
      (s.resentNow u = false → (s.port p).cfg.retryMax < u.times → ∃ t, exec (.nak p f) s = .next t ∧ (t.port p).exhausted = true ∧
        { t with io := s.io } = s))) ∧
  (∀ (s : State) (x : Nat), x < 131072 → (s.conv x).syncPort = none →
    let p := (s.ctx x).port
    ((s.conv x).unacked = [] → exec (.rtoExpiry x) s = .next s) ∧
    (∀ u l, (s.conv x).unacked = u :: l →
      (s.now < u.tick + (s.port p).cfg.rto → exec (.rtoExpiry x) s = .next s) ∧
      (s.resentNow u = true → exec (.rtoExpiry x) s = .next s) ∧
      (u.tick + (s.port p).cfg.rto ≤ s.now → s.resentNow u = false → ∃ t, exec (.rtoExpiry x) s = .next t ∧
        ((s.port p).cfg.retryMax < u.times → (t.port p).exhausted = true) ∧
        (u.times ≤ (s.port p).cfg.retryMax → (t.port p).resends = satAdd (s.port p).resends 1) ∧
        { t with cells := s.cells, io := s.io } = s))) ∧
  (∀ (s : State) (k : Nat), s.io.partners[k]? = none → exec (.rtoExpiry (131072 + k)) s = .next s) ∧
  (∀ (s : State) (k : Nat) (c : PartnerConv), s.io.partners[k]? = some c → c.syncing = none →
    (c.unacked = [] → exec (.rtoExpiry (131072 + k)) s = .next s) ∧
    (∀ u l, c.unacked = u :: l →
      (s.now < u.tick + (s.port c.port).cfg.rto → exec (.rtoExpiry (131072 + k)) s = .next s) ∧
      (u.tick + (s.port c.port).cfg.rto ≤ s.now → s.resentNow u = false →
        ∃ t, exec (.rtoExpiry (131072 + k)) s = .next t ∧
        ((s.port c.port).cfg.retryMax < u.times → (t.port c.port).exhausted = true) ∧
        (u.times ≤ (s.port c.port).cfg.retryMax →
          (t.port c.port).resends = satAdd (s.port c.port).resends 1) ∧
        { t with cells := s.cells, io := s.io } = s))) ∧
  (∀ (s : State) (p : PortId) (f : Frame), s.isUp p = true → s.resolvedEntry f = none →
    ∃ t, exec (.resolved p f) s = .next t ∧ OnlyPort (s.abandonSleep (groupOfPort p)) t p ∧ t.port p = heard s p f.credit.toNat) ∧
  (∀ (s : State) (p : PortId) (f : Frame) (j : Nat), s.isUp p = true → s.resolvedEntry f = some j →
    ∃ t k, exec (.resolved p f) s = .next t ∧ t.io.copyOf = some k ∧ j ∈ k.unread ∧ j ∉ k.resolving ∧
      (tabGet JEntry.free k.entries j).status = (if f.payload.getD 16 0 = 1 then 0x050B
        else if (f.payload.getD 17 0).getLsbD 7 then 0x0507 else 0) ∧
      { t with io := s.io, sources := s.sources, mem := s.mem, caches := s.caches, tansy := s.tansy
               cells := s.cells, bundle := s.bundle } = s) ∧
  (∀ (s : State) (p : PortId) (f : Frame), s.isUp p = true →
    ((s.conv (frameCtx f)).syncPort ≠ some p.val →
      (∀ c, s.partner (s.originOf p) (frameCtx f) = some c → c.syncing = none) →
      ∃ t, exec (.synced p f) s = .next t ∧ OnlyPort (s.abandonSleep (groupOfPort p)) t p ∧ t.port p = heard s p f.credit.toNat) ∧
    ((s.conv (frameCtx f)).syncPort = some p.val → ∃ t, exec (.synced p f) s = .next t ∧
      (t.conv (frameCtx f)).synced = some (p.val, (s.port p).epoch) ∧
      (t.conv (frameCtx f)).high = (if (f.payload.getD 4 0).getLsbD 0 then (s.conv (frameCtx f)).high
        else some (BitVec.ofNat 32 (numAt f.payload 0 4))) ∧ { t with cells := s.cells, io := s.io } = s)) ∧
  (∀ (s : State) (p : PortId) (f : Frame), ForMembership s p f →
    let o := s.originOf p
    let old := s.partner o (frameCtx f)
    (¬ (f.resume = true ∧ old.bind PartnerConv.latest = some f.seq) →
      (∀ c, old = some c → above f.seq c.high = true) → numAt f.payload 2 1 ≠ 1 → numAt f.payload 2 1 ≠ 4 →
      numAt f.payload 4 4 ≠ 0 →
      ∃ t c g, exec (.op p f) s = .next t ∧ t.partner o (frameCtx f) = some c ∧ c.high = f.seq ∧
        c.latest = some f.seq ∧ c.open_ = true ∧ c.count = numAt f.payload 4 4 ∧ c.received = [] ∧
        c.rx = f.seq + 1 ∧ c.port = p.val ∧ SentFrame s t p .ack g ∧ g.ack = f.seq ∧ { t with io := s.io } = s) ∧
    (∀ c, old = some c → f.resume = false → above f.seq c.high = false →
      ∃ t g, exec (.op p f) s = .next t ∧ t.io.partners = s.io.partners ∧ SentFrame s t p .ack g ∧
        g.ack = c.rx - 1 ∧ { t with io := s.io } = s) ∧
    (∃ t g, exec (.sync p f) s = .next t ∧ t.io.partners = s.io.partners ∧ SentFrame s t p .synced g ∧
      (∀ c, old = some c → g.payload = beBytes 4 c.high.toNat ++ zeros 4) ∧
      (old = none → g.payload = zeros 4 ++ [1, 0, 0, 0]) ∧ { t with io := s.io } = s)) ∧
  (∀ (s : State) (p : PortId) (f : Frame), ForMembership s p f →
    let o := wordAt f.payload 0
    let vc := numAt f.payload 8 4
    let seq := BitVec.ofNat 32 (numAt f.payload 12 4)
    let old := s.partner o vc
    (∀ c, old = some c → c.latest = some seq → c.open_ = false →
      ∃ t g, exec (.resolve p f) s = .next t ∧ t.io.partners = s.io.partners ∧ SentFrame s t p .resolved g ∧
        g.payload = f.payload.take 16 ++ [0, c.status] ++ zeros 6 ∧ { t with io := s.io } = s) ∧
    (old.bind PartnerConv.latest ≠ some seq →
      ∃ t c g, exec (.resolve p f) s = .next t ∧ t.partner o vc = some c ∧
        (∀ b, old = some b → c = { b with high := if above seq b.high then seq else b.high }) ∧
        (old = none → c.high = seq) ∧ SentFrame s t p .resolved g ∧
        g.payload = f.payload.take 16 ++ [1, 0] ++ zeros 6 ∧ { t with io := s.io } = s)) ∧
  (∀ (s : State) (p : PortId) (f : Frame), s.isUp p = true → s.partnerFor p f = none →
    ∃ t, exec (.abort p f) s = .next t ∧ OnlyPort (s.abandonSleep (groupOfPort p)) t p ∧ t.port p = heard s p f.credit.toNat) ∧
  (∀ (s : State) (p : PortId) (f : Frame) (c : PartnerConv), s.isUp p = true → s.partnerFor p f = some c →
    f.seq = (if f.resync then f.seq else c.rx) →
    (c.latest = some (BitVec.ofNat 32 (numAt f.payload 0 4)) →
      ∃ t d g, exec (.abort p f) s = .next t ∧ t.partner (s.originOf p) (frameCtx f) = some d ∧ d.open_ = false ∧
        SentFrame s t p .end_ g ∧ { t with io := s.io, free := s.free } = s) ∧
    ((s.conv (frameCtx f)).unacked = [] → c.received.length + f.payload.length < c.count →
      ∃ t d g, exec (.data p f) s = .next t ∧ t.partner (s.originOf p) (frameCtx f) = some d ∧
        d.received = c.received ++ f.payload ∧ d.rx = f.seq + 1 ∧ d.open_ = c.open_ ∧ SentFrame s t p .ack g ∧
        g.ack = f.seq ∧ { t with io := s.io } = s)) ∧
  (∀ (s : State) (p : PortId) (f : Frame) (c : PartnerConv), s.isUp p = true → s.lineFor p f = some c → f.resync = false →
    f.seq = c.rx → c.rx ≠ 0 →
    ∃ t d g, exec (.end_ p f) s = .next t ∧ t.partner (s.originOf p) (frameCtx f) = some d ∧ d.out = none ∧
      d.rx = f.seq + 1 ∧ SentFrame s t p .ack g ∧ g.ack = f.seq ∧ { t with io := s.io } = s)

/-- The links, Ethernet, root ports and loop tests. -/
def Obligations.PortsFollowTheirLinks : Prop :=
  -- link states
  (∀ (s : State) (p : PortId) (h : LinkMsg), (s.port p).link ≠ .init →
    (s.isUp p = false → exec (.hello p h) s = .next s) ∧
    (s.isUp p = true → ∃ t, exec (.hello p h) s = .next t ∧ OnlyPort s t p ∧
      t.port p = { s.port p with lastRx := s.now })) ∧
  (∀ (s : State) (p : PortId) (h : LinkMsg), (s.port p).link = .init →
    ∃ t, exec (.hello p h) s = .next t ∧
      (h.version ≠ 1 → OnlyPort s t p ∧
        t.port p = { s.port p with peer := some h, link := .down, linkAt := s.now, refused := true }) ∧
      (h.version = 1 → t.port p = { s.port p with
          peer := some h, link := .up, linkAt := s.now, lastRx := s.now, lastTx := s.now, quietAsked := false
          credits := h.credits.toNat, epoch := (s.port p).epoch + 1 } ∧
        t.bundle.portMismatch = (s.bundle.portMismatch || ((s.port p).cfg.bundle && !h.bundle)) ∧
        (∀ q, q ≠ p.val → t.port q = s.port q) ∧ { t with io := s.io, bundle := s.bundle } = s)) ∧
  (∀ (s : State) (p : PortId),
    ((s.port p).link ≠ .training → exec (.trainingComplete p) s = .next s) ∧
    ((s.port p).link = .training → ∃ t, exec (.trainingComplete p) s = .next t ∧ OnlyPort s t p ∧
      t.port p = { s.port p with link := .align, linkAt := s.now }) ∧
    ((s.port p).link = .training → s.now < (s.port p).linkAt + 10000000 → exec (.trainingTimeout p) s = .next s) ∧
    ((s.port p).link = .training → (s.port p).linkAt + 10000000 ≤ s.now →
      ∃ t, exec (.trainingTimeout p) s = .next t ∧ OnlyPort s t p ∧
        t.port p = { s.port p with link := .down, linkAt := s.now, retrain := true }) ∧
    ((s.port p).link = .down → (s.port p).retrain = true → (s.port p).linkAt + 1000000 ≤ s.now →
      ∃ t, exec (.trainingTimeout p) s = .next t ∧ OnlyPort s t p ∧
        t.port p = { s.port p with link := .training, linkAt := s.now, retrain := false }) ∧
    ((s.port p).link ≠ .align → exec (.alignTimeout p) s = .next s) ∧
    (∀ (corrected : Nat) (blocks : List (BitVec 64)) (frames : List Bytes),
      let u := s.countReceived p corrected blocks frames
      let bad := frames.filter badFrame
      OnlyPort s u p ∧ u.port p = { s.port p with
        fecCorr := satAdd (s.port p).fecCorr corrected
        crcErrors := satAdd (s.port p).crcErrors ((blocks.filter reservedBlock).length + bad.length)
        owed := (s.port p).owed + (bad.map frameCredits).sum } ∧
      ((s.port p).link ≠ .align ∨ (blocks.filter (· == alignBlock)).length < 3 →
        exec (.codewordLock ⟨p, corrected, blocks, frames⟩) s = .next u) ∧
      ((s.port p).link = .align → 3 ≤ (blocks.filter (· == alignBlock)).length → (s.port p).fromQuiet = false →
        ∃ t, exec (.codewordLock ⟨p, corrected, blocks, frames⟩) s = .next t ∧
        OnlyPort u t p ∧ t.port p = { u.port p with
          link := .init, linkAt := s.now, sent := (s.port p).sent ++ [.link 1 (s.linkMsg p)], lastTx := s.now }) ∧
      ((s.port p).link = .align → 3 ≤ (blocks.filter (· == alignBlock)).length → (s.port p).fromQuiet = true →
        (s.staging p).outq = [] →
        ∃ t, exec (.codewordLock ⟨p, corrected, blocks, frames⟩) s = .next t ∧ (t.port p).link = .up ∧
          (t.port p).fromQuiet = false ∧ (t.port p).sent = (s.port p).sent ++ inOrder (s.port p).waiting ∧
          (t.port p).waiting = [] ∧
          (s.cst (cellNo 5 (groupOfPort p)) = .asleep → t.cst (cellNo 5 (groupOfPort p)) = .running) ∧
          { t with cells := s.cells, io := s.io } = s)) ∧
    ((s.port p).link = .align → (s.port p).linkAt + 100000 ≤ s.now → ∃ t, exec (.alignTimeout p) s = .next t ∧
      OnlyPort s t p ∧
      t.port p = { s.port p with link := .training, linkAt := s.now, fromQuiet := false, waiting := [] }) ∧
    (s.isUp p = false → exec (.linkRxTimeout p) s = .next s ∧ exec (.codewordLockLoss p) s = .next s) ∧
    (s.isUp p = true → s.now < (s.port p).lastRx + 10000 → exec (.linkRxTimeout p) s = .next s) ∧
    (s.isUp p = true → (s.port p).lastRx + 10000 ≤ s.now →
      ∃ t, exec (.linkRxTimeout p) s = .next t ∧ LinkLeaves s t p) ∧
    (s.isUp p = true → ∃ t, exec (.codewordLockLoss p) s = .next t ∧ LinkLeaves s t p) ∧
    (∀ fs : List Frame, ∃ t, exec (.fecUncorrectable p fs) s = .next t ∧ OnlyPort s t p ∧
      t.port p = { s.port p with
        fecUncorr := true, fecBad := satAdd (s.port p).fecBad 1
        owed := (s.port p).owed + (fs.map fun f => creditsFor f.payload.length).sum }) ∧
    ((s.port p).link ≠ .quiet → exec (.partnerWakeSignal p) s = .next s) ∧
    ((s.port p).link = .quiet → ∃ t, exec (.partnerWakeSignal p) s = .next t ∧
      t.port p = { s.port p with link := .align, fromQuiet := true, linkAt := s.now } ∧
      (s.cst (cellNo 5 (groupOfPort p)) = .asleep → (t.cell (cellNo 5 (groupOfPort p))).waking = true) ∧
      { t with cells := s.cells, io := s.io } = s)) ∧
  -- LINK frames
  (∀ (s : State) (p : PortId) (i : Instr),
    (i = .keepalive p ∨ i = .loopAck p ∨ i = .loopReq p ∨ i = .loopEnd p ∨ i = .quietReq p ∨ i = .quietAck p ∨
      i = .keepaliveTimer p) → s.isUp p = false → exec i s = .next s) ∧
  (∀ (s : State) (p : PortId), s.isUp p = true →
    (∃ t, exec (.keepalive p) s = .next t ∧ OnlyPort s t p ∧
      t.port p = { s.port p with lastRx := s.now, quietAsked := false }) ∧
    (∃ t, exec (.loopAck p) s = .next t ∧ OnlyPort s t p ∧ t.port p = { s.port p with lastRx := s.now }) ∧
    (∃ t, exec (.loopReq p) s = .next t ∧ OnlyPort s t p ∧ t.port p = { s.port p with
      lastRx := s.now, loop := true, sent := (s.port p).sent ++ [.link 6 (s.linkMsg p)], lastTx := s.now }) ∧
    (∃ t, exec (.loopEnd p) s = .next t ∧ OnlyPort s t p ∧
      t.port p = { s.port p with lastRx := s.now, loop := false }) ∧
    (s.laneIdle p = false → ∃ t, exec (.quietReq p) s = .next t ∧ OnlyPort s t p ∧ t.port p = { s.port p with
      lastRx := s.now, sent := (s.port p).sent ++ [.link 2 (s.linkMsg p)], lastTx := s.now }) ∧
    (s.laneIdle p = true → ∃ t, exec (.quietReq p) s = .next t ∧ t.port p = { s.port p with
        lastRx := s.now, sent := (s.port p).sent ++ [.link 4 (s.linkMsg p)], lastTx := s.now, link := .quiet, linkAt := s.now
        quietAsked := false } ∧ { t with cells := s.cells, io := s.io } = s) ∧
    (((s.port p).quietAsked = false ∨ s.laneIdle p = false) → ∃ t, exec (.quietAck p) s = .next t ∧
      OnlyPort s t p ∧ t.port p = { s.port p with lastRx := s.now }) ∧
    ((s.port p).quietAsked = true → s.laneIdle p = true → ∃ t, exec (.quietAck p) s = .next t ∧
      t.port p = { s.port p with lastRx := s.now, link := .quiet, linkAt := s.now, quietAsked := false } ∧
      { t with cells := s.cells, io := s.io } = s) ∧
    (s.now < (s.port p).lastTx + 1000 → exec (.keepaliveTimer p) s = .next s) ∧
    ((s.port p).lastTx + 1000 ≤ s.now → ∃ t, exec (.keepaliveTimer p) s = .next t ∧ OnlyPort s t p ∧
      t.port p = { s.port p with sent := (s.port p).sent ++ [.link 2 (s.linkMsg p)], lastTx := s.now })) ∧
  -- Ethernet ports and root ports
  (∀ (s : State) (p : PortId) (width rate : Nat) (flit : Bool),
    2 ≤ (s.port p).cfg.mode → s.cst (cellNo 6 p) = .running →
    ∃ t, exec (.portLinkUp p width rate flit) s = .next t ∧ OnlyPort s t p ∧ (t.port p).link = .up ∧
      (t.port p).lastRx = s.now ∧ (t.port p).sent = (s.port p).sent ∧
      ((s.port p).cfg.mode = 4 → (t.port p).width = width ∧ (t.port p).rate = rate ∧ (t.port p).flit = flit)) ∧
  (∀ (s : State) (p : PortId), 2 ≤ (s.port p).cfg.mode → s.isUp p = true →
    ∃ t, exec (.portLinkDown p) s = .next t ∧ OnlyPort s t p ∧ t.port p = { s.port p with
      link := .down, linkAt := s.now, lost := true, width := 0, rate := 0, flit := false }) ∧
  (∀ (s : State) (p : PortId) (width rate : Nat) (flit : Bool), (s.port p).cfg.mode < 2 →
    exec (.portLinkUp p width rate flit) s = .next s ∧ exec (.portLinkDown p) s = .next s) ∧
  (∀ (s : State) (pk : Pkt) (c : Nat), Admitted opEthSend pk c s →
    let p := cellIndex c
    let len := numAt pk.params 8 4
    allZero (slice pk.params 13 3) = true → 60 ≤ len → len + 4 ≤ (s.port p).cfg.maxFrame → numAt pk.params 12 1 ≤ 7 →
    s.portRefuses c = 0 → s.isUp p = true →
    ∃ u t, exec (.ethSend pk) s = .next t ∧ Answered s u t pk 0x0A10 1 [] ∧ OnlyPort s u p ∧
      u.port p = { s.port p with ethSends := (s.port p).ethSends ++
        [⟨pk.partition.toNat, numAt pk.params 0 8, len, numAt pk.params 12 1, askerOf 0x0A10 pk⟩] }) ∧
  (∀ (s : State) (pk : Pkt) (c : Nat), Admitted opEthRecv pk c s →
    let p := cellIndex c
    allZero (slice pk.params 12 4) = true → pk.partition.toNat = (s.port p).cfg.owner →
    (s.port p).cfg.maxFrame ≤ numAt pk.params 8 4 → s.portRefuses c = 0 →
    ∃ u t, exec (.ethRecv pk) s = .next t ∧ Answered s u t pk 0x0A11 1 [] ∧ OnlyPort s u p ∧
      u.port p = { s.port p with ethRecvs := (s.port p).ethRecvs ++
        [(numAt pk.params 0 8, numAt pk.params 8 4, askerOf 0x0A11 pk)] }) ∧
  (∀ (s : State) (p : PortId), (s.isUp p = false ∨ ∀ e ∈ (s.port p).ethSends, s.heldBack p e.prio = true) →
    exec (.ethSendComplete p) s = .next s) ∧
  (∀ (s : State) (p : PortId) (e : EthSend), s.isUp p = true → ((s.port p).ethSends.find? fun x => !s.heldBack p x.prio) = some e →
    let rest := (s.port p).ethSends.erase e
    let d := p.val / 128
    (s.moveRange e.part e.addr e.len .read = none → ∃ t, exec (.ethSendComplete p) s = .next t ∧
      (t.port p).ethSends = rest ∧ { t with rings := s.rings, io := { t.io with ports := s.io.ports } } = s) ∧
    (∀ ps v, s.moveRange e.part e.addr e.len .read = some (ps, v) → AtOnce v [] ps false →
      (v.spend d (pieceLines ps) = none → exec (.ethSendComplete p) s = .next (v.lapse d)) ∧
      (∀ w, v.spend d (pieceLines ps) = some w → w.piecesPoisoned ps = false → (w.ioDie d).busErr = [] →
        let r := w.readPieces ps
        v.overPins r.2 = false →
        ∃ t, exec (.ethSendComplete p) s = .next t ∧ Posted s t e.who 0 [] ∧
          t.port p = { r.2.port p with
            ethSends := rest, lastTx := r.2.now
            sent := (r.2.port p).sent ++ [.ethernet (r.1 ++ leBytes 4 (crc32 r.1))] } ∧
          { t with rings := r.2.rings, io := { t.io with ports := r.2.io.ports } } = r.2))) ∧
  (∀ (s : State) (p : PortId) (frame : Bytes) (fcs : BitVec 32),
    let x := s.port p
    let good : Prop := leBytes 4 (crc32 frame) = beBytes 4 fcs.toNat
    let control : Prop := numAt frame 12 2 = 0x8808 ∧ 60 ≤ frame.length
    let fits : Prop := 60 ≤ frame.length ∧ frame.length + 4 ≤ x.cfg.maxFrame ∧
      (s.staging p).inFill + frame.length ≤ 32768
    (¬ (x.cfg.mode = 2 ∨ x.cfg.mode = 3) ∨ s.isUp p = false → exec (.ethernetFrameReceive p frame fcs) s = .next s) ∧
    (x.cfg.mode = 2 ∨ x.cfg.mode = 3 → s.isUp p = true →
      ∃ t, exec (.ethernetFrameReceive p frame fcs) s = .next t ∧
      (¬ good → OnlyPort s t p ∧ t.port p = { x with crcErrors := satAdd x.crcErrors 1 }) ∧
      (good → control → OnlyPort s t p ∧ ∃ held, t.port p = { x with paused := held }) ∧
      (good → ¬ control → ¬ fits → OnlyPort s t p ∧ t.port p = { x with resends := satAdd x.resends 1 }) ∧
      (good → ¬ control → fits → (t.staging p).inq = (s.staging p).inq ++
        [{ ctx := 131072, addr := 0, bytes := frame, credits := 0 }] ∧ (t.port p).resends = x.resends ∧
        (t.port p).crcErrors = x.crcErrors ∧ { t with io := s.io } = s))) ∧
  (∀ (s : State) (p : PortId) (d : BitVec 32),
    ((s.port p).cfg.mode ≠ 4 → exec (.msiWrite p d) s = .next s) ∧
    ((s.port p).cfg.mode = 4 → (s.port p).msiWaits = [] → ∃ t, exec (.msiWrite p d) s = .next t ∧
      OnlyPort (s.transaction p) t p ∧
      t.port p = { s.port p with msi := insertNat (s.port p).msi (d.toNat % 2048) }) ∧
    (∀ base mask who, (s.port p).cfg.mode = 4 → (s.port p).msiWaits = [(base, mask, who)] →
      let hits := msiHits (insertNat (s.port p).msi (d.toNat % 2048)) base mask
      hits ≠ 0 → ∃ t, exec (.msiWrite p d) s = .next t ∧ (t.port p).msiWaits = [] ∧
        Posted s t who 0 (beBytes 4 hits ++ zeros 4) ∧
        (∀ v, v ∈ (t.port p).msi ↔ v ∈ insertNat (s.port p).msi (d.toNat % 2048) ∧
          ¬ (base ≤ v ∧ v < base + 32 ∧ mask.getLsbD (v - base) = true)) ∧
        { t with rings := s.rings, io := { t.io with ports := s.io.ports } } = s.transaction p)) ∧
  (∀ (s : State) (pk : Pkt) (c base : Nat) (mask : BitVec 32), Admitted opMsiWait pk c s →
    let p := cellIndex c
    wordAt pk.params 0 = BitVec.ofNat 64 (base + mask.toNat * 2 ^ 32) → base < 2048 → base % 32 = 0 →
    pk.partition.toNat = (s.port p).cfg.owner → s.portRefuses c = 0 → (s.port p).msiWaits = [] →
    ∃ u t, exec (.msiWait pk) s = .next t ∧ Answered s u t pk 0x0A12 1 [] ∧
      (msiHits (s.port p).msi base mask = 0 → OnlyPort s u p ∧
        u.port p = { s.port p with msiWaits := [(base, mask, askerOf 0x0A12 pk)] }) ∧
      (msiHits (s.port p).msi base mask ≠ 0 → (u.port p).msiWaits = [] ∧
        Posted s u (askerOf 0x0A12 pk) 0 (beBytes 4 (msiHits (s.port p).msi base mask) ++ zeros 4))) ∧
  (∀ (s : State) (p : PortId) (write : Bool) (addr : Word) (len : Nat) (bs : Bytes),
    let n := if write then bs.length else len
    let range := s.moveRange (s.port p).cfg.owner addr.toNat n (if write then .write else .read)
    ((s.port p).cfg.mode ≠ 4 ∨ s.isUp p = false ∨ n = 0 → exec (.endpointRequest p write addr len bs) s = .next s) ∧
    ((s.port p).cfg.mode = 4 → s.isUp p = true → n ≠ 0 →
      ∃ t, exec (.endpointRequest p write addr len bs) s = .next t ∧
      (range = none → (t.rep (reporterOf (cellNo 5 (groupOfPort p)) 1)).fault = true ∧
        t.port p = (if write then s.port p else { s.port p with sent := (s.port p).sent ++ [.unsupportedRequest] }) ∧
        { t with tansy := s.tansy, io := { t.io with ports := s.io.ports } } = s.transaction p) ∧
      (range ≠ none → write = true → 32768 < (s.staging p).inFill + n → t = s.transaction p) ∧
      (range ≠ none → write = false ∨ (s.staging p).inFill + n ≤ 32768 → (t.staging p).inq = (s.staging p).inq ++ [if write
          then { ctx := 131073, addr := addr.toNat, bytes := bs, credits := 0 }
          else { ctx := 131074, addr := addr.toNat, bytes := [], credits := len }] ∧
        { t with io := { t.io with staging := s.io.staging, dies := s.io.dies } } = s.transaction p))) ∧
  (∀ (s : State) (p : PortId),
    let g := cellNo 5 (groupOfPort p)
    OnlyCell s (s.transaction p) g ∧ (s.transaction p).cell g =
      (if s.cst g = .asleep then { s.cell g with waking := true } else { s.cell g with idleFrom := s.now })) ∧
  -- loop tests
  (∀ (s : State) (pk : Pkt) (c : Nat), Admitted opLoopTest pk c s →
    let loop := numAt pk.params 0 1
    let time := numAt pk.params 8 8
    let mode := (s.port (cellIndex c)).cfg.mode
    allZero (slice pk.params 1 7) = true → 1 ≤ time → time ≤ 10000000 → s.cst c = .stopped →
    (cellKind c = 6 ∧ (1 ≤ loop ∧ loop ≤ 3 ∨ loop = 4 ∧ mode = 4) ∨ cellKind c = 4 ∧ 5 ≤ loop ∧ loop ≤ 7 ∨
      cellKind c = 9 ∧ loop = 8 ∧ pk.auth = 2 ∧ s.step5Begun = false) →
    (∀ l ∈ s.io.loops, l.1 ≠ c) →
    ∃ u t, exec (.loopTest pk) s = .next t ∧ Answered s u t pk 0x0A00 1 [] ∧
      u = { s with io := { s.io with loops := s.io.loops ++ [(c, askerOf 0x0A00 pk)] } }) ∧
  (∀ (s : State) (pk : Pkt) (p : Nat), Admitted opLoopTest pk (cellNo 6 p) s → numAt pk.params 0 1 = 4 →
    allZero (slice pk.params 1 7) = true → 1 ≤ numAt pk.params 8 8 → numAt pk.params 8 8 ≤ 10000000 → p < 256 →
    s.cst (cellNo 6 p) = .stopped → (s.port p).cfg.mode = 1 → s.isUp p = true → (∀ l ∈ s.io.loops, l.1 ≠ cellNo 6 p) →
    ∃ u t, exec (.loopTest pk) s = .next t ∧ Answered s u t pk 0x0A00 1 [] ∧
      u.io.loops = s.io.loops ++ [(cellNo 6 p, askerOf 0x0A00 pk)] ∧
      u.port p = { s.port p with sent := (s.port p).sent ++ [.link 5 (s.linkMsg p)], lastTx := s.now } ∧
      { u with io := { u.io with loops := s.io.loops, ports := s.io.ports } } = s) ∧
  (∀ (s : State) (c : Nat) (words errors : Word), (s.io.loops.find? fun l => l.1 = c) = none →
    exec (.loopTestComplete c words errors) s = .next s) ∧
  (∀ (s : State) (c : Nat) (words errors : Word) (who : Asker), (s.io.loops.find? fun l => l.1 = c) = some (c, who) →
    ∃ t, exec (.loopTestComplete c words errors) s = .next t ∧ t.io.loops = s.io.loops.erase (c, who) ∧
      Posted s t who 0 (wordBytes words ++ wordBytes errors) ∧
      { t with rings := s.rings, io := { t.io with loops := s.io.loops, ports := s.io.ports } } = s)

/-- The bundle membership. -/
def Obligations.TheMembershipFollowsItsManifests : Prop :=
  (∀ (s : State) (i : Instr),
    (i = .manifestSend ∨ (∃ m b, i = .manifestReceive m b) ∨ (∃ a b c d, i = .tbMeasurement a b c d) ∨
      (∃ m, i = .memberDeclaredFailed m) ∨ i = .quorumLoss) → s.inBundle = false → exec i s = .next s) ∧
  (∀ (s : State) (b : Bytes) (n : Nat), s.inBundle = true → s.bundle.sentManifest = some (b, n) →
    manFixed b = manFixed (s.ownManifest ++
      if s.bundle.coordinator ∧ cfgParent s.bundleCfg ≠ 0xFF then s.parentManifest else []) → s.now < n + cfgLiveness s.bundleCfg → exec .manifestSend s = .next s) ∧
  (∀ (s : State), s.inBundle = true → s.bundle.sentManifest = none →
    let up := if s.bundle.coordinator ∧ cfgParent s.bundleCfg ≠ 0xFF then [s.parentManifest] else []
    ∃ t, exec .manifestSend s = .next t ∧ t.bundle.sentManifest = some (s.ownManifest ++ up.flatten, s.now) ∧
      t.bundle.outbound = s.bundle.outbound ++
        (((List.range (cfgMembers s.bundleCfg)).filter (· != s.bundle.index)).map fun m => (m, s.ownManifest)) ++
        up.map (fun b => (0x100, b)) ∧
      t.member s.bundle.index = (s.member s.bundle.index).sends s.ownManifest s.now ∧
      (∀ m, m ≠ s.bundle.index → t.member m = s.member m) ∧ { t with bundle := s.bundle, sources := s.sources } = s) ∧
  (∀ (s : State) (m : Fin 16) (bytes : Bytes),
    let valid : Prop := bytes.length = 80 ∧ m.val < cfgMembers s.bundleCfg ∧ m.val ≠ s.bundle.index ∧
      wordAt bytes 0 = cfgMember s.bundleCfg m
    let u := s.modMember m fun x => x.sends bytes s.now
    (¬ valid → exec (.manifestReceive m bytes) s = .next s) ∧
    (s.inBundle = true → valid → ∃ t, exec (.manifestReceive m bytes) s = .next t ∧
      (t.member m).manifest = some bytes ∧ (t.member m).lastHeard = s.now ∧
      ((s.member m).failed = true → (t.member m).fence.getLsbD 3 = true) ∧
      (∀ k, s.admittedMembers ≠ [] → (∀ a, a < cfgMembers s.bundleCfg → a ≠ m.val → (s.member a).admitted = true) →
        (s.member m).failed = false → (u.member m).refused = false → u.verdict m bytes = .admission k → (t.member m).admitted = true) ∧
      ((t.member m).admitted = true → (t.member m).failed = false →
        (50 < (manOffset bytes).natAbs → (t.member m).fence.getLsbD 0 = true) ∧
        ((manOffset bytes).natAbs ≤ 30 → (t.member m).fence.getLsbD 0 = false)) ∧
      { t with io := s.io, sources := s.sources, bundle := s.bundle, vixia := s.vixia } = s)) ∧
  (∀ (s : State) (t1 t2 t3 t4 : Int),
    let me := s.bundle.index
    let off := ((t2 - t1) - (t4 - t3)) / 2
    let gate : Prop := s.inBundle = true ∧ (s.member me).admitted = true ∧ s.vixia.up = true ∧
      ¬ (s.bundle.coordinator = true ∧ cfgParent s.bundleCfg = 0xFF)
    (¬ gate → exec (.tbMeasurement t1 t2 t3 t4) s = .next s) ∧
    (gate → ∃ t, exec (.tbMeasurement t1 t2 t3 t4) s = .next t ∧ t.bundle.offset = off ∧ t.bundle.adjLeft = Int.tdiv off 10 ∧
      (t.member me).fence = (if 50 < off.natAbs then (s.member me).fence ||| 1#4
        else if off.natAbs ≤ 30 then (s.member me).fence &&& ~~~1#4 else (s.member me).fence) ∧
      (50 < off.natAbs → t.bundle.bstate = .fenced) ∧
      (off.natAbs ≤ 30 → t.bundle.bstate = if (t.member me).fence = 0 then .member else .fenced) ∧
      (∀ m, m ≠ me → t.member m = s.member m) ∧
      { t with io := s.io, sources := s.sources, bundle := s.bundle } = s)) ∧
  (∀ (s : State) (m : Fin 16),
    let gate : Prop := s.inBundle = true ∧ m.val ∈ s.admittedMembers ∧ s.heardLately m = false ∧ s.hasQuorum = true
    (¬ gate → exec (.memberDeclaredFailed m) s = .next s) ∧
    (gate → cfgMembers s.bundleCfg ≤ 16 → ∃ t e, exec (.memberDeclaredFailed m) s = .next t ∧
      t.member m = { s.member m with failed := true } ∧ (∀ k, k ≠ m.val → t.member k = s.member k) ∧
      (t.source 0x9F1).backlog = [e] ∧ e.payload.getLsbD m = true ∧
      t.bundle.coordinator = (t.coordinatorOf == some s.bundle.index) ∧
      (∀ f ∈ t.bundle.forwards, ¬ (f.1 < 32768 ∧ forwardMember f = m)) ∧
      (∀ x, s.io.mirror = some x → x.on = true → (x.partner.headD 0).toNat = m.val →
        (t.rep (reporterOf cellMembership 2)).fault = true) ∧
      { t with rings := s.rings, io := s.io, sources := s.sources, bundle := s.bundle, tansy := s.tansy } = s)) ∧
  (∀ (s : State),
    let me := s.bundle.index
    let gate : Prop := s.inBundle = true ∧ (s.member me).admitted = true ∧ s.hasQuorum = false
    (¬ gate → exec .quorumLoss s = .next s) ∧
    (gate → ∃ t, exec .quorumLoss s = .next t ∧ (t.member me).fence = (s.member me).fence ||| 8#4 ∧
      t.bundle.bstate = .fenced ∧ (∀ m, m ≠ me → t.member m = s.member m) ∧
      { t with io := s.io, sources := s.sources, bundle := s.bundle } = s)) ∧
  (∀ (s : State) (pk : Pkt) (c mask channel value : Nat), Admitted opEventSend pk c s →
    wordAt pk.params 0 = BitVec.ofNat 64 (mask + channel * 2 ^ 16 + value * 2 ^ 32) → mask < 2 ^ 16 → channel < 4 →
    value < 2 ^ 32 → s.bundle.bstate ≠ .standalone → s.bundle.bstate ≠ .fenced →
    (∀ m, m < 16 → mask.testBit m = true → m ∈ s.admittedMembers ∧ (s.member m).fence = 0) →
    let me := s.bundle.index
    let others := (List.range 16).filter fun m => mask.testBit m && m != me
    let told (u : State) : Prop := (mask.testBit me = true → me < 16 → (u.source (0x9F4 + channel)).backlog ≠ []) ∧
      (mask.testBit me = false → u.sources = s.sources) ∧ ∀ r, r ≠ 0x9F4 + channel → u.source r = s.source r
    (others = [] → ∃ u t, exec (.eventSend pk) s = .next t ∧ Answered s u t pk 0x0B00 0 [] ∧ told u ∧
      { u with sources := s.sources } = s) ∧
    (others ≠ [] → ∃ t, exec (.eventSend pk) s = .next t ∧ told t ∧
      t.bundle = { s.bundle with
        outbound := s.bundle.outbound ++ others.map fun m => (m, pk.params)
        sends := s.bundle.sends ++ [⟨0x0B00, pk, 1022, [], wordAt pk.params 0, others, 0⟩] } ∧
      t.ring pk.ring = { s.ring pk.ring with outstanding := (s.ring pk.ring).outstanding + 1 } ∧
      (∀ r, r ≠ pk.ring.val → t.ring r = s.ring r) ∧
      { t with bundle := s.bundle, sources := s.sources, rings := s.rings } = s)) ∧
  (∀ (s : State) (e : EventWait), s.bundle.sends = [e] → e.op = 0x0B00 → e.level = 1022 → e.top.checkOnly = false →
    ((∃ m ∈ e.waits, s.eventOpen m = true) → s.eventSendsDone = s) ∧
    (e.waits = [] → e.missed = 0 → s.eventSendsDone.bundle = { s.bundle with sends := [] } ∧
      s.eventSendsDone.ring e.top.ring = { s.ring e.top.ring with
        outstanding := (s.ring e.top.ring).outstanding - 1
        outbox := (s.ring e.top.ring).outbox ++ [replied 0x0B00 e.top 0 []] } ∧
      { s.eventSendsDone with rings := s.rings, bundle := s.bundle } = s)) ∧
  (∀ (s : State) (pk : Pkt) (c m : Nat), wordAt pk.params 0 = BitVec.ofNat 64 m → m < 16 →
    s.bundle.bstate ≠ .standalone → m < cfgMembers s.bundleCfg →
    (Admitted opUnfence pk c s → ∃ u t, exec (.unfence pk) s = .next t ∧ Answered s u t pk 0x0B02 0 [] ∧
      u.member m = { s.member m with fence := (s.member m).fence &&& ~~~4#4 } ∧
      (∀ k, k ≠ m → u.member k = s.member k) ∧
      u.bundle.outbound = s.bundle.outbound ++
        (if m = s.bundle.index then [] else [(m, beBytes 2 0x0B02 ++ pk.params)]) ∧
      { u with sources := s.sources, bundle := s.bundle } = s) ∧
    (Admitted opManifestRead pk c s → ∀ b, b = (s.member m).manifest.getD (zeros 80) → b.length = 80 →
      ∃ t, exec (.manifestRead pk) s = .next t ∧ Answered s s t pk 0x0B03 0 b)) ∧
  (∀ (s : State) (m : Nat) (b : Bytes) (p : Nat), s.bundle.transit = [] → s.bundle.outbound = [(m, b)] →
    s.io.partners = [] → s.bundlePort p = true → p < 256 →
    (∀ q, q < 256 → q ≠ p → s.bundlePort q = true →
      Config.bundleHops p m < Config.bundleHops q m ∨ (Config.bundleHops p m = Config.bundleHops q m ∧ p < q)) →
    ∃ c g, s.sendMessages.partner (s.originOf p) bundleVc = some c ∧
      c.out = some { wire := Config.bundleWire s.bundle.index m b, seq := 0, begun := false, due := true, here := 0 } ∧
      SentFrame s s.sendMessages p .sync g ∧ g.dest = [0x80] ∧ g.vc = 0xFFFF ∧ g.vcx = true ∧
      { s.sendMessages with io := s.io, bundle := { s.sendMessages.bundle with outbound := s.bundle.outbound } } = s ∧
      s.sendMessages.bundle.outbound = [])

/-- Recording faults. The case of a processor check of partition 0, which R606 raises to level 4, is left to the second
clause's `level`. -/
def Obligations.FaultsAreRecordedAndReacted : Prop :=
  (∀ (s : State) (r : RepId), (reporterListed r = false ∨ s.cst cellTansy ≠ .running) → exec (.faultRecord ⟨r, .unit⟩) s = .next s) ∧
  (∀ (s : State) (r : RepId), reporterListed r = true → s.cst cellTansy = .running →
    s.blockLost (r.val / 512) = false → (s.rep r).broken = false → (s.rep r).fault = true →
    (∀ n, (s.rep r).sampled = some n → n + 2 ≤ s.now) →
    let x := s.rep r
    let first := min 4 (reporterBase r + x.esc)
    ∃ t, exec (.faultRecord ⟨r, .unit⟩) s = .next t ∧ Recorded s t r false first ∧
      { t with tansy := s.tansy } = s) ∧
  (∀ (s : State) (r : RepId), reporterListed r = true → s.cst cellTansy = .running →
    s.blockLost (r.val / 512) = false → (s.rep r).broken = true → (s.rep r).fault = true →
    (∀ n, (s.rep r).sampled = some n → n + 2 ≤ s.now) →
    ∃ t, exec (.faultRecord ⟨r, .unit⟩) s = .next t ∧ (t.rep r).faults = (s.rep r).faults ∧ (t.rep r).fault = false ∧
      (t.rep r).idle = s.now ∧ t.tansy.reactions = s.tansy.reactions ∧ { t with tansy := s.tansy } = s) ∧
  (∀ (s : State) (r : RepId) (n : Nat), reporterListed r = true → s.cst cellTansy = .running → (s.rep r).fault = true →
    (s.rep r).sampled = some n →
    (n = s.now → (s.rep r).stopped = [] →
      ∃ t, exec (.faultRecord ⟨r, .unit⟩) s = .next t ∧ OnlyReports s t ∧ t.rep r = { s.rep r with fault := false } ∧
        ∀ k, k ≠ r.val → t.rep k = s.rep k) ∧
    (n + 1 = s.now → ∃ t, exec (.faultRecord ⟨r, .unit⟩) s = .next t ∧ OnlyReports s t ∧
      ∀ k, t.rep k = s.rep k)) ∧
  (∀ (s : State) (r : RepId) (e : HwError) (c : Nat),
    ((∃ p tag l, e = .l2 p tag l true ∧ c = cellOfPair p) ∨
      (∃ tag l, e = .slice tag l true ∧ c = cellNo 3 (homeSlice (256 * l))) ∨
      (∃ l, e = .directory l true ∧ c = cellNo 3 (homeSlice (256 * l))) ∨
      (∃ p k, e = .gated p true k ∧ c = cellOfPair p)) →
    r.val = reporterOf c 0 → reporterListed r = true → s.cst cellTansy = .running → s.blockLost (r.val / 512) = false →
    (s.rep r).broken = false → (∀ n, (s.rep r).sampled = some n → n + 2 ≤ s.now) →
    ∃ t, exec (.faultRecord ⟨r, e⟩) s = .next t ∧ Recorded s t r false (min 4 (reporterBase r + (s.rep r).esc)) ∧
      { t with tansy := s.tansy } = s) ∧
  (∀ (s : State) (r : RepId) (tag : Bool) (l : Nat), ∃ t, exec (.faultRecord ⟨r, .slice tag l false⟩) s = .next t ∧
    (if tag then (t.slice (homeSlice (256 * l))).tagUe else (t.slice (homeSlice (256 * l))).dataUe) = true) ∧
  (∀ (s : State) (r : RepId) (src : SourceId), isSensor src = true →
    ∃ t, exec (.faultRecord ⟨r, .sensor src⟩) s = .next t ∧ (t.sensor src).invalid = true ∧
      { t with tansy := s.tansy, vixia := s.vixia } = s) ∧
  (∀ (s : State) (r : RepId), exec (.reporterGlitch r 2) s = exec (.faultRecord ⟨r, .unit⟩) s) ∧
  (∀ (s : State) (r : RepId), ∃ t, exec (.reporterGlitch r 1) s = .next t ∧ OnlyReports s t ∧
    t.rep r = { s.rep r with badAt := none } ∧ ∀ k, k ≠ r.val → t.rep k = s.rep k) ∧
  (∀ (s : State) (r : RepId) (v : BitVec 2), (v = 0 ∨ v = 3) → reporterListed r = true → reporterInternal r = false →
    s.cst cellTansy = .running → (s.rep r).broken = false →
    ((∀ n, (s.rep r).badAt = some n → n ≠ s.now ∧ n + 1 ≠ s.now) →
      ∃ t, exec (.reporterGlitch r v) s = .next t ∧ OnlyReports s t ∧
        t.rep r = { s.rep r with glitchSeen := true, badAt := some s.now } ∧ ∀ k, k ≠ r.val → t.rep k = s.rep k) ∧
    (∀ n, (s.rep r).badAt = some n → n + 1 = s.now →
      ∃ t, exec (.reporterGlitch r v) s = .next t ∧ (t.rep r).broken = true ∧ (t.rep r).brokenSeen = true ∧
        Recorded s t r true (min 4 (max (reporterBase r) 2 + (s.rep r).esc)) ∧ { t with tansy := s.tansy } = s)) ∧
  (∀ (s : State) (r : RepId),
    ((s.rep r).broken = true → (s.rep r).idle + 1000 ≤ s.now →
      ∃ t, exec (.brokenPathClear r) s = .next t ∧ OnlyReports s t ∧ t.rep r = { s.rep r with broken := false } ∧
        ∀ k, k ≠ r.val → t.rep k = s.rep k) ∧
    ((s.rep r).broken = false ∨ s.now < (s.rep r).idle + 1000 → exec (.brokenPathClear r) s = .next s)) ∧
  (∀ (s : State) (b : Fin 2), s.cst cellTansy ≠ .running → ∀ l, exec (.blockSnapshot b l) s = .next s) ∧
  (∀ (s : State) (b : Fin 2) (k : Fin 512), s.cst cellTansy = .running → s.blockLost b = false →
    let r := 512 * b.val + k.val
    reporterListed r = true → (s.rep r).broken = false → (s.rep r).sampled ≠ some s.now →
    ∃ t, exec (.blockSnapshot b [k]) s = .next t ∧ tabGet 0 t.tansy.snapAt b = s.now ∧
      ((s.rep r).fault = true → Recorded s t r false (min 4 (reporterBase r + (s.rep r).esc))) ∧
      ((s.rep r).fault = false → t.tansy.reps = s.tansy.reps ∧ t.tansy.reactions = s.tansy.reactions) ∧
      { t with tansy := s.tansy } = s) ∧
  (∀ (s : State) (x : Reaction), s.pins.pwrOk = true → s.cst cellTansy = .running → s.tansy.reactions = [x] →
    s.bundle.groups = [] → s.bundle.sends = [] → 1 ≤ x.level → x.level ≤ 3 →
    ∃ t, exec .heartbeatTick s = .next t ∧ t.tansy.reactions = [] ∧ (t.source (0x8C0 + x.level)).backlog ≠ [] ∧
      (3 ≤ x.level → t.tansy.errN = false ∧ t.tansy.errLatch = true ∧
        t.tansy.pulseEnd = some (s.clock.ticks + 1 + 200) ∧ ∀ n ∈ x.targets, (t.source (0x900 + n)).backlog ≠ []))

/-- Tansy's timers and commands. -/
def Obligations.TansyTimersLinksAndCommands : Prop :=
  (∀ (s : State) (r : RepId),
    ((s.rep r).quietAt = none ∨ (∃ n, (s.rep r).quietAt = some n ∧ s.now < n)) →
    exec (.quietTimerExpiry r) s = .next s) ∧
  (∀ (s : State) (r : RepId) (n : Nat), (s.rep r).quietAt = some n → n ≤ s.now →
    ∃ t, exec (.quietTimerExpiry r) s = .next t ∧ OnlyReports s t ∧
      t.rep r = { s.rep r with quietAt := none, expiring := true } ∧ ∀ k, k ≠ r.val → t.rep k = s.rep k) ∧
  (∀ (s : State) (r : RepId),
    let t := s.quietDone r
    t.rep r = { s.rep r with
      active := false, esc := 0, expiring := false, recoveries := satAdd (s.rep r).recoveries 1 } ∧
      (∀ k, k ≠ r.val → t.rep k = s.rep k) ∧
      (∀ e, e < 4 → reporterCell r = cellNo 7 e → (∀ k, k < 4 → reporterOf (cellNo 7 e) k ≠ r.val →
        (s.rep (reporterOf (cellNo 7 e) k)).active = false) → (t.engine e).recovery = false) ∧
      (cellKind (reporterCell r) ≠ 7 → cellKind (reporterCell r) ≠ 8 → t.engines = s.engines) ∧
      { t with engines := s.engines, tansy := { t.tansy with reps := s.tansy.reps } } = s) ∧
  (∀ (s : State), ∃ t, exec .errPulseEnd s = .next t ∧ { t with tansy := { t.tansy with pulseEnd := s.tansy.pulseEnd } } = s ∧
    ∀ n, s.tansy.pulseEnd = some n → t.tansy.pulseEnd = if s.now < n then some n else none) ∧
  (∀ (s : State) (b : Fin 2), (s.cst cellTansy ≠ .running ∨ s.blockLost b = true ∨
      s.now < tabGet 0 s.tansy.snapAt b + 128) → exec (.blockLinkLost b) s = .next s) ∧
  (∀ (s : State) (b : Fin 2), s.cst cellTansy = .running → s.blockLost b = false → s.blockLost (1 - b.val) = false →
    tabGet 0 s.tansy.snapAt b + 128 ≤ s.now →
    let link := if b = 0 then 0x398 else 0x198
    ∃ t, exec (.blockLinkLost b) s = .next t ∧ t.blockLost b = true ∧ t.blockLost (1 - b.val) = false ∧
      Recorded s t link false (min 4 (2 + (s.rep link).esc)) ∧
      (∀ r n, r ≠ link → r / 512 = b.val → (s.rep r).quietAt = some n →
        (t.rep r).quietAt = none ∧ (t.rep r).quietLeft = some (n - s.now)) ∧ { t with tansy := s.tansy } = s) ∧
  (∀ (s : State) (pk : Pkt) (c first count : Nat), Admitted opFaultAck pk c s →
    wordAt pk.params 0 = BitVec.ofNat 64 (first + count * 2 ^ 16) → first < 1024 → 1 ≤ count → first + count ≤ 1024 →
    ∃ u t, exec (.faultAck pk) s = .next t ∧ Answered s u t pk 0x0C00 0 [] ∧ OnlyReports s u ∧
      ∀ r, u.rep r = if first ≤ r ∧ r < first + count then { s.rep r with esc := 0 } else s.rep r) ∧
  (∀ (s : State) (pk : Pkt) (c r q : Nat), Admitted opFaultSet pk c s →
    wordAt pk.params 0 = BitVec.ofNat 64 (r + q * 2 ^ 16) → r < 1024 → reporterListed r = true → 1 ≤ q → q ≤ 60000 →
    ∃ u t, exec (.faultSet pk) s = .next t ∧ Answered s u t pk 0x0C01 0 [] ∧ OnlyReports s u ∧
      u.rep r = { s.rep r with nextQuiet := some q } ∧ ∀ k, k ≠ r → u.rep k = s.rep k) ∧
  (∀ (s : State) (pk : Pkt) (c : Nat), Admitted opErrClear pk c s →
    ∃ u t, exec (.errClear pk) s = .next t ∧ Answered s u t pk 0x0C02 0 [] ∧
      u = { s with tansy := { s.tansy with errLatch := false } }) ∧
  (∀ (s : State) (pk : Pkt) (c r v : Nat), Admitted opFaultInject pk c s →
    wordAt pk.params 0 = BitVec.ofNat 64 (r + v * 2 ^ 16) → r < 1024 → reporterListed r = true → v < 3 →
    s.blockLost (r / 512) = false → (s.rep r).broken = false → s.cst cellTansy = .running →
    (s.rep r).sampled ≠ some s.now →
    ∃ u t, exec (.faultInject pk) s = .next t ∧ Answered s u t pk 0x0C03 0 [] ∧ { u with tansy := s.tansy } = s ∧
      (v = 0 → Recorded s u r false (min 4 (reporterBase r + (s.rep r).esc))) ∧
      (v ≠ 0 → reporterInternal r = false → (s.rep r).badAt = none → (u.rep r).broken = true ∧
        Recorded s u r true (min 4 (max (reporterBase r) 2 + (s.rep r).esc)))) ∧
  (∀ (s : State) (pk : Pkt) (c r : Nat), Admitted opFaultRead pk c s → wordAt pk.params 0 = BitVec.ofNat 64 r →
    r < 1024 → reporterListed r = true → (s.rep r).quiet < 2 ^ 16 → (s.rep r).lastLevel < 8 → (s.rep r).esc < 16 →
    ∃ t cfg stat, exec (.faultRead pk) s = .next t ∧ Answered s s t pk 0x0C04 0 (wordBytes cfg ++ wordBytes stat) ∧
      cfg.extractLsb' 0 3 = BitVec.ofNat 3 (reporterBase r) ∧ cfg.getLsbD 3 = reporterInternal r ∧
      cfg.extractLsb' 32 32 = BitVec.ofNat 32 (reporterCell r) ∧
      stat.getLsbD 8 = (s.rep r).faultSeen ∧ stat.getLsbD 10 = (s.rep r).brokenSeen ∧
      stat.getLsbD 11 = (s.rep r).glitchSeen ∧ stat.extractLsb' 16 16 = (s.rep r).recoveries ∧
      stat.extractLsb' 32 16 = (s.rep r).faults) ∧
  (∀ (s : State) (pk : Pkt) (c : Nat) (on : Bool), Admitted opMcPolicy pk c s →
    wordAt pk.params 0 = (if on then 1 else 0) →
    ∃ u t, exec (.mcPolicy pk) s = .next t ∧ Answered s u t pk 0x0C05 0 [] ∧
      u = { s with tansy := { s.tansy with mcHalt := on } })

/-- Sensors. -/
def Obligations.SensorsCrossTheirThresholds : Prop :=
  (∀ (s : State) (src : SourceId) (v : BitVec 32),
    (isSensor src.val = false ∨ src.val = 0x9B0 ∨ s.pins.pwrOk = false) → exec (.sensorSample src v) s = .next s) ∧
  (∀ (s : State) (src : SourceId) (v : BitVec 32), isSensor src.val = true → src.val ≠ 0x9B0 → s.pins.pwrOk = true →
    let x := s.sensor src
    let h : Int := if src.val < 0x980 then 2000 else if src.val < 0x998 then 10 else 500
    let inside := x.above = false ∧ x.below = false
    let kind := if inside ∧ x.high.toInt < v.toInt then 1
      else if inside ∧ v.toInt < x.low.toInt then 2
      else if ¬ inside ∧ v.toInt ≤ x.high.toInt - h ∧ x.low.toInt + h ≤ v.toInt then 3 else 0
    ∃ t, exec (.sensorSample src v) s = .next t ∧
      t.sensor src = { x with
        reading := v, invalid := false, above := (if kind = 0 then x.above else decide (kind = 1))
        below := (if kind = 0 then x.below else decide (kind = 2))
        crossed := x.crossed || decide (kind = 1) || decide (kind = 2) } ∧
      (∀ n, n ≠ src.val → t.sensor n = s.sensor n) ∧
      (kind ≠ 0 → (t.source src).backlog ≠ []) ∧ (kind = 0 → t.sources = s.sources) ∧
      (kind = 1 → src.val < 0x980 → (t.rep 0x1A7).fault = true) ∧
      (src.val < 0x980 → 115000 ≤ v.toInt → t.pins.thermtrip = true ∧ (t.rep 0x1A8).fault = true) ∧
      (v.toInt < 115000 → t.pins = s.pins) ∧
      { t with sources := s.sources, tansy := s.tansy, vixia := s.vixia, pins := s.pins } = s) ∧
  (∀ (s : State) (mw : BitVec 32), s.pins.pwrOk = false → exec (.packagePowerCheck mw) s = .next s) ∧
  (∀ (s : State) (mw : BitVec 32), s.pins.pwrOk = true →
    let l := (mw.toNat :: s.vixia.power).take 10000
    let excess := 2400000 < average 100 l ∨ 2100000 < average 10000 l
    let under := average 100 l ≤ 2380000 ∧ average 10000 l ≤ 2080000
    ∃ t, exec (.packagePowerCheck mw) s = .next t ∧ t.vixia.power = l ∧ (t.sensor 0x9B0).reading = mw ∧
      ((s.sensor 0x9B0).above = false → (t.sensor 0x9B0).above = decide excess ∧
        (excess → (t.rep 0x1A6).fault = true ∧ (t.source 0x9B0).backlog ≠ [])) ∧
      ((s.sensor 0x9B0).above = true → (t.sensor 0x9B0).above = decide (¬ under) ∧
        (under → (t.source 0x9B0).backlog ≠ [])) ∧
      (∀ n, n ≠ 0x9B0 → t.sensor n = s.sensor n) ∧
      { t with sources := s.sources, tansy := s.tansy, vixia := s.vixia } = s) ∧
  (∀ (s : State) (pk : Pkt) (c src : Nat), Admitted opSensorSet pk c s → wordAt pk.params 0 = BitVec.ofNat 64 src →
    src ≠ 0x9B0 → isSensor src = true →
    ∃ u t, exec (.sensorSet pk) s = .next t ∧ Answered s u t pk 0x0D00 0 [] ∧
      u.sensor src = { s.sensor src with
        nextThr := some ((wordAt pk.params 1).extractLsb' 0 32, (wordAt pk.params 1).extractLsb' 32 32) } ∧
      (∀ n, n ≠ src → u.sensor n = s.sensor n) ∧
      { u with vixia := { u.vixia with sensors := s.vixia.sensors } } = s)

/-- Vixia's images, measurements and log. The answer to an MCTP message is open (log entry 41), as are the forms of
GET_MEASUREMENTS for index 0 and 0xFF (log entry 45). -/
def Obligations.VixiaBootsUpdatesAndMeasures : Prop :=
  (∀ s : State, (s.pins.pwrOk = false ∨ s.vixia.up = true ∨ s.vixia.recovery = true) →
    exec .bootRomStart s = .next s) ∧
  (∀ s : State, s.pins.pwrOk = true → s.vixia.up = false → s.vixia.recovery = false → s.cst cellVixia ≠ .faulted →
    s.vixia.record.trial = false →
    let p := s.vixia.record.prefer
    ∃ t, exec .bootRomStart s = .next t ∧ t.vixia.fuses = s.vixia.fuses ∧ t.vixia.record = s.vixia.record ∧
      (s.imageFault 1 (s.image p 1) = 0 → t.vixia.up = true ∧ t.vixia.unwrapped = true ∧ t.vixia.slot = p ∧ t.vixia.trial = false ∧
        t.stage1Image = s.image p 1) ∧
      (s.imageFault 1 (s.image p 1) ≠ 0 → s.imageFault 1 (s.image (!p) 1) = 0 → t.vixia.up = true ∧
        t.vixia.slot = (!p) ∧ t.vixia.imageRefused = true ∧ t.stage1Image = s.image (!p) 1) ∧
      (s.imageFault 1 (s.image p 1) ≠ 0 → s.imageFault 1 (s.image (!p) 1) ≠ 0 → t.vixia.up = false ∧
        t.vixia.recovery = true ∧ (t.rep 0x1A3).fault = true)) ∧
  (∀ s : State, s.pins.pwrOk = true → s.vixia.up = false → s.vixia.recovery = false → s.cst cellVixia ≠ .faulted →
    s.vixia.record.trial = true → s.vixia.record.tries = 1 → s.vixia.record.gen.toNat + 1 < 2 ^ 32 →
    ∃ t, exec .bootRomStart s = .next t ∧ t.vixia.rollbackSeen = true ∧ t.vixia.record.trial = false ∧
      t.vixia.record.prefer = !s.vixia.record.prefer) ∧
  (∀ (s : State) (bytes : Bytes),
    let img := slice bytes 4 (numAt bytes 0 4)
    (s.pins.pwrOk = true → s.vixia.recovery = true → s.vixia.up = false →
      ∃ t, exec (.recoveryImage bytes) s = .next t ∧ t.vixia.up = decide (s.imageFault 1 img = 0) ∧
        (s.imageFault 1 img = 0 → t.stage1Image = img) ∧ (s.imageFault 1 img ≠ 0 → t.vixia.imageRefused = true)) ∧
    (s.pins.pwrOk = false ∨ s.vixia.recovery = false ∨ s.vixia.up = true → exec (.recoveryImage bytes) s = .next s)) ∧
  (∀ (s : State) (k : BitVec 8) (img : Bytes), s.vixia.up = true → 1 ≤ k.toNat → k.toNat ≤ 5 →
    ∃ t, exec (.pldmUpdateComponent k img) s = .next t ∧ t.image (!s.vixia.slot) k.toNat = img ∧
      k.toNat ∈ t.vixia.updated ∧ (∀ j, j ≤ 5 → t.image s.vixia.slot j = s.image s.vixia.slot j) ∧
      t.vixia.record = s.vixia.record ∧ { t with vixia := s.vixia } = s) ∧
  (∀ (s : State) (f : Nat × Nat), s.vixia.up = true → s.vixia.updated ≠ [] →
    (s.modVixia Vixia.completeSlot).slotFaultOf (!s.vixia.slot) [1, 2, 3, 4, 5] = some f →
    ∃ t, exec .updateActivate s = .next t ∧ t.vixia.imageRefused = true ∧ t.vixia.record = s.vixia.record ∧
      t.vixia.updated = [] ∧ t.vixia.answers = s.vixia.answers ++ [Config.activateAnswer false]) ∧
  (∀ s : State, s.vixia.up = true → s.vixia.updated ≠ [] → s.vixia.order = none →
    s.vixia.record.gen.toNat + 1 < 2 ^ 32 →
    (s.modVixia Vixia.completeSlot).slotFaultOf (!s.vixia.slot) [1, 2, 3, 4, 5] = none →
    ∃ t, exec .updateActivate s = .next t ∧ t.vixia.record.prefer = (!s.vixia.slot) ∧ t.vixia.record.trial = true ∧
      t.vixia.record.tries = 0 ∧ t.vixia.answers = s.vixia.answers ++ [Config.activateAnswer true] ∧ t.vixia.fuses = s.vixia.fuses ∧ t.vixia.slot = s.vixia.slot ∧
      (∀ k, k ∈ [1, 2, 3, 4, 5] → k ∉ s.vixia.updated → t.image (!s.vixia.slot) k = s.image s.vixia.slot k)) ∧
  (∀ (s : State) (pk : Pkt) (c : Nat) (blow : Bool), Admitted opUpdateCommit pk c s →
    wordAt pk.params 0 = (if blow then 1 else 0) → s.vixia.commit = none →
    s.vixia.record.gen.toNat + 1 < 2 ^ 32 →
    ∃ u t, exec (.updateCommit pk) s = .next t ∧ Answered s u t pk 0x0D04 1 [] ∧
      u.vixia.commit = some (blow, askerOf 0x0D04 pk) ∧ u.vixia.record.trial = false ∧
      u.vixia.record.prefer = s.vixia.record.prefer ∧ u.vixia.fuses = s.vixia.fuses ∧ { u with vixia := s.vixia } = s) ∧
  (∀ (s : State) (blow : Bool) (who : Asker), s.vixia.commit = some (blow, who) →
    ∃ t, exec .updateCommitComplete s = .next t ∧ Posted s t who 0 [] ∧ t.vixia.commit = none ∧
      (blow = false → t.vixia.fuses = s.vixia.fuses) ∧ s.vixia.fuses.svn ≤ t.vixia.fuses.svn ∧
      (∀ k, 1 ≤ k → k ≤ 5 → t.vixia.fuses.svn ≤ max s.vixia.fuses.svn (imgSvn (s.image s.vixia.slot k))) ∧
      { t with rings := s.rings, vixia := { t.vixia with commit := s.vixia.commit, fuses := s.vixia.fuses } } = s) ∧
  (∀ (s : State) (k : BitVec 8) (body : Bytes), s.vixia.up = true →
    exec (.mctpMessage k body) s =
      .next { s with vixia := { s.vixia with answers := s.vixia.answers ++ [Config.mctpAnswer k body] } }) ∧
  (∀ (s : State) (i : BitVec 8), s.vixia.up = true → 1 ≤ i.toNat → i.toNat ≤ 8 →
    exec (.getMeasurements i) s = .next { s with vixia := { s.vixia with
      answers := s.vixia.answers ++ [slice s.vixia.measurements (48 * (i.toNat - 1)) 48] } }) ∧
  (∀ (s : State) (pk : Pkt) (c : Nat), Admitted opMeasureRead pk c s →
    (∀ i, (tabGet [] s.vixia.measured i).length ≤ 48) →
    ∃ t, exec (.measureRead pk) s = .next t ∧ Answered s s t pk 0x0D05 0 s.vixia.measurements) ∧
  (∀ (s : State) (pk : Pkt) (c first : Nat) (kept : Bool), Admitted opLogRead pk c s → first < 2 ^ 32 →
    wordAt pk.params 0 = BitVec.ofNat 64 (first + if kept then 2 ^ 32 else 0) →
    let l := ((if kept then s.vixia.persistent else s.vixia.ringLog).filter fun r => decide (first ≤ r.seq.toNat)).take 126
    ∃ t bs, exec (.logRead pk) s = .next t ∧ Answered s s t pk 0x0D01 0 bs ∧ numAt bs 4 4 = l.length ∧
      slice bs 8 (32 * l.length) = l.flatMap LogRec.bytes ∧
      numAt bs 0 4 = ((l.getLast?.map fun r => (r.seq + 1).toNat).getD first)) ∧
  (∀ s : State, s.vixia.up = true → s.vixia.persistent.length + s.vixia.buffer.length ≤ logCapacity →
    s.vixia.droppedDue = 0 →
    let due := s.vixia.epochDue
    ∃ t, exec .persistentLogWrite s = .next t ∧ t.vixia.persistent = s.vixia.persistent ++ s.vixia.buffer ∧
      (due = 0 → t.vixia.buffer = [] ∧ t.vixia.ringLog = s.vixia.ringLog) ∧
      (due ≠ 0 → ∃ r, t.vixia.buffer = [r] ∧ r.kind = 6 ∧ r.data = t.bundle.epoch + BitVec.ofNat 64 due) ∧
      t.vixia.epochDue = 0 ∧
      (∀ r ∈ s.vixia.buffer, r.kind = 6 → r.data.toNat ≤ t.bundle.epoch.toNat) ∧
      { t with vixia := s.vixia, bundle := s.bundle } = s)

/-- Power-up. -/
def Obligations.PowerUpGoesStepByStep : Prop :=
  (∀ (s : State) (n : Nat) (env : BootEnv),
    (s.pins.pwrOk = false ∨ s.vixia.up = false ∨ s.vixia.stepFailed = true ∨
      n ≠ (if s.vixia.bootStep = 0 then 3 else s.vixia.bootStep + 1)) → exec (.powerUp n env) s = .next s) ∧
  (∀ (s : State) (env : BootEnv), Boots s 3 → s.slotFaultOf s.vixia.slot [2, 3, 4, 5] = none →
    ∃ t, exec (.powerUp 3 env) s = .next t ∧ t.vixia.bootStep = 3 ∧ t.cst cellVixia = .running ∧
      tabGet [] t.vixia.measured 2 = measureImage 2 1 s.stage1Image ∧ (∀ c, c ≠ cellVixia → t.cell c = s.cell c) ∧
      { t with cells := s.cells, vixia := s.vixia } = s) ∧
  (∀ (s : State) (env : BootEnv), Boots s 4 → s.pins.enIo = false →
    exec (.powerUp 4 env) s = .next { s with pins := { s.pins with enIo := true, enIoAt := s.clock.ticks } }) ∧
  (∀ (s : State) (env : BootEnv), Boots s 4 → s.pins.enIo = true → s.pins.pgIo = false →
    exec (.powerUp 4 env) s = .next s) ∧
  (∀ (s : State) (env : BootEnv), Boots s 4 → s.pins.enIo = true → s.pins.pgIo = true → populationOk env.fitted = false →
    s.vixia.trial = false →
    ∃ t, exec (.powerUp 4 env) s = .next t ∧ t.vixia.stepFailed = true ∧ t.vixia.bootStep = s.vixia.bootStep ∧
      (t.rep 0x1A9).fault = true ∧ (t.rep 0x1A3).fault = true ∧ t.mem.sets = s.mem.sets) ∧
  (∀ (s : State) (env : BootEnv), Boots s 5 → s.pins.enCmp = false →
    exec (.powerUp 5 env) s = .next { s with
      clock := { s.clock with loadClosed := true }
      pins := { s.pins with enCmp := true, enCmpAt := s.clock.ticks } }) ∧
  (∀ (s : State) (env : BootEnv), Boots s 5 → s.pins.enCmp = true → s.pins.pgCmp = true →
    (∀ p, p < 52 → (s.pair p).job = none) →
    ∃ t, exec (.powerUp 5 env) s = .next t ∧ t.vixia.bootStep = 5 ∧
      (∀ p, p < 52 → p ∉ env.pairsOk → t.cst (cellNo 1 p) = .faulted) ∧
      ∀ d, d < 4 → 13 * d + 12 ∈ env.pairsOk →
        t.spareOf (13 * d) = some (13 * d + 12) ∧ t.cst (cellNo 1 (13 * d + 12)) = .asleep ∧
        ∀ k, k < 12 → 13 * d + k ∈ env.pairsOk → t.cst (cellNo 1 (13 * d + k)) = .stopped) ∧
  (∀ (s : State) (env : BootEnv), Boots s 6 →
    ∃ t, exec (.powerUp 6 env) s = .next t ∧ t.vixia.bootStep = 6 ∧
      (∀ i, i < 4 → t.cst (cellNo 0x0A i) = .running) ∧ (∀ c, cellKind c ≠ 0x0A → t.cell c = s.cell c)) ∧
  (∀ (s : State) (env : BootEnv), Boots s 8 →
    ∃ t, exec (.powerUp 8 env) s = .next t ∧ t.vixia.bootStep = 8 ∧ t.pins = { s.pins with ready := true } ∧
      ∀ e, e < 8 → (t.engine e).startup = false) ∧
  (∀ s : State, (s.pins.pwrOk = false ∨ s.pins.ready = true ∨ s.vixia.stepFailed = true ∨ s.now < 10 ^ 9) →
    exec .powerUpTimeout s = .next s) ∧
  (∀ s : State, s.pins.pwrOk = true → s.pins.ready = false → s.vixia.stepFailed = false → 10 ^ 9 ≤ s.now →
    s.vixia.trial = false →
    ∃ t, exec .powerUpTimeout s = .next t ∧ t.vixia.stepFailed = true ∧ (t.rep 0x1A3).fault = true)

/-- Power signals. -/
def Obligations.PowerSignalsFollowTheirRules : Prop :=
  (∀ s : State, s.pins.pwrOk = true → exec .pwrOkRise s = .next s) ∧
  (∀ s : State, s.pins.pwrOk = false →
    ∃ t, exec .pwrOkRise s = .next t ∧ t.pins.pwrOk = true ∧ (∀ d, d < 4 → tabGet 0 t.pins.vid d = Config.fuseVid d) ∧
      t.vixia.fuses = { s.vixia.fuses with serial := Config.fuseSerial } ∧
      { t with pins := { t.pins with pwrOk := s.pins.pwrOk, vid := s.pins.vid }
               vixia := { t.vixia with fuses := s.vixia.fuses } } = s) ∧
  (∀ s : State, (s.pins.enIo = true → exec .pgIoRise s = .next { s with pins := { s.pins with pgIo := true } }) ∧
    (s.pins.enIo = false → exec .pgIoRise s = .next s) ∧
    (s.pins.enCmp = true → exec .pgCmpRise s = .next { s with pins := { s.pins with pgCmp := true } }) ∧
    (s.pins.enCmp = false → exec .pgCmpRise s = .next s)) ∧
  (∀ (s : State) (cmp : Bool),
    let en := if cmp then s.pins.enCmp else s.pins.enIo
    let pg := if cmp then s.pins.pgCmp else s.pins.pgIo
    let at_ := if cmp then s.pins.enCmpAt else s.pins.enIoAt
    ((en = false ∨ pg = true ∨ s.now < at_ + 2000000) → exec (.powerGoodTimeout cmp) s = .next s) ∧
    (en = true → pg = false → at_ + 2000000 ≤ s.now → s.vixia.trial = false →
      ∃ t, exec (.powerGoodTimeout cmp) s = .next t ∧ t.vixia.stepFailed = true ∧ (t.rep 0x1A3).fault = true ∧
        t.pins = (if cmp then { s.pins with enCmp := false, pgCmp := false }
          else { s.pins with enIo := false, pgIo := false }) ∧
        { t with pins := s.pins, vixia := s.vixia, tansy := s.tansy } = s)) ∧
  (∀ (s : State) (cmp : Bool), (if cmp then s.pins.enCmp && s.pins.pgCmp else s.pins.enIo && s.pins.pgIo) = false →
    exec (.powerGoodLoss cmp) s = .next s) ∧
  (∀ s : State, s.pins.enCmp = true → s.pins.pgCmp = true →
    ∃ t, exec (.powerGoodLoss true) s = .next t ∧ t.pins = { s.pins with enCmp := false, pgCmp := false } ∧
      (t.rep 0x1AA).fault = true ∧ (∀ p, p < 52 → t.cst (cellNo 1 p) = .faulted) ∧
      (∀ d, d < 4 → t.cst (cellNo 3 d) = .faulted ∧ t.cst (cellNo 7 d) = .faulted ∧ t.cst (cellNo 8 d) = .faulted ∧
        t.cst (cellNo 9 d) = .faulted)) ∧
  (∀ s : State, s.pins.enIo = true → s.pins.pgIo = true →
    ∃ t, exec (.powerGoodLoss false) s = .next t ∧ t.pins = { s.pins with enIo := false, pgIo := false } ∧
      (t.rep 0x1AA).fault = true ∧ (∀ i, i < 4 → t.cst (cellNo 0x0A i) = .faulted) ∧
      (∀ d, d < 2 → t.cst (cellNo 0x16 d) = .faulted) ∧ (∀ p, p < 256 → t.cst (cellNo 6 p) = .faulted)) ∧
  (∀ s : State, s.pins.pwrOk = false → exec .pwrOkFall s = .next s) ∧
  (∀ s : State, s.pins.pwrOk = true →
    ∃ t, exec .pwrOkFall s = .next t ∧ t.pins = Pins.reset ∧ t.cells = [] ∧ t.rings = [] ∧ t.clock = Clock.reset ∧
      t.vixia.fuses = s.vixia.fuses ∧ t.vixia.rec0 = s.vixia.rec0 ∧ t.vixia.rec1 = s.vixia.rec1 ∧
      t.vixia.persistent = s.vixia.persistent ∧ (∀ k, k ≠ 0 → tabGet [] t.vixia.slots k = tabGet [] s.vixia.slots k) ∧
      t.vixia.up = false ∧ t.vixia.ringLog = [] ∧
      { t with
        pending := [], free := 0, areas := [], vixia := Vixia.reset
        mem := { t.mem with keyGen := State.reset.mem.keyGen } } = State.reset)

/-- The test access port. -/
def Obligations.TestAccessPortFollowsItsInstructions : Prop :=
  ∀ (s : State) (b : Bytes),
    exec .idcode s = .next { s with pins := { s.pins with jtag := .idcode, captured := [0x02, 0x49, 0x60, 0xF3] } } ∧
    exec .bypass s = .next { s with pins := { s.pins with jtag := .bypass, captured := [0] } } ∧
    exec (.samplePreload b) s = .next { s with pins := { s.pins with jtag := .samplePreload, captured := b } } ∧
    (s.pins.ready = false → s.pins.enIo = false → s.vixia.bootStep < 3 →
      exec (.extest b) s = .next { s with pins := { s.pins with jtag := .extest, captured := b, boundary := b } } ∧
      exec (.extestPulse b) s =
        .next { s with pins := { s.pins with jtag := .extestPulse, captured := b, boundary := b } } ∧
      exec (.extestTrain b) s =
        .next { s with pins := { s.pins with jtag := .extestTrain, captured := b, boundary := b } }) ∧
    (s.pins.ready = true ∨ s.pins.enIo = true ∨ 4 ≤ s.vixia.bootStep →
      exec (.extest b) s = exec .bypass s ∧ exec (.extestPulse b) s = exec .bypass s ∧
      exec (.extestTrain b) s = exec .bypass s)
end

