-- ==== Sys2Proof/Laws/Tab.lean ====
section
/-! SUPPORT. The laws of the sparse tables: what is read after a write, and the canonical form kept. -/

namespace Sys2Proof.Machine

theorem tabFind_tabInsert {α : Type} (t : Tab α) (k : Nat) (v : α) (j : Nat) :
    tabFind (tabInsert t k v) j = if j = k then some v else tabFind t j := by
  induction t with
  | nil => simp [tabInsert, tabFind, eq_comm]
  | cons e t ih =>
    obtain ⟨i, w⟩ := e
    rcases Nat.lt_trichotomy k i with h | rfl | h
    · simp only [tabInsert, if_pos h, tabFind, eq_comm]
    · simp only [tabInsert, Nat.lt_irrefl, if_false, if_true, tabFind, eq_comm]
      split <;> simp_all
    · simp only [tabInsert, if_neg (Nat.lt_asymm h), if_neg (Nat.ne_of_gt h), tabFind, ih]
      split <;> split <;> simp_all

theorem tabFind_tabErase {α : Type} (t : Tab α) (k j : Nat) :
    tabFind (tabErase t k) j = if j = k then none else tabFind t j := by
  induction t with
  | nil => simp [tabErase, tabFind]
  | cons e t ih =>
    obtain ⟨i, w⟩ := e
    simp only [tabErase] at ih
    by_cases h : i = k
    · subst h
      by_cases hj : j = i
      · subst hj; simpa [tabErase, tabFind] using ih
      · simp [tabErase, tabFind, ih, hj, Ne.symm hj]
    · by_cases hj : i = j
      · subst hj; simp [tabErase, tabFind, h]
      · simp [tabErase, tabFind, h, hj, ih]

/-- What is read after a write. -/
theorem tabGet_tabPut {α : Type} [DecidableEq α] (d : α) (t : Tab α) (k : Nat) (v : α) (j : Nat) :
    tabGet d (tabPut d t k v) j = if j = k then v else tabGet d t j := by
  by_cases h : v = d
  · by_cases hj : j = k <;> simp [tabPut, tabGet, tabFind_tabErase, h, hj]
  · by_cases hj : j = k <;> simp [tabPut, tabGet, tabFind_tabInsert, h, hj]

theorem tabGet_tabMod {α : Type} [DecidableEq α] (d : α) (t : Tab α) (k : Nat) (f : α → α) (j : Nat) :
    tabGet d (tabMod d t k f) j = if j = k then f (tabGet d t k) else tabGet d t j := tabGet_tabPut ..

@[simp] theorem tabGet_tabMod_self {α : Type} [DecidableEq α] (d : α) (t : Tab α) (k : Nat) (f : α → α) :
    tabGet d (tabMod d t k f) k = f (tabGet d t k) := by simp [tabGet_tabMod]

/-- The canonical form as a property of all entries. -/
theorem tabWf_iff {α : Type} [DecidableEq α] (d : α) (t : Tab α) :
    tabWf d t = true ↔ t.Pairwise (fun a b => a.1 < b.1) ∧ ∀ e ∈ t, e.2 ≠ d := by
  induction t with
  | nil => simp [tabWf]
  | cons e t ih =>
    obtain ⟨j, v⟩ := e
    cases t with
    | nil => simp [tabWf]
    | cons e' t =>
      obtain ⟨k, w⟩ := e'
      simp only [tabWf, Bool.and_eq_true, bne_iff_ne, decide_eq_true_eq, ih, List.pairwise_cons, List.mem_cons]
      constructor
      · rintro ⟨⟨hv, hjk⟩, ⟨hk, hp⟩, hd⟩
        refine ⟨⟨?_, hk, hp⟩, ?_⟩
        · rintro a (rfl | ha)
          · exact hjk
          · exact Nat.lt_trans hjk (hk a ha)
        · rintro a (rfl | ha)
          · exact hv
          · exact hd a ha
      · rintro ⟨⟨hj, hk, hp⟩, hd⟩
        exact ⟨⟨hd _ (.inl rfl), hj _ (.inl rfl)⟩, ⟨hk, hp⟩, fun a ha => hd a (.inr ha)⟩

theorem mem_tabInsert {α : Type} {t : Tab α} {k : Nat} {v : α} {e : Nat × α} (h : e ∈ tabInsert t k v) :
    e = (k, v) ∨ e ∈ t := by
  induction t with
  | nil => simpa [tabInsert] using h
  | cons x t ih =>
    simp only [tabInsert] at h
    split at h
    · simpa using h
    · split at h
      · simp only [List.mem_cons] at h ⊢
        rcases h with h | h
        · exact .inl h
        · exact .inr (.inr h)
      · simp only [List.mem_cons] at h ⊢
        rcases h with h | h
        · exact .inr (.inl h)
        · rcases ih h with h | h
          · exact .inl h
          · exact .inr (.inr h)

theorem tabWf_tabInsert {α : Type} [DecidableEq α] {d : α} {t : Tab α} {k : Nat} {v : α} (h : tabWf d t = true)
    (hv : v ≠ d) : tabWf d (tabInsert t k v) = true := by
  rw [tabWf_iff] at h ⊢
  obtain ⟨hp, hd⟩ := h
  refine ⟨?_, fun e he => ?_⟩
  · induction t with
    | nil => simp [tabInsert]
    | cons x t ih =>
      rw [List.pairwise_cons] at hp
      simp only [tabInsert]
      split
      · rename_i hk
        refine List.pairwise_cons.2 ⟨fun a ha => ?_, List.pairwise_cons.2 hp⟩
        rcases List.mem_cons.1 ha with rfl | ha
        · exact hk
        · exact Nat.lt_trans hk (hp.1 a ha)
      · split
        · rename_i hk
          exact List.pairwise_cons.2 ⟨fun a ha => hk ▸ hp.1 a ha, hp.2⟩
        · rename_i h1 h2
          refine List.pairwise_cons.2 ⟨fun a ha => ?_, ih hp.2 fun e he => hd e (List.mem_cons_of_mem _ he)⟩
          rcases mem_tabInsert ha with rfl | ha
          · show x.1 < k
            omega
          · exact hp.1 a ha
  · rcases mem_tabInsert he with rfl | he
    · exact hv
    · exact hd e he

theorem tabWf_filter {α : Type} [DecidableEq α] {d : α} {t : Tab α} (p : Nat × α → Bool) (h : tabWf d t = true) :
    tabWf d (t.filter p) = true := by
  rw [tabWf_iff] at h ⊢
  exact ⟨h.1.filter _, fun e he => h.2 e (List.mem_filter.1 he).1⟩

theorem tabWf_tabErase {α : Type} [DecidableEq α] {d : α} {t : Tab α} {k : Nat} (h : tabWf d t = true) :
    tabWf d (tabErase t k) = true := tabWf_filter _ h

/-- A write keeps the canonical form. -/
theorem tabWf_tabPut {α : Type} [DecidableEq α] {d : α} {t : Tab α} {k : Nat} {v : α} (h : tabWf d t = true) :
    tabWf d (tabPut d t k v) = true := by
  unfold tabPut
  split
  · exact tabWf_tabErase h
  · exact tabWf_tabInsert h ‹_›

theorem tabWf_tabMod {α : Type} [DecidableEq α] {d : α} {t : Tab α} {k : Nat} {f : α → α} (h : tabWf d t = true) :
    tabWf d (tabMod d t k f) = true := tabWf_tabPut h

theorem mem_insertNat {l : List Nat} {x y : Nat} : y ∈ insertNat l x ↔ y = x ∨ y ∈ l := by
  induction l with
  | nil => simp [insertNat]
  | cons z l ih =>
    simp only [insertNat]
    split
    · simp
    · split
      · subst_vars; simp
      · simp [ih, or_left_comm]

theorem pairwise_insertNat {l : List Nat} {x : Nat} (h : l.Pairwise (· < ·)) : (insertNat l x).Pairwise (· < ·) := by
  induction l with
  | nil => simp [insertNat]
  | cons z l ih =>
    rw [List.pairwise_cons] at h
    simp only [insertNat]
    split
    · rename_i hz
      refine List.pairwise_cons.2 ⟨fun a ha => ?_, List.pairwise_cons.2 h⟩
      rcases List.mem_cons.1 ha with rfl | ha
      · exact hz
      · exact Nat.lt_trans hz (h.1 a ha)
    · split
      · exact List.pairwise_cons.2 h
      · refine List.pairwise_cons.2 ⟨fun a ha => ?_, ih h.2⟩
        rcases mem_insertNat.1 ha with rfl | ha
        · omega
        · exact h.1 a ha

end Sys2Proof.Machine
end

