-- ==== Sys2Proof/Laws/State.lean ====
section
/-! SUPPORT. What each update of the state leaves: one lemma per field, so that no proof unfolds a record update, and
what each table reads after a write of it. -/

namespace Sys2Proof.Machine

variable (s : State)

@[simp] theorem State.modCell_pending (c : Nat) (f : Cell → Cell) : (s.modCell c f).pending = s.pending := rfl
@[simp] theorem State.modCell_clock (c : Nat) (f : Cell → Cell) : (s.modCell c f).clock = s.clock := rfl
@[simp] theorem State.modCell_cells (c : Nat) (f : Cell → Cell) : (s.modCell c f).cells = tabMod Cell.reset s.cells c f := rfl
@[simp] theorem State.modCell_rings (c : Nat) (f : Cell → Cell) : (s.modCell c f).rings = s.rings := rfl
@[simp] theorem State.modCell_turn (c : Nat) (f : Cell → Cell) : (s.modCell c f).turn = s.turn := rfl
@[simp] theorem State.modCell_claims (c : Nat) (f : Cell → Cell) : (s.modCell c f).claims = s.claims := rfl
@[simp] theorem State.modCell_cores (c : Nat) (f : Cell → Cell) : (s.modCell c f).cores = s.cores := rfl
@[simp] theorem State.modCell_pairs (c : Nat) (f : Cell → Cell) : (s.modCell c f).pairs = s.pairs := rfl
@[simp] theorem State.modCell_spares (c : Nat) (f : Cell → Cell) : (s.modCell c f).spares = s.spares := rfl
@[simp] theorem State.modCell_caches (c : Nat) (f : Cell → Cell) : (s.modCell c f).caches = s.caches := rfl
@[simp] theorem State.modCell_mem (c : Nat) (f : Cell → Cell) : (s.modCell c f).mem = s.mem := rfl
@[simp] theorem State.modCell_io (c : Nat) (f : Cell → Cell) : (s.modCell c f).io = s.io := rfl
@[simp] theorem State.modCell_queues (c : Nat) (f : Cell → Cell) : (s.modCell c f).queues = s.queues := rfl
@[simp] theorem State.modCell_sources (c : Nat) (f : Cell → Cell) : (s.modCell c f).sources = s.sources := rfl
@[simp] theorem State.modCell_timers (c : Nat) (f : Cell → Cell) : (s.modCell c f).timers = s.timers := rfl
@[simp] theorem State.modCell_parts (c : Nat) (f : Cell → Cell) : (s.modCell c f).parts = s.parts := rfl
@[simp] theorem State.modCell_engines (c : Nat) (f : Cell → Cell) : (s.modCell c f).engines = s.engines := rfl
@[simp] theorem State.modCell_areas (c : Nat) (f : Cell → Cell) : (s.modCell c f).areas = s.areas := rfl
@[simp] theorem State.modCell_bundle (c : Nat) (f : Cell → Cell) : (s.modCell c f).bundle = s.bundle := rfl
@[simp] theorem State.modCell_tansy (c : Nat) (f : Cell → Cell) : (s.modCell c f).tansy = s.tansy := rfl
@[simp] theorem State.modCell_vixia (c : Nat) (f : Cell → Cell) : (s.modCell c f).vixia = s.vixia := rfl
@[simp] theorem State.modCell_pins (c : Nat) (f : Cell → Cell) : (s.modCell c f).pins = s.pins := rfl
@[simp] theorem State.modCell_bus (c : Nat) (f : Cell → Cell) : (s.modCell c f).bus = s.bus := rfl
@[simp] theorem State.modCell_free (c : Nat) (f : Cell → Cell) : (s.modCell c f).free = s.free := rfl

@[simp] theorem State.modRing_pending (r : Nat) (f : Ring → Ring) : (s.modRing r f).pending = s.pending := rfl
@[simp] theorem State.modRing_clock (r : Nat) (f : Ring → Ring) : (s.modRing r f).clock = s.clock := rfl
@[simp] theorem State.modRing_cells (r : Nat) (f : Ring → Ring) : (s.modRing r f).cells = s.cells := rfl
@[simp] theorem State.modRing_rings (r : Nat) (f : Ring → Ring) : (s.modRing r f).rings = tabMod Ring.reset s.rings r f := rfl
@[simp] theorem State.modRing_turn (r : Nat) (f : Ring → Ring) : (s.modRing r f).turn = s.turn := rfl
@[simp] theorem State.modRing_claims (r : Nat) (f : Ring → Ring) : (s.modRing r f).claims = s.claims := rfl
@[simp] theorem State.modRing_cores (r : Nat) (f : Ring → Ring) : (s.modRing r f).cores = s.cores := rfl
@[simp] theorem State.modRing_pairs (r : Nat) (f : Ring → Ring) : (s.modRing r f).pairs = s.pairs := rfl
@[simp] theorem State.modRing_spares (r : Nat) (f : Ring → Ring) : (s.modRing r f).spares = s.spares := rfl
@[simp] theorem State.modRing_caches (r : Nat) (f : Ring → Ring) : (s.modRing r f).caches = s.caches := rfl
@[simp] theorem State.modRing_mem (r : Nat) (f : Ring → Ring) : (s.modRing r f).mem = s.mem := rfl
@[simp] theorem State.modRing_io (r : Nat) (f : Ring → Ring) : (s.modRing r f).io = s.io := rfl
@[simp] theorem State.modRing_queues (r : Nat) (f : Ring → Ring) : (s.modRing r f).queues = s.queues := rfl
@[simp] theorem State.modRing_sources (r : Nat) (f : Ring → Ring) : (s.modRing r f).sources = s.sources := rfl
@[simp] theorem State.modRing_timers (r : Nat) (f : Ring → Ring) : (s.modRing r f).timers = s.timers := rfl
@[simp] theorem State.modRing_parts (r : Nat) (f : Ring → Ring) : (s.modRing r f).parts = s.parts := rfl
@[simp] theorem State.modRing_engines (r : Nat) (f : Ring → Ring) : (s.modRing r f).engines = s.engines := rfl
@[simp] theorem State.modRing_areas (r : Nat) (f : Ring → Ring) : (s.modRing r f).areas = s.areas := rfl
@[simp] theorem State.modRing_bundle (r : Nat) (f : Ring → Ring) : (s.modRing r f).bundle = s.bundle := rfl
@[simp] theorem State.modRing_tansy (r : Nat) (f : Ring → Ring) : (s.modRing r f).tansy = s.tansy := rfl
@[simp] theorem State.modRing_vixia (r : Nat) (f : Ring → Ring) : (s.modRing r f).vixia = s.vixia := rfl
@[simp] theorem State.modRing_pins (r : Nat) (f : Ring → Ring) : (s.modRing r f).pins = s.pins := rfl
@[simp] theorem State.modRing_bus (r : Nat) (f : Ring → Ring) : (s.modRing r f).bus = s.bus := rfl
@[simp] theorem State.modRing_free (r : Nat) (f : Ring → Ring) : (s.modRing r f).free = s.free := rfl

@[simp] theorem State.modCore_pending (c : Nat) (f : Core → Core) : (s.modCore c f).pending = s.pending := rfl
@[simp] theorem State.modCore_clock (c : Nat) (f : Core → Core) : (s.modCore c f).clock = s.clock := rfl
@[simp] theorem State.modCore_cells (c : Nat) (f : Core → Core) : (s.modCore c f).cells = s.cells := rfl
@[simp] theorem State.modCore_rings (c : Nat) (f : Core → Core) : (s.modCore c f).rings = s.rings := rfl
@[simp] theorem State.modCore_turn (c : Nat) (f : Core → Core) : (s.modCore c f).turn = s.turn := rfl
@[simp] theorem State.modCore_claims (c : Nat) (f : Core → Core) : (s.modCore c f).claims = s.claims := rfl
@[simp] theorem State.modCore_cores (c : Nat) (f : Core → Core) : (s.modCore c f).cores = tabMod Core.reset s.cores c f := rfl
@[simp] theorem State.modCore_pairs (c : Nat) (f : Core → Core) : (s.modCore c f).pairs = s.pairs := rfl
@[simp] theorem State.modCore_spares (c : Nat) (f : Core → Core) : (s.modCore c f).spares = s.spares := rfl
@[simp] theorem State.modCore_caches (c : Nat) (f : Core → Core) : (s.modCore c f).caches = s.caches := rfl
@[simp] theorem State.modCore_mem (c : Nat) (f : Core → Core) : (s.modCore c f).mem = s.mem := rfl
@[simp] theorem State.modCore_io (c : Nat) (f : Core → Core) : (s.modCore c f).io = s.io := rfl
@[simp] theorem State.modCore_queues (c : Nat) (f : Core → Core) : (s.modCore c f).queues = s.queues := rfl
@[simp] theorem State.modCore_sources (c : Nat) (f : Core → Core) : (s.modCore c f).sources = s.sources := rfl
@[simp] theorem State.modCore_timers (c : Nat) (f : Core → Core) : (s.modCore c f).timers = s.timers := rfl
@[simp] theorem State.modCore_parts (c : Nat) (f : Core → Core) : (s.modCore c f).parts = s.parts := rfl
@[simp] theorem State.modCore_engines (c : Nat) (f : Core → Core) : (s.modCore c f).engines = s.engines := rfl
@[simp] theorem State.modCore_areas (c : Nat) (f : Core → Core) : (s.modCore c f).areas = s.areas := rfl
@[simp] theorem State.modCore_bundle (c : Nat) (f : Core → Core) : (s.modCore c f).bundle = s.bundle := rfl
@[simp] theorem State.modCore_tansy (c : Nat) (f : Core → Core) : (s.modCore c f).tansy = s.tansy := rfl
@[simp] theorem State.modCore_vixia (c : Nat) (f : Core → Core) : (s.modCore c f).vixia = s.vixia := rfl
@[simp] theorem State.modCore_pins (c : Nat) (f : Core → Core) : (s.modCore c f).pins = s.pins := rfl
@[simp] theorem State.modCore_bus (c : Nat) (f : Core → Core) : (s.modCore c f).bus = s.bus := rfl
@[simp] theorem State.modCore_free (c : Nat) (f : Core → Core) : (s.modCore c f).free = s.free := rfl

@[simp] theorem State.modPair_pending (p : Nat) (f : Pair → Pair) : (s.modPair p f).pending = s.pending := rfl
@[simp] theorem State.modPair_clock (p : Nat) (f : Pair → Pair) : (s.modPair p f).clock = s.clock := rfl
@[simp] theorem State.modPair_cells (p : Nat) (f : Pair → Pair) : (s.modPair p f).cells = s.cells := rfl
@[simp] theorem State.modPair_rings (p : Nat) (f : Pair → Pair) : (s.modPair p f).rings = s.rings := rfl
@[simp] theorem State.modPair_turn (p : Nat) (f : Pair → Pair) : (s.modPair p f).turn = s.turn := rfl
@[simp] theorem State.modPair_claims (p : Nat) (f : Pair → Pair) : (s.modPair p f).claims = s.claims := rfl
@[simp] theorem State.modPair_cores (p : Nat) (f : Pair → Pair) : (s.modPair p f).cores = s.cores := rfl
@[simp] theorem State.modPair_pairs (p : Nat) (f : Pair → Pair) : (s.modPair p f).pairs = tabMod Pair.reset s.pairs p f := rfl
@[simp] theorem State.modPair_spares (p : Nat) (f : Pair → Pair) : (s.modPair p f).spares = s.spares := rfl
@[simp] theorem State.modPair_caches (p : Nat) (f : Pair → Pair) : (s.modPair p f).caches = s.caches := rfl
@[simp] theorem State.modPair_mem (p : Nat) (f : Pair → Pair) : (s.modPair p f).mem = s.mem := rfl
@[simp] theorem State.modPair_io (p : Nat) (f : Pair → Pair) : (s.modPair p f).io = s.io := rfl
@[simp] theorem State.modPair_queues (p : Nat) (f : Pair → Pair) : (s.modPair p f).queues = s.queues := rfl
@[simp] theorem State.modPair_sources (p : Nat) (f : Pair → Pair) : (s.modPair p f).sources = s.sources := rfl
@[simp] theorem State.modPair_timers (p : Nat) (f : Pair → Pair) : (s.modPair p f).timers = s.timers := rfl
@[simp] theorem State.modPair_parts (p : Nat) (f : Pair → Pair) : (s.modPair p f).parts = s.parts := rfl
@[simp] theorem State.modPair_engines (p : Nat) (f : Pair → Pair) : (s.modPair p f).engines = s.engines := rfl
@[simp] theorem State.modPair_areas (p : Nat) (f : Pair → Pair) : (s.modPair p f).areas = s.areas := rfl
@[simp] theorem State.modPair_bundle (p : Nat) (f : Pair → Pair) : (s.modPair p f).bundle = s.bundle := rfl
@[simp] theorem State.modPair_tansy (p : Nat) (f : Pair → Pair) : (s.modPair p f).tansy = s.tansy := rfl
@[simp] theorem State.modPair_vixia (p : Nat) (f : Pair → Pair) : (s.modPair p f).vixia = s.vixia := rfl
@[simp] theorem State.modPair_pins (p : Nat) (f : Pair → Pair) : (s.modPair p f).pins = s.pins := rfl
@[simp] theorem State.modPair_bus (p : Nat) (f : Pair → Pair) : (s.modPair p f).bus = s.bus := rfl
@[simp] theorem State.modPair_free (p : Nat) (f : Pair → Pair) : (s.modPair p f).free = s.free := rfl

@[simp] theorem State.modCaches_pending (f : Caches → Caches) : (s.modCaches f).pending = s.pending := rfl
@[simp] theorem State.modCaches_clock (f : Caches → Caches) : (s.modCaches f).clock = s.clock := rfl
@[simp] theorem State.modCaches_cells (f : Caches → Caches) : (s.modCaches f).cells = s.cells := rfl
@[simp] theorem State.modCaches_rings (f : Caches → Caches) : (s.modCaches f).rings = s.rings := rfl
@[simp] theorem State.modCaches_turn (f : Caches → Caches) : (s.modCaches f).turn = s.turn := rfl
@[simp] theorem State.modCaches_claims (f : Caches → Caches) : (s.modCaches f).claims = s.claims := rfl
@[simp] theorem State.modCaches_cores (f : Caches → Caches) : (s.modCaches f).cores = s.cores := rfl
@[simp] theorem State.modCaches_pairs (f : Caches → Caches) : (s.modCaches f).pairs = s.pairs := rfl
@[simp] theorem State.modCaches_spares (f : Caches → Caches) : (s.modCaches f).spares = s.spares := rfl
@[simp] theorem State.modCaches_caches (f : Caches → Caches) : (s.modCaches f).caches = f s.caches := rfl
@[simp] theorem State.modCaches_mem (f : Caches → Caches) : (s.modCaches f).mem = s.mem := rfl
@[simp] theorem State.modCaches_io (f : Caches → Caches) : (s.modCaches f).io = s.io := rfl
@[simp] theorem State.modCaches_queues (f : Caches → Caches) : (s.modCaches f).queues = s.queues := rfl
@[simp] theorem State.modCaches_sources (f : Caches → Caches) : (s.modCaches f).sources = s.sources := rfl
@[simp] theorem State.modCaches_timers (f : Caches → Caches) : (s.modCaches f).timers = s.timers := rfl
@[simp] theorem State.modCaches_parts (f : Caches → Caches) : (s.modCaches f).parts = s.parts := rfl
@[simp] theorem State.modCaches_engines (f : Caches → Caches) : (s.modCaches f).engines = s.engines := rfl
@[simp] theorem State.modCaches_areas (f : Caches → Caches) : (s.modCaches f).areas = s.areas := rfl
@[simp] theorem State.modCaches_bundle (f : Caches → Caches) : (s.modCaches f).bundle = s.bundle := rfl
@[simp] theorem State.modCaches_tansy (f : Caches → Caches) : (s.modCaches f).tansy = s.tansy := rfl
@[simp] theorem State.modCaches_vixia (f : Caches → Caches) : (s.modCaches f).vixia = s.vixia := rfl
@[simp] theorem State.modCaches_pins (f : Caches → Caches) : (s.modCaches f).pins = s.pins := rfl
@[simp] theorem State.modCaches_bus (f : Caches → Caches) : (s.modCaches f).bus = s.bus := rfl
@[simp] theorem State.modCaches_free (f : Caches → Caches) : (s.modCaches f).free = s.free := rfl

@[simp] theorem State.modSlice_eq (d : Nat) (f : Slice → Slice) : s.modSlice d f =
    s.modCaches fun c => { c with slices := tabMod (Slice.reset d) c.slices d f } := rfl

@[simp] theorem State.modMem_pending (f : Mem → Mem) : (s.modMem f).pending = s.pending := rfl
@[simp] theorem State.modMem_clock (f : Mem → Mem) : (s.modMem f).clock = s.clock := rfl
@[simp] theorem State.modMem_cells (f : Mem → Mem) : (s.modMem f).cells = s.cells := rfl
@[simp] theorem State.modMem_rings (f : Mem → Mem) : (s.modMem f).rings = s.rings := rfl
@[simp] theorem State.modMem_turn (f : Mem → Mem) : (s.modMem f).turn = s.turn := rfl
@[simp] theorem State.modMem_claims (f : Mem → Mem) : (s.modMem f).claims = s.claims := rfl
@[simp] theorem State.modMem_cores (f : Mem → Mem) : (s.modMem f).cores = s.cores := rfl
@[simp] theorem State.modMem_pairs (f : Mem → Mem) : (s.modMem f).pairs = s.pairs := rfl
@[simp] theorem State.modMem_spares (f : Mem → Mem) : (s.modMem f).spares = s.spares := rfl
@[simp] theorem State.modMem_caches (f : Mem → Mem) : (s.modMem f).caches = s.caches := rfl
@[simp] theorem State.modMem_mem (f : Mem → Mem) : (s.modMem f).mem = f s.mem := rfl
@[simp] theorem State.modMem_io (f : Mem → Mem) : (s.modMem f).io = s.io := rfl
@[simp] theorem State.modMem_queues (f : Mem → Mem) : (s.modMem f).queues = s.queues := rfl
@[simp] theorem State.modMem_sources (f : Mem → Mem) : (s.modMem f).sources = s.sources := rfl
@[simp] theorem State.modMem_timers (f : Mem → Mem) : (s.modMem f).timers = s.timers := rfl
@[simp] theorem State.modMem_parts (f : Mem → Mem) : (s.modMem f).parts = s.parts := rfl
@[simp] theorem State.modMem_engines (f : Mem → Mem) : (s.modMem f).engines = s.engines := rfl
@[simp] theorem State.modMem_areas (f : Mem → Mem) : (s.modMem f).areas = s.areas := rfl
@[simp] theorem State.modMem_bundle (f : Mem → Mem) : (s.modMem f).bundle = s.bundle := rfl
@[simp] theorem State.modMem_tansy (f : Mem → Mem) : (s.modMem f).tansy = s.tansy := rfl
@[simp] theorem State.modMem_vixia (f : Mem → Mem) : (s.modMem f).vixia = s.vixia := rfl
@[simp] theorem State.modMem_pins (f : Mem → Mem) : (s.modMem f).pins = s.pins := rfl
@[simp] theorem State.modMem_bus (f : Mem → Mem) : (s.modMem f).bus = s.bus := rfl
@[simp] theorem State.modMem_free (f : Mem → Mem) : (s.modMem f).free = s.free := rfl

@[simp] theorem State.modChan_eq (i : Nat) (f : Chan → Chan) : s.modChan i f =
    s.modMem fun m => { m with chans := tabMod Chan.reset m.chans i f } := rfl

@[simp] theorem State.modTier_eq (t : Nat) (f : Tier → Tier) : s.modTier t f =
    s.modMem fun m => { m with tiers := tabMod Tier.reset m.tiers t f } := rfl

@[simp] theorem State.modIo_pending (f : Io → Io) : (s.modIo f).pending = s.pending := rfl
@[simp] theorem State.modIo_clock (f : Io → Io) : (s.modIo f).clock = s.clock := rfl
@[simp] theorem State.modIo_cells (f : Io → Io) : (s.modIo f).cells = s.cells := rfl
@[simp] theorem State.modIo_rings (f : Io → Io) : (s.modIo f).rings = s.rings := rfl
@[simp] theorem State.modIo_turn (f : Io → Io) : (s.modIo f).turn = s.turn := rfl
@[simp] theorem State.modIo_claims (f : Io → Io) : (s.modIo f).claims = s.claims := rfl
@[simp] theorem State.modIo_cores (f : Io → Io) : (s.modIo f).cores = s.cores := rfl
@[simp] theorem State.modIo_pairs (f : Io → Io) : (s.modIo f).pairs = s.pairs := rfl
@[simp] theorem State.modIo_spares (f : Io → Io) : (s.modIo f).spares = s.spares := rfl
@[simp] theorem State.modIo_caches (f : Io → Io) : (s.modIo f).caches = s.caches := rfl
@[simp] theorem State.modIo_mem (f : Io → Io) : (s.modIo f).mem = s.mem := rfl
@[simp] theorem State.modIo_io (f : Io → Io) : (s.modIo f).io = f s.io := rfl
@[simp] theorem State.modIo_queues (f : Io → Io) : (s.modIo f).queues = s.queues := rfl
@[simp] theorem State.modIo_sources (f : Io → Io) : (s.modIo f).sources = s.sources := rfl
@[simp] theorem State.modIo_timers (f : Io → Io) : (s.modIo f).timers = s.timers := rfl
@[simp] theorem State.modIo_parts (f : Io → Io) : (s.modIo f).parts = s.parts := rfl
@[simp] theorem State.modIo_engines (f : Io → Io) : (s.modIo f).engines = s.engines := rfl
@[simp] theorem State.modIo_areas (f : Io → Io) : (s.modIo f).areas = s.areas := rfl
@[simp] theorem State.modIo_bundle (f : Io → Io) : (s.modIo f).bundle = s.bundle := rfl
@[simp] theorem State.modIo_tansy (f : Io → Io) : (s.modIo f).tansy = s.tansy := rfl
@[simp] theorem State.modIo_vixia (f : Io → Io) : (s.modIo f).vixia = s.vixia := rfl
@[simp] theorem State.modIo_pins (f : Io → Io) : (s.modIo f).pins = s.pins := rfl
@[simp] theorem State.modIo_bus (f : Io → Io) : (s.modIo f).bus = s.bus := rfl
@[simp] theorem State.modIo_free (f : Io → Io) : (s.modIo f).free = s.free := rfl

@[simp] theorem State.modCtx_eq (x : Nat) (f : Ctx → Ctx) : s.modCtx x f =
    s.modIo fun i => { i with ctxs := tabMod Ctx.reset i.ctxs x f } := rfl

@[simp] theorem State.modRun_eq (x : Nat) (f : Run → Run) : s.modRun x f =
    s.modIo fun i => { i with runs := tabMod (Run.start 0) i.runs x f } := rfl

@[simp] theorem State.modStaging_eq (p : Nat) (f : Staging → Staging) : s.modStaging p f =
    s.modIo fun i => { i with staging := tabMod Staging.reset i.staging p f } := rfl

@[simp] theorem State.modIoDie_eq (d : Nat) (f : IoDie → IoDie) : s.modIoDie d f =
    s.modIo fun i => { i with dies := tabMod IoDie.reset i.dies d f } := rfl

@[simp] theorem State.modEntry_eq (j : Nat) (f : JEntry → JEntry) : s.modEntry j f =
    s.modIo fun i => { i with journal := tabMod JEntry.free i.journal j f } := rfl

@[simp] theorem State.modCopy_eq (d : Nat) (f : JCopy → JCopy) : s.modCopy d f =
    s.modIo fun i => { i with copies := tabMod JCopy.reset i.copies d f } := rfl

@[simp] theorem State.modPort_eq (p : Nat) (f : Port → Port) : s.modPort p f =
    s.modIo fun i => { i with ports := tabMod Port.reset i.ports p f } := rfl

@[simp] theorem State.modConv_eq (x : Nat) (f : Conv → Conv) : s.modConv x f =
    s.modIo fun i => { i with convs := tabMod Conv.reset i.convs x f } := rfl

@[simp] theorem State.modQueue_pending (q : Nat) (f : Queue → Queue) : (s.modQueue q f).pending = s.pending := rfl
@[simp] theorem State.modQueue_clock (q : Nat) (f : Queue → Queue) : (s.modQueue q f).clock = s.clock := rfl
@[simp] theorem State.modQueue_cells (q : Nat) (f : Queue → Queue) : (s.modQueue q f).cells = s.cells := rfl
@[simp] theorem State.modQueue_rings (q : Nat) (f : Queue → Queue) : (s.modQueue q f).rings = s.rings := rfl
@[simp] theorem State.modQueue_turn (q : Nat) (f : Queue → Queue) : (s.modQueue q f).turn = s.turn := rfl
@[simp] theorem State.modQueue_claims (q : Nat) (f : Queue → Queue) : (s.modQueue q f).claims = s.claims := rfl
@[simp] theorem State.modQueue_cores (q : Nat) (f : Queue → Queue) : (s.modQueue q f).cores = s.cores := rfl
@[simp] theorem State.modQueue_pairs (q : Nat) (f : Queue → Queue) : (s.modQueue q f).pairs = s.pairs := rfl
@[simp] theorem State.modQueue_spares (q : Nat) (f : Queue → Queue) : (s.modQueue q f).spares = s.spares := rfl
@[simp] theorem State.modQueue_caches (q : Nat) (f : Queue → Queue) : (s.modQueue q f).caches = s.caches := rfl
@[simp] theorem State.modQueue_mem (q : Nat) (f : Queue → Queue) : (s.modQueue q f).mem = s.mem := rfl
@[simp] theorem State.modQueue_io (q : Nat) (f : Queue → Queue) : (s.modQueue q f).io = s.io := rfl
@[simp] theorem State.modQueue_queues (q : Nat) (f : Queue → Queue) : (s.modQueue q f).queues = tabMod Queue.reset s.queues q f := rfl
@[simp] theorem State.modQueue_sources (q : Nat) (f : Queue → Queue) : (s.modQueue q f).sources = s.sources := rfl
@[simp] theorem State.modQueue_timers (q : Nat) (f : Queue → Queue) : (s.modQueue q f).timers = s.timers := rfl
@[simp] theorem State.modQueue_parts (q : Nat) (f : Queue → Queue) : (s.modQueue q f).parts = s.parts := rfl
@[simp] theorem State.modQueue_engines (q : Nat) (f : Queue → Queue) : (s.modQueue q f).engines = s.engines := rfl
@[simp] theorem State.modQueue_areas (q : Nat) (f : Queue → Queue) : (s.modQueue q f).areas = s.areas := rfl
@[simp] theorem State.modQueue_bundle (q : Nat) (f : Queue → Queue) : (s.modQueue q f).bundle = s.bundle := rfl
@[simp] theorem State.modQueue_tansy (q : Nat) (f : Queue → Queue) : (s.modQueue q f).tansy = s.tansy := rfl
@[simp] theorem State.modQueue_vixia (q : Nat) (f : Queue → Queue) : (s.modQueue q f).vixia = s.vixia := rfl
@[simp] theorem State.modQueue_pins (q : Nat) (f : Queue → Queue) : (s.modQueue q f).pins = s.pins := rfl
@[simp] theorem State.modQueue_bus (q : Nat) (f : Queue → Queue) : (s.modQueue q f).bus = s.bus := rfl
@[simp] theorem State.modQueue_free (q : Nat) (f : Queue → Queue) : (s.modQueue q f).free = s.free := rfl

@[simp] theorem State.modSource_pending (r : Nat) (f : Source → Source) : (s.modSource r f).pending = s.pending := rfl
@[simp] theorem State.modSource_clock (r : Nat) (f : Source → Source) : (s.modSource r f).clock = s.clock := rfl
@[simp] theorem State.modSource_cells (r : Nat) (f : Source → Source) : (s.modSource r f).cells = s.cells := rfl
@[simp] theorem State.modSource_rings (r : Nat) (f : Source → Source) : (s.modSource r f).rings = s.rings := rfl
@[simp] theorem State.modSource_turn (r : Nat) (f : Source → Source) : (s.modSource r f).turn = s.turn := rfl
@[simp] theorem State.modSource_claims (r : Nat) (f : Source → Source) : (s.modSource r f).claims = s.claims := rfl
@[simp] theorem State.modSource_cores (r : Nat) (f : Source → Source) : (s.modSource r f).cores = s.cores := rfl
@[simp] theorem State.modSource_pairs (r : Nat) (f : Source → Source) : (s.modSource r f).pairs = s.pairs := rfl
@[simp] theorem State.modSource_spares (r : Nat) (f : Source → Source) : (s.modSource r f).spares = s.spares := rfl
@[simp] theorem State.modSource_caches (r : Nat) (f : Source → Source) : (s.modSource r f).caches = s.caches := rfl
@[simp] theorem State.modSource_mem (r : Nat) (f : Source → Source) : (s.modSource r f).mem = s.mem := rfl
@[simp] theorem State.modSource_io (r : Nat) (f : Source → Source) : (s.modSource r f).io = s.io := rfl
@[simp] theorem State.modSource_queues (r : Nat) (f : Source → Source) : (s.modSource r f).queues = s.queues := rfl
@[simp] theorem State.modSource_sources (r : Nat) (f : Source → Source) : (s.modSource r f).sources = tabMod Source.reset s.sources r f := rfl
@[simp] theorem State.modSource_timers (r : Nat) (f : Source → Source) : (s.modSource r f).timers = s.timers := rfl
@[simp] theorem State.modSource_parts (r : Nat) (f : Source → Source) : (s.modSource r f).parts = s.parts := rfl
@[simp] theorem State.modSource_engines (r : Nat) (f : Source → Source) : (s.modSource r f).engines = s.engines := rfl
@[simp] theorem State.modSource_areas (r : Nat) (f : Source → Source) : (s.modSource r f).areas = s.areas := rfl
@[simp] theorem State.modSource_bundle (r : Nat) (f : Source → Source) : (s.modSource r f).bundle = s.bundle := rfl
@[simp] theorem State.modSource_tansy (r : Nat) (f : Source → Source) : (s.modSource r f).tansy = s.tansy := rfl
@[simp] theorem State.modSource_vixia (r : Nat) (f : Source → Source) : (s.modSource r f).vixia = s.vixia := rfl
@[simp] theorem State.modSource_pins (r : Nat) (f : Source → Source) : (s.modSource r f).pins = s.pins := rfl
@[simp] theorem State.modSource_bus (r : Nat) (f : Source → Source) : (s.modSource r f).bus = s.bus := rfl
@[simp] theorem State.modSource_free (r : Nat) (f : Source → Source) : (s.modSource r f).free = s.free := rfl

@[simp] theorem State.modTimer_pending (n : Nat) (f : Timer → Timer) : (s.modTimer n f).pending = s.pending := rfl
@[simp] theorem State.modTimer_clock (n : Nat) (f : Timer → Timer) : (s.modTimer n f).clock = s.clock := rfl
@[simp] theorem State.modTimer_cells (n : Nat) (f : Timer → Timer) : (s.modTimer n f).cells = s.cells := rfl
@[simp] theorem State.modTimer_rings (n : Nat) (f : Timer → Timer) : (s.modTimer n f).rings = s.rings := rfl
@[simp] theorem State.modTimer_turn (n : Nat) (f : Timer → Timer) : (s.modTimer n f).turn = s.turn := rfl
@[simp] theorem State.modTimer_claims (n : Nat) (f : Timer → Timer) : (s.modTimer n f).claims = s.claims := rfl
@[simp] theorem State.modTimer_cores (n : Nat) (f : Timer → Timer) : (s.modTimer n f).cores = s.cores := rfl
@[simp] theorem State.modTimer_pairs (n : Nat) (f : Timer → Timer) : (s.modTimer n f).pairs = s.pairs := rfl
@[simp] theorem State.modTimer_spares (n : Nat) (f : Timer → Timer) : (s.modTimer n f).spares = s.spares := rfl
@[simp] theorem State.modTimer_caches (n : Nat) (f : Timer → Timer) : (s.modTimer n f).caches = s.caches := rfl
@[simp] theorem State.modTimer_mem (n : Nat) (f : Timer → Timer) : (s.modTimer n f).mem = s.mem := rfl
@[simp] theorem State.modTimer_io (n : Nat) (f : Timer → Timer) : (s.modTimer n f).io = s.io := rfl
@[simp] theorem State.modTimer_queues (n : Nat) (f : Timer → Timer) : (s.modTimer n f).queues = s.queues := rfl
@[simp] theorem State.modTimer_sources (n : Nat) (f : Timer → Timer) : (s.modTimer n f).sources = s.sources := rfl
@[simp] theorem State.modTimer_timers (n : Nat) (f : Timer → Timer) : (s.modTimer n f).timers = tabMod Timer.reset s.timers n f := rfl
@[simp] theorem State.modTimer_parts (n : Nat) (f : Timer → Timer) : (s.modTimer n f).parts = s.parts := rfl
@[simp] theorem State.modTimer_engines (n : Nat) (f : Timer → Timer) : (s.modTimer n f).engines = s.engines := rfl
@[simp] theorem State.modTimer_areas (n : Nat) (f : Timer → Timer) : (s.modTimer n f).areas = s.areas := rfl
@[simp] theorem State.modTimer_bundle (n : Nat) (f : Timer → Timer) : (s.modTimer n f).bundle = s.bundle := rfl
@[simp] theorem State.modTimer_tansy (n : Nat) (f : Timer → Timer) : (s.modTimer n f).tansy = s.tansy := rfl
@[simp] theorem State.modTimer_vixia (n : Nat) (f : Timer → Timer) : (s.modTimer n f).vixia = s.vixia := rfl
@[simp] theorem State.modTimer_pins (n : Nat) (f : Timer → Timer) : (s.modTimer n f).pins = s.pins := rfl
@[simp] theorem State.modTimer_bus (n : Nat) (f : Timer → Timer) : (s.modTimer n f).bus = s.bus := rfl
@[simp] theorem State.modTimer_free (n : Nat) (f : Timer → Timer) : (s.modTimer n f).free = s.free := rfl

@[simp] theorem State.modParts_pending (f : Parts → Parts) : (s.modParts f).pending = s.pending := rfl
@[simp] theorem State.modParts_clock (f : Parts → Parts) : (s.modParts f).clock = s.clock := rfl
@[simp] theorem State.modParts_cells (f : Parts → Parts) : (s.modParts f).cells = s.cells := rfl
@[simp] theorem State.modParts_rings (f : Parts → Parts) : (s.modParts f).rings = s.rings := rfl
@[simp] theorem State.modParts_turn (f : Parts → Parts) : (s.modParts f).turn = s.turn := rfl
@[simp] theorem State.modParts_claims (f : Parts → Parts) : (s.modParts f).claims = s.claims := rfl
@[simp] theorem State.modParts_cores (f : Parts → Parts) : (s.modParts f).cores = s.cores := rfl
@[simp] theorem State.modParts_pairs (f : Parts → Parts) : (s.modParts f).pairs = s.pairs := rfl
@[simp] theorem State.modParts_spares (f : Parts → Parts) : (s.modParts f).spares = s.spares := rfl
@[simp] theorem State.modParts_caches (f : Parts → Parts) : (s.modParts f).caches = s.caches := rfl
@[simp] theorem State.modParts_mem (f : Parts → Parts) : (s.modParts f).mem = s.mem := rfl
@[simp] theorem State.modParts_io (f : Parts → Parts) : (s.modParts f).io = s.io := rfl
@[simp] theorem State.modParts_queues (f : Parts → Parts) : (s.modParts f).queues = s.queues := rfl
@[simp] theorem State.modParts_sources (f : Parts → Parts) : (s.modParts f).sources = s.sources := rfl
@[simp] theorem State.modParts_timers (f : Parts → Parts) : (s.modParts f).timers = s.timers := rfl
@[simp] theorem State.modParts_parts (f : Parts → Parts) : (s.modParts f).parts = f s.parts := rfl
@[simp] theorem State.modParts_engines (f : Parts → Parts) : (s.modParts f).engines = s.engines := rfl
@[simp] theorem State.modParts_areas (f : Parts → Parts) : (s.modParts f).areas = s.areas := rfl
@[simp] theorem State.modParts_bundle (f : Parts → Parts) : (s.modParts f).bundle = s.bundle := rfl
@[simp] theorem State.modParts_tansy (f : Parts → Parts) : (s.modParts f).tansy = s.tansy := rfl
@[simp] theorem State.modParts_vixia (f : Parts → Parts) : (s.modParts f).vixia = s.vixia := rfl
@[simp] theorem State.modParts_pins (f : Parts → Parts) : (s.modParts f).pins = s.pins := rfl
@[simp] theorem State.modParts_bus (f : Parts → Parts) : (s.modParts f).bus = s.bus := rfl
@[simp] theorem State.modParts_free (f : Parts → Parts) : (s.modParts f).free = s.free := rfl

@[simp] theorem State.modPart_eq (n : Nat) (f : Part → Part) : s.modPart n f =
    s.modParts fun p => { p with parts := tabMod Part.reset p.parts n f } := rfl

@[simp] theorem State.modEngine_pending (e : Nat) (f : Engine → Engine) : (s.modEngine e f).pending = s.pending := rfl
@[simp] theorem State.modEngine_clock (e : Nat) (f : Engine → Engine) : (s.modEngine e f).clock = s.clock := rfl
@[simp] theorem State.modEngine_cells (e : Nat) (f : Engine → Engine) : (s.modEngine e f).cells = s.cells := rfl
@[simp] theorem State.modEngine_rings (e : Nat) (f : Engine → Engine) : (s.modEngine e f).rings = s.rings := rfl
@[simp] theorem State.modEngine_turn (e : Nat) (f : Engine → Engine) : (s.modEngine e f).turn = s.turn := rfl
@[simp] theorem State.modEngine_claims (e : Nat) (f : Engine → Engine) : (s.modEngine e f).claims = s.claims := rfl
@[simp] theorem State.modEngine_cores (e : Nat) (f : Engine → Engine) : (s.modEngine e f).cores = s.cores := rfl
@[simp] theorem State.modEngine_pairs (e : Nat) (f : Engine → Engine) : (s.modEngine e f).pairs = s.pairs := rfl
@[simp] theorem State.modEngine_spares (e : Nat) (f : Engine → Engine) : (s.modEngine e f).spares = s.spares := rfl
@[simp] theorem State.modEngine_caches (e : Nat) (f : Engine → Engine) : (s.modEngine e f).caches = s.caches := rfl
@[simp] theorem State.modEngine_mem (e : Nat) (f : Engine → Engine) : (s.modEngine e f).mem = s.mem := rfl
@[simp] theorem State.modEngine_io (e : Nat) (f : Engine → Engine) : (s.modEngine e f).io = s.io := rfl
@[simp] theorem State.modEngine_queues (e : Nat) (f : Engine → Engine) : (s.modEngine e f).queues = s.queues := rfl
@[simp] theorem State.modEngine_sources (e : Nat) (f : Engine → Engine) : (s.modEngine e f).sources = s.sources := rfl
@[simp] theorem State.modEngine_timers (e : Nat) (f : Engine → Engine) : (s.modEngine e f).timers = s.timers := rfl
@[simp] theorem State.modEngine_parts (e : Nat) (f : Engine → Engine) : (s.modEngine e f).parts = s.parts := rfl
@[simp] theorem State.modEngine_engines (e : Nat) (f : Engine → Engine) : (s.modEngine e f).engines = tabMod Engine.reset s.engines e f := rfl
@[simp] theorem State.modEngine_areas (e : Nat) (f : Engine → Engine) : (s.modEngine e f).areas = s.areas := rfl
@[simp] theorem State.modEngine_bundle (e : Nat) (f : Engine → Engine) : (s.modEngine e f).bundle = s.bundle := rfl
@[simp] theorem State.modEngine_tansy (e : Nat) (f : Engine → Engine) : (s.modEngine e f).tansy = s.tansy := rfl
@[simp] theorem State.modEngine_vixia (e : Nat) (f : Engine → Engine) : (s.modEngine e f).vixia = s.vixia := rfl
@[simp] theorem State.modEngine_pins (e : Nat) (f : Engine → Engine) : (s.modEngine e f).pins = s.pins := rfl
@[simp] theorem State.modEngine_bus (e : Nat) (f : Engine → Engine) : (s.modEngine e f).bus = s.bus := rfl
@[simp] theorem State.modEngine_free (e : Nat) (f : Engine → Engine) : (s.modEngine e f).free = s.free := rfl

@[simp] theorem State.modBundle_pending (f : Bundle → Bundle) : (s.modBundle f).pending = s.pending := rfl
@[simp] theorem State.modBundle_clock (f : Bundle → Bundle) : (s.modBundle f).clock = s.clock := rfl
@[simp] theorem State.modBundle_cells (f : Bundle → Bundle) : (s.modBundle f).cells = s.cells := rfl
@[simp] theorem State.modBundle_rings (f : Bundle → Bundle) : (s.modBundle f).rings = s.rings := rfl
@[simp] theorem State.modBundle_turn (f : Bundle → Bundle) : (s.modBundle f).turn = s.turn := rfl
@[simp] theorem State.modBundle_claims (f : Bundle → Bundle) : (s.modBundle f).claims = s.claims := rfl
@[simp] theorem State.modBundle_cores (f : Bundle → Bundle) : (s.modBundle f).cores = s.cores := rfl
@[simp] theorem State.modBundle_pairs (f : Bundle → Bundle) : (s.modBundle f).pairs = s.pairs := rfl
@[simp] theorem State.modBundle_spares (f : Bundle → Bundle) : (s.modBundle f).spares = s.spares := rfl
@[simp] theorem State.modBundle_caches (f : Bundle → Bundle) : (s.modBundle f).caches = s.caches := rfl
@[simp] theorem State.modBundle_mem (f : Bundle → Bundle) : (s.modBundle f).mem = s.mem := rfl
@[simp] theorem State.modBundle_io (f : Bundle → Bundle) : (s.modBundle f).io = s.io := rfl
@[simp] theorem State.modBundle_queues (f : Bundle → Bundle) : (s.modBundle f).queues = s.queues := rfl
@[simp] theorem State.modBundle_sources (f : Bundle → Bundle) : (s.modBundle f).sources = s.sources := rfl
@[simp] theorem State.modBundle_timers (f : Bundle → Bundle) : (s.modBundle f).timers = s.timers := rfl
@[simp] theorem State.modBundle_parts (f : Bundle → Bundle) : (s.modBundle f).parts = s.parts := rfl
@[simp] theorem State.modBundle_engines (f : Bundle → Bundle) : (s.modBundle f).engines = s.engines := rfl
@[simp] theorem State.modBundle_areas (f : Bundle → Bundle) : (s.modBundle f).areas = s.areas := rfl
@[simp] theorem State.modBundle_bundle (f : Bundle → Bundle) : (s.modBundle f).bundle = f s.bundle := rfl
@[simp] theorem State.modBundle_tansy (f : Bundle → Bundle) : (s.modBundle f).tansy = s.tansy := rfl
@[simp] theorem State.modBundle_vixia (f : Bundle → Bundle) : (s.modBundle f).vixia = s.vixia := rfl
@[simp] theorem State.modBundle_pins (f : Bundle → Bundle) : (s.modBundle f).pins = s.pins := rfl
@[simp] theorem State.modBundle_bus (f : Bundle → Bundle) : (s.modBundle f).bus = s.bus := rfl
@[simp] theorem State.modBundle_free (f : Bundle → Bundle) : (s.modBundle f).free = s.free := rfl

@[simp] theorem State.modMember_eq (m : Nat) (f : Member → Member) : s.modMember m f =
    s.modBundle fun b => { b with members := tabMod Member.reset b.members m f } := rfl

@[simp] theorem State.modTansy_pending (f : Tansy → Tansy) : (s.modTansy f).pending = s.pending := rfl
@[simp] theorem State.modTansy_clock (f : Tansy → Tansy) : (s.modTansy f).clock = s.clock := rfl
@[simp] theorem State.modTansy_cells (f : Tansy → Tansy) : (s.modTansy f).cells = s.cells := rfl
@[simp] theorem State.modTansy_rings (f : Tansy → Tansy) : (s.modTansy f).rings = s.rings := rfl
@[simp] theorem State.modTansy_turn (f : Tansy → Tansy) : (s.modTansy f).turn = s.turn := rfl
@[simp] theorem State.modTansy_claims (f : Tansy → Tansy) : (s.modTansy f).claims = s.claims := rfl
@[simp] theorem State.modTansy_cores (f : Tansy → Tansy) : (s.modTansy f).cores = s.cores := rfl
@[simp] theorem State.modTansy_pairs (f : Tansy → Tansy) : (s.modTansy f).pairs = s.pairs := rfl
@[simp] theorem State.modTansy_spares (f : Tansy → Tansy) : (s.modTansy f).spares = s.spares := rfl
@[simp] theorem State.modTansy_caches (f : Tansy → Tansy) : (s.modTansy f).caches = s.caches := rfl
@[simp] theorem State.modTansy_mem (f : Tansy → Tansy) : (s.modTansy f).mem = s.mem := rfl
@[simp] theorem State.modTansy_io (f : Tansy → Tansy) : (s.modTansy f).io = s.io := rfl
@[simp] theorem State.modTansy_queues (f : Tansy → Tansy) : (s.modTansy f).queues = s.queues := rfl
@[simp] theorem State.modTansy_sources (f : Tansy → Tansy) : (s.modTansy f).sources = s.sources := rfl
@[simp] theorem State.modTansy_timers (f : Tansy → Tansy) : (s.modTansy f).timers = s.timers := rfl
@[simp] theorem State.modTansy_parts (f : Tansy → Tansy) : (s.modTansy f).parts = s.parts := rfl
@[simp] theorem State.modTansy_engines (f : Tansy → Tansy) : (s.modTansy f).engines = s.engines := rfl
@[simp] theorem State.modTansy_areas (f : Tansy → Tansy) : (s.modTansy f).areas = s.areas := rfl
@[simp] theorem State.modTansy_bundle (f : Tansy → Tansy) : (s.modTansy f).bundle = s.bundle := rfl
@[simp] theorem State.modTansy_tansy (f : Tansy → Tansy) : (s.modTansy f).tansy = f s.tansy := rfl
@[simp] theorem State.modTansy_vixia (f : Tansy → Tansy) : (s.modTansy f).vixia = s.vixia := rfl
@[simp] theorem State.modTansy_pins (f : Tansy → Tansy) : (s.modTansy f).pins = s.pins := rfl
@[simp] theorem State.modTansy_bus (f : Tansy → Tansy) : (s.modTansy f).bus = s.bus := rfl
@[simp] theorem State.modTansy_free (f : Tansy → Tansy) : (s.modTansy f).free = s.free := rfl

@[simp] theorem State.modRep_eq (r : Nat) (f : Reporter → Reporter) : s.modRep r f =
    s.modTansy fun t => { t with reps := tabMod Reporter.reset t.reps r f } := rfl

@[simp] theorem State.modVixia_pending (f : Vixia → Vixia) : (s.modVixia f).pending = s.pending := rfl
@[simp] theorem State.modVixia_clock (f : Vixia → Vixia) : (s.modVixia f).clock = s.clock := rfl
@[simp] theorem State.modVixia_cells (f : Vixia → Vixia) : (s.modVixia f).cells = s.cells := rfl
@[simp] theorem State.modVixia_rings (f : Vixia → Vixia) : (s.modVixia f).rings = s.rings := rfl
@[simp] theorem State.modVixia_turn (f : Vixia → Vixia) : (s.modVixia f).turn = s.turn := rfl
@[simp] theorem State.modVixia_claims (f : Vixia → Vixia) : (s.modVixia f).claims = s.claims := rfl
@[simp] theorem State.modVixia_cores (f : Vixia → Vixia) : (s.modVixia f).cores = s.cores := rfl
@[simp] theorem State.modVixia_pairs (f : Vixia → Vixia) : (s.modVixia f).pairs = s.pairs := rfl
@[simp] theorem State.modVixia_spares (f : Vixia → Vixia) : (s.modVixia f).spares = s.spares := rfl
@[simp] theorem State.modVixia_caches (f : Vixia → Vixia) : (s.modVixia f).caches = s.caches := rfl
@[simp] theorem State.modVixia_mem (f : Vixia → Vixia) : (s.modVixia f).mem = s.mem := rfl
@[simp] theorem State.modVixia_io (f : Vixia → Vixia) : (s.modVixia f).io = s.io := rfl
@[simp] theorem State.modVixia_queues (f : Vixia → Vixia) : (s.modVixia f).queues = s.queues := rfl
@[simp] theorem State.modVixia_sources (f : Vixia → Vixia) : (s.modVixia f).sources = s.sources := rfl
@[simp] theorem State.modVixia_timers (f : Vixia → Vixia) : (s.modVixia f).timers = s.timers := rfl
@[simp] theorem State.modVixia_parts (f : Vixia → Vixia) : (s.modVixia f).parts = s.parts := rfl
@[simp] theorem State.modVixia_engines (f : Vixia → Vixia) : (s.modVixia f).engines = s.engines := rfl
@[simp] theorem State.modVixia_areas (f : Vixia → Vixia) : (s.modVixia f).areas = s.areas := rfl
@[simp] theorem State.modVixia_bundle (f : Vixia → Vixia) : (s.modVixia f).bundle = s.bundle := rfl
@[simp] theorem State.modVixia_tansy (f : Vixia → Vixia) : (s.modVixia f).tansy = s.tansy := rfl
@[simp] theorem State.modVixia_vixia (f : Vixia → Vixia) : (s.modVixia f).vixia = f s.vixia := rfl
@[simp] theorem State.modVixia_pins (f : Vixia → Vixia) : (s.modVixia f).pins = s.pins := rfl
@[simp] theorem State.modVixia_bus (f : Vixia → Vixia) : (s.modVixia f).bus = s.bus := rfl
@[simp] theorem State.modVixia_free (f : Vixia → Vixia) : (s.modVixia f).free = s.free := rfl

@[simp] theorem State.modSensor_eq (n : Nat) (f : Sensor → Sensor) : s.modSensor n f =
    s.modVixia fun v => { v with sensors := tabMod (Sensor.reset n) v.sensors n f } := rfl

@[simp] theorem State.modPins_pending (f : Pins → Pins) : (s.modPins f).pending = s.pending := rfl
@[simp] theorem State.modPins_clock (f : Pins → Pins) : (s.modPins f).clock = s.clock := rfl
@[simp] theorem State.modPins_cells (f : Pins → Pins) : (s.modPins f).cells = s.cells := rfl
@[simp] theorem State.modPins_rings (f : Pins → Pins) : (s.modPins f).rings = s.rings := rfl
@[simp] theorem State.modPins_turn (f : Pins → Pins) : (s.modPins f).turn = s.turn := rfl
@[simp] theorem State.modPins_claims (f : Pins → Pins) : (s.modPins f).claims = s.claims := rfl
@[simp] theorem State.modPins_cores (f : Pins → Pins) : (s.modPins f).cores = s.cores := rfl
@[simp] theorem State.modPins_pairs (f : Pins → Pins) : (s.modPins f).pairs = s.pairs := rfl
@[simp] theorem State.modPins_spares (f : Pins → Pins) : (s.modPins f).spares = s.spares := rfl
@[simp] theorem State.modPins_caches (f : Pins → Pins) : (s.modPins f).caches = s.caches := rfl
@[simp] theorem State.modPins_mem (f : Pins → Pins) : (s.modPins f).mem = s.mem := rfl
@[simp] theorem State.modPins_io (f : Pins → Pins) : (s.modPins f).io = s.io := rfl
@[simp] theorem State.modPins_queues (f : Pins → Pins) : (s.modPins f).queues = s.queues := rfl
@[simp] theorem State.modPins_sources (f : Pins → Pins) : (s.modPins f).sources = s.sources := rfl
@[simp] theorem State.modPins_timers (f : Pins → Pins) : (s.modPins f).timers = s.timers := rfl
@[simp] theorem State.modPins_parts (f : Pins → Pins) : (s.modPins f).parts = s.parts := rfl
@[simp] theorem State.modPins_engines (f : Pins → Pins) : (s.modPins f).engines = s.engines := rfl
@[simp] theorem State.modPins_areas (f : Pins → Pins) : (s.modPins f).areas = s.areas := rfl
@[simp] theorem State.modPins_bundle (f : Pins → Pins) : (s.modPins f).bundle = s.bundle := rfl
@[simp] theorem State.modPins_tansy (f : Pins → Pins) : (s.modPins f).tansy = s.tansy := rfl
@[simp] theorem State.modPins_vixia (f : Pins → Pins) : (s.modPins f).vixia = s.vixia := rfl
@[simp] theorem State.modPins_pins (f : Pins → Pins) : (s.modPins f).pins = f s.pins := rfl
@[simp] theorem State.modPins_bus (f : Pins → Pins) : (s.modPins f).bus = s.bus := rfl
@[simp] theorem State.modPins_free (f : Pins → Pins) : (s.modPins f).free = s.free := rfl

theorem State.cell_modCell (c : Nat) (f : Cell → Cell) (at_ : Nat) :
    (s.modCell c f).cell at_ = if at_ = c then f (s.cell c) else s.cell at_ := by
  simp [State.cell, tabGet_tabMod]
theorem State.ring_modRing (r : Nat) (f : Ring → Ring) (at_ : Nat) :
    (s.modRing r f).ring at_ = if at_ = r then f (s.ring r) else s.ring at_ := by
  simp [State.ring, tabGet_tabMod]
theorem State.core_modCore (c : Nat) (f : Core → Core) (at_ : Nat) :
    (s.modCore c f).core at_ = if at_ = c then f (s.core c) else s.core at_ := by
  simp [State.core, tabGet_tabMod]
theorem State.pair_modPair (p : Nat) (f : Pair → Pair) (at_ : Nat) :
    (s.modPair p f).pair at_ = if at_ = p then f (s.pair p) else s.pair at_ := by
  simp [State.pair, tabGet_tabMod]
theorem State.slice_modSlice (d : Nat) (f : Slice → Slice) : (s.modSlice d f).slice d = f (s.slice d) := by
  simp [State.slice]
theorem State.chan_modChan (i : Nat) (f : Chan → Chan) (at_ : Nat) :
    (s.modChan i f).chan at_ = if at_ = i then f (s.chan i) else s.chan at_ := by
  simp [State.chan, tabGet_tabMod]
theorem State.tier_modTier (t : Nat) (f : Tier → Tier) (at_ : Nat) :
    (s.modTier t f).tier at_ = if at_ = t then f (s.tier t) else s.tier at_ := by
  simp [State.tier, tabGet_tabMod]
theorem State.ctx_modCtx (x : Nat) (f : Ctx → Ctx) (at_ : Nat) :
    (s.modCtx x f).ctx at_ = if at_ = x then f (s.ctx x) else s.ctx at_ := by
  simp [State.ctx, tabGet_tabMod]
theorem State.run_modRun (x : Nat) (f : Run → Run) (at_ : Nat) :
    (s.modRun x f).run at_ = if at_ = x then f (s.run x) else s.run at_ := by
  simp [State.run, tabGet_tabMod]
theorem State.staging_modStaging (p : Nat) (f : Staging → Staging) (at_ : Nat) :
    (s.modStaging p f).staging at_ = if at_ = p then f (s.staging p) else s.staging at_ := by
  simp [State.staging, tabGet_tabMod]
theorem State.ioDie_modIoDie (d : Nat) (f : IoDie → IoDie) (at_ : Nat) :
    (s.modIoDie d f).ioDie at_ = if at_ = d then f (s.ioDie d) else s.ioDie at_ := by
  simp [State.ioDie, tabGet_tabMod]
theorem State.entry_modEntry (j : Nat) (f : JEntry → JEntry) (at_ : Nat) :
    (s.modEntry j f).entry at_ = if at_ = j then f (s.entry j) else s.entry at_ := by
  simp [State.entry, tabGet_tabMod]
theorem State.copy_modCopy (d : Nat) (f : JCopy → JCopy) (at_ : Nat) :
    (s.modCopy d f).copy at_ = if at_ = d then f (s.copy d) else s.copy at_ := by
  simp [State.copy, tabGet_tabMod]
theorem State.port_modPort (p : Nat) (f : Port → Port) (at_ : Nat) :
    (s.modPort p f).port at_ = if at_ = p then f (s.port p) else s.port at_ := by
  simp [State.port, tabGet_tabMod]
theorem State.conv_modConv (x : Nat) (f : Conv → Conv) (at_ : Nat) :
    (s.modConv x f).conv at_ = if at_ = x then f (s.conv x) else s.conv at_ := by
  simp [State.conv, tabGet_tabMod]
theorem State.queue_modQueue (q : Nat) (f : Queue → Queue) (at_ : Nat) :
    (s.modQueue q f).queue at_ = if at_ = q then f (s.queue q) else s.queue at_ := by
  simp [State.queue, tabGet_tabMod]
theorem State.source_modSource (r : Nat) (f : Source → Source) (at_ : Nat) :
    (s.modSource r f).source at_ = if at_ = r then f (s.source r) else s.source at_ := by
  simp [State.source, tabGet_tabMod]
theorem State.timer_modTimer (n : Nat) (f : Timer → Timer) (at_ : Nat) :
    (s.modTimer n f).timer at_ = if at_ = n then f (s.timer n) else s.timer at_ := by
  simp [State.timer, tabGet_tabMod]
theorem State.part_modPart (n : Nat) (f : Part → Part) (at_ : Nat) :
    (s.modPart n f).part at_ = if at_ = n then f (s.part n) else s.part at_ := by
  simp [State.part, tabGet_tabMod]
theorem State.engine_modEngine (e : Nat) (f : Engine → Engine) (at_ : Nat) :
    (s.modEngine e f).engine at_ = if at_ = e then f (s.engine e) else s.engine at_ := by
  simp [State.engine, tabGet_tabMod]
theorem State.member_modMember (m : Nat) (f : Member → Member) (at_ : Nat) :
    (s.modMember m f).member at_ = if at_ = m then f (s.member m) else s.member at_ := by
  simp [State.member, tabGet_tabMod]
theorem State.rep_modRep (r : Nat) (f : Reporter → Reporter) (at_ : Nat) :
    (s.modRep r f).rep at_ = if at_ = r then f (s.rep r) else s.rep at_ := by
  simp [State.rep, tabGet_tabMod]
theorem State.sensor_modSensor (n : Nat) (f : Sensor → Sensor) : (s.modSensor n f).sensor n = f (s.sensor n) := by
  simp [State.sensor]

end Sys2Proof.Machine
end

