-- ==== Sys2Proof/Laws/Commands.lean ====
section
/-! SUPPORT. What the shared path of every management opcode does: an admitted packet reaches the opcode's own rules,
and the answer changes the ring that carried it and nothing else. -/

namespace Sys2Proof.Machine

/-- An admitted packet passes every check of R64, so that the opcode's own rules decide. -/
theorem Op.judge_admitted {o : Op} {pk : Pkt} {c : Nat} {s : State} (h : Admitted o pk c s) :
    o.judge pk s = o.run ⟨pk, c, o.code⟩ s := by
  have hseen : (if pk.auth.toNat = 0 ∧ (!s.visible (pk.ring.val / 16) c) = true then none else some c) = some c := by
    rw [if_neg]
    rintro ⟨h0, hv⟩
    rw [h.seen h0] at hv
    cases hv
  have hpath := h.path
  have hlen : ¬ (508 < pktUnits pk ∨ pk.params.length % 8 ≠ 0 ∨ (!o.len (some c) pk) = true) := by
    have := h.params
    simp only [pktUnits, h.len, Bool.not_true, Bool.false_eq_true, or_false]
    omega
  have hauth : ¬ (4 ≤ pk.auth.toNat ∨ s.authMax pk.ring < pk.auth.toNat ∨ (pk.auth.toNat = 2 ∧ pk.ring.val ≠ 1024)) := by
    have := h.auth
    omega
  have hpart : ¬ (pk.auth.toNat = 0 ∧ pk.partition.toNat ≠ pk.ring.val / 16) := fun e => e.2 (h.part e.1)
  simp only [Op.judge, h.cell, hseen, h.on, if_true]
  rw [if_neg (by omega), if_neg hlen, if_neg hauth, if_neg hpart]
  simp [h.class_, -List.contains_eq_mem]

/-- Nothing but the ring that carries a packet differs from what the opcode's rules leave. -/
theorem answer_only (op : Nat) (pk : Pkt) (r : Res) (s : State) (h : pk.checkOnly = false) :
    { answer op pk r s with rings := r.state.rings } = r.state := by
  simp only [answer, h, Bool.false_eq_true, false_and]
  split <;> split <;> rfl

/-- CHECK_ONLY changes nothing but the ring that carries the packet (R60), but where the check is made elsewhere. -/
theorem answer_check (op : Nat) (pk : Pkt) (r : Res) (s : State) (h : pk.checkOnly = true) (hr : r.status ≠ later) :
    { answer op pk r s with rings := s.rings } = s := by
  simp only [answer, h, if_pos (And.intro trivial hr)]
  split <;> split <;> rfl

/-- The answer to an admitted packet whose rules answer at once. -/
theorem submit_answered {o : Op} {pk : Pkt} {c : Nat} {s u : State} {status : Nat} {results : Bytes}
    (h : Admitted o pk c s) (hr : o.run ⟨pk, c, o.code⟩ s = ⟨status, 0, results, u⟩) (hs : status ≠ later)
    (hl : results.length ≤ 4064) : Answered s u (submit o pk s) pk o.code status results := by
  have e : submit o pk s = answer o.code pk ⟨status, 0, results, u⟩ s := by
    rw [submit, Op.judge_admitted h, hr]
  refine ⟨?_, fun j hj => ?_, ?_⟩
  · rw [e]
    exact answer_only _ _ _ _ h.act
  · rw [e]
    simp only [answer, h.act, replyStatus, Bool.false_eq_true, false_and, if_false, hs, or_false]
    split <;> simp [State.ring_modRing, hj]
  · rw [e]
    simp only [answer, h.act, replyStatus, immediate, replied, Bool.false_eq_true, false_and, if_false, hs, or_false,
      List.take_of_length_le hl]
    by_cases h1 : status = 1
    · simp [h1, State.ring_modRing]
    · simp [h1, State.ring_modRing]

end Sys2Proof.Machine
end

