-- ==== Sys2Proof/Laws/Cpu.lean ====
section
/-! SUPPORT. What the shared operations of the processors do: the retirement of an instruction, the end of a window,
and what an instruction leaves that takes its turn. -/

namespace Sys2Proof.Machine

/-- What a window that closes leaves. -/
theorem State.closeWindow_eq (s : State) (core : Nat) :
    s.closeWindow core = s.modPair (pairOfCore core) fun p =>
      { p with closed := p.closed ++ [{ p.opened with endArch := some (s.core core).finish.arch }]
               opened := Window.empty (p.opened.number + 1), ccLeft := p.ccLeft - 1 } := rfl

/-- An item leaves everything of a core but its registers and divide unit. -/
theorem Item.apply_rest (c : Core) (i : Item) : { i.apply c with arch := c.arch, divUnit := c.divUnit } = c := by
  cases i <;> simp only [Item.apply] <;>
    first | rfl | (unfold Core.finish; split <;> rfl)

theorem Core.take_rest (c : Core) (items : List Item) (len : Nat) :
    { c.take items len with arch := c.arch, divUnit := c.divUnit } = c := by
  have h : ∀ (l : List Item) (x : Core), { l.foldl Item.apply x with arch := c.arch, divUnit := c.divUnit } =
      { x with arch := c.arch, divUnit := c.divUnit } := by
    intro l
    induction l with
    | nil => intro x; rfl
    | cons i l ih =>
      intro x
      rw [List.foldl_cons, ih]
      have := Item.apply_rest x i
      cases hx : i.apply x
      rw [hx] at this
      cases x
      simp_all
  exact h items _

/-- The registers after an instruction that retires. -/
def Core.after (c : Core) (items : List Item) (len : Nat) : Core :=
  { c.take items len with arch := (c.take items len).arch.advance }

theorem State.retired_core (s : State) (core : Nat) (items : List Item) (len : Nat) (close : Bool) :
    (s.retired core 1 items len close).core core = (s.core core).after items len := by
  unfold State.retired
  simp only [Nat.one_ne_zero, if_false]
  split
  · simp [State.core_modCore, Core.after]
  · split <;> simp [State.closeWindow_eq, State.core, Core.after]

/-- Retirement changes nothing but the core and the windows of its pair. -/
theorem State.retired_only (s : State) (core : Nat) (items : List Item) (len : Nat) (close : Bool) :
    OnlyCore s (s.retired core 1 items len close) core := by
  have hcore := s.retired_core core items len close
  unfold State.retired at hcore ⊢
  simp only [Nat.one_ne_zero, if_false] at hcore ⊢
  constructor
  · split
    · rfl
    · split <;> simp [State.closeWindow_eq] <;> rfl
  · intro c hc
    split
    · simp [State.core_modCore, hc]
    · split <;> simp [State.closeWindow_eq, State.core, tabGet_tabMod, hc]
  · intro p hp
    split
    · simp [State.pair]
    · split <;> simp [State.closeWindow_eq, State.pair, tabGet_tabMod, hp]
  · rw [hcore]
    have := Core.take_rest (s.core core) items len
    simp only [Core.after]
    cases h : (s.core core).take items len
    rw [h] at this
    cases hs : s.core core
    simp_all
  · intro h
    have h' : ∀ f, (s.modCore core f).isSplit (pairOfCore core) = true := fun f => h
    rw [if_pos (h' _)]
    simp [State.pair]
  · split
    · simp [State.pair]
    · split <;> simp [State.closeWindow_eq, State.pair]

theorem State.markStores_nil (s : State) (core : Nat) (items : List Item) (h : storesOf items = []) :
    s.markStores core items = s := by simp [State.markStores, h]

/-- Retirement pins no line (R326). -/
theorem State.retired_overPins (s m : State) (core : Nat) (items : List Item) (len : Nat) (close : Bool) :
    s.overPins (m.retired core 1 items len close) = s.overPins m := by
  have h := (m.retired_only core items len close).rest
  have hm : (m.retired core 1 items len close).mem = m.mem := by
    have := congrArg State.mem h; exact this
  have hp : ∀ d, (m.retired core 1 items len close).pinsOf d = m.pinsOf d := fun d => by
    simp only [State.pinsOf, State.tier, hm]
  simp only [State.overPins, hp]

/-- An instruction that has its turn, stores nothing and sends no event retires. -/
theorem State.instr_retires {s f m : State} {core len : Nat} {g : Arch → State → Did × State} {items : List Item}
    {close : Bool} (hT : Turn s core len f) (hg : g (f.core core).arch f = (.retire items close, m))
    (hm : s.overPins m = false) (hs : storesOf items = []) (he : eventsOf items = [])
    (hc : close = true → MayClose s core) :
    s.instr core len g = m.retired core 1 items len close := by
  have hcl : closes items close = close := by simp [closes, hs]
  have hfull : s.bufferFull core items = false := by simp [State.bufferFull, hs]
  have hmay : s.mayRetire core 1 items close = true := by
    rw [State.mayRetire, hfull, hcl, State.canClose]
    rcases hT.room with h | h | h
    · simp [h]
    · simp [h]
    · cases close with
      | false => simp; omega
      | true => rcases hc rfl with h | h <;> simp [h]
  have heff : s.effects m core 1 items len close = m.retired core 1 items len close := by
    unfold State.effects
    split
    · simp [hs]
    · rw [State.markStores_nil _ _ _ hs, hcl]
  have hpins : s.overPins (m.retired core 1 items len close) = false := by rw [State.retired_overPins, hm]
  unfold State.instr
  rw [if_pos hT.ready, hT.fetched]
  simp only [hg, State.conclude, State.commit]
  rw [if_pos hmay, State.commitNow, heff]
  simp [hpins, he]

/-! ### Registers -/

@[simp] theorem Arch.setSp_sp (a : Arch) (l m : Nat) (v : Word) :
    (a.setSp l v).sp m = if min l 2 = min m 2 then v else a.sp m := by
  unfold Arch.setSp Arch.sp
  rcases l with _ | _ | l <;> rcases m with _ | _ | m <;> simp <;> omega

theorem Arch.setSp_level (a : Arch) (l : Nat) (v : Word) : (a.setSp l v).level = a.level := by
  unfold Arch.setSp Arch.level
  repeat' split
  all_goals rfl

/-- A write of a stack pointer leaves the other registers. -/
theorem Arch.setSp_rest (a : Arch) (l : Nat) (v : Word) :
    { a.setSp l v with usp := a.usp, ssp := a.ssp, hsp := a.hsp } = a := by
  unfold Arch.setSp
  repeat' split
  all_goals rfl

/-- A write of a general register leaves the other registers. -/
theorem Arch.setG_rest (a : Arch) (d : Reg) (v : Word) :
    { a.setG d v with g := a.g, usp := a.usp, ssp := a.ssp, hsp := a.hsp } = a := by
  unfold Arch.setG Arch.setSp
  repeat' split
  all_goals rfl

theorem Arch.setG_sp (a : Arch) (d : Reg) (v : Word) (l : Nat) (h : l ≠ min a.level 2) (hl : l ≤ 2) :
    (a.setG d v).sp l = a.sp l := by
  unfold Arch.setG
  split
  · rfl
  · split
    · rw [Arch.setSp_sp, if_neg]; omega
    · rfl

/-- A general register reads its own stack pointer or table entry. -/
theorem Arch.gr_eq (a : Arch) (r : Reg) :
    a.gr r = if r = 0 then 0 else if r = 31 then a.sp a.level else tabGet 0 a.g r.toNat := rfl

theorem Arch.setSp_g (a : Arch) (l : Nat) (v : Word) : (a.setSp l v).g = a.g := by
  unfold Arch.setSp
  repeat' split
  all_goals rfl

/-- G0 discards a write, and every other register takes it alone (R82, R83). -/
theorem Arch.setG_wrote (a : Arch) (d : Reg) (v : Word) : Wrote a (a.setG d v) d v := by
  intro r
  by_cases h0 : d = 0#5
  · subst h0; simp [Arch.setG]
  by_cases h31 : d = 31#5
  · subst h31
    have e : a.setG 31#5 v = a.setSp a.level v := rfl
    rw [e, Arch.gr_eq, Arch.gr_eq, Arch.setSp_level, Arch.setSp_sp, Arch.setSp_g]
    by_cases hr : r = 31#5
    · subst hr; simp
    · by_cases hr0 : r = 0#5
      · subst hr0; simp
      · simp [hr0, hr]
  · have e : a.setG d v = { a with g := tabPut 0 a.g d.toNat v } := by
      simp [Arch.setG, h0, h31]
    have el : ({ a with g := tabPut 0 a.g d.toNat v } : Arch).level = a.level := rfl
    have es : ({ a with g := tabPut 0 a.g d.toNat v } : Arch).sp a.level = a.sp a.level := rfl
    rw [e, Arch.gr_eq, Arch.gr_eq, el, es]
    simp only [tabGet_tabPut, ← BitVec.toNat_eq]
    by_cases hr0 : r = 0#5
    · subst hr0; simp [Ne.symm h0]
    · by_cases hr31 : r = 31#5
      · subst hr31; simp [Ne.symm h31]
      · by_cases hrd : r = d
        · subst hrd; simp [hr0, hr31]
        · simp [hr0, hr31, hrd]

theorem Arch.advance_rest (a : Arch) : { a.advance with ph := a.ph, pl := a.pl, products := a.products } = a := by
  have h : ∀ (l : List Product) (x : Arch), ∃ y z, l.foldl (fun (x : Arch) p =>
      if p.left ≤ 1 then { x with ph := p.hi.getD x.ph, pl := p.lo.getD x.pl } else x) x =
      { x with ph := y, pl := z } := by
    intro l
    induction l with
    | nil => intro x; exact ⟨_, _, rfl⟩
    | cons p l ih =>
      intro x
      simp only [List.foldl_cons]
      split
      · obtain ⟨y, z, h⟩ := ih { x with ph := p.hi.getD x.ph, pl := p.lo.getD x.pl }
        exact ⟨y, z, h⟩
      · exact ih x
  obtain ⟨y, z, hy⟩ := h a.products a
  simp [Arch.advance, hy]

/-- Products come one instruction nearer, and those at their place land (R127). -/
theorem Arch.advance_landed (a b : Arch) (h : a.products = b.products) (hh : a.ph = b.ph) (hl : a.pl = b.pl) :
    Landed b a.advance := by
  constructor
  · simp [Arch.advance, h]
  · intro hp
    rw [← h] at hp
    have : a.products.foldl (fun (x : Arch) p =>
        if p.left ≤ 1 then { x with ph := p.hi.getD x.ph, pl := p.lo.getD x.pl } else x) a = a := by
      generalize a.products = l at hp
      induction l with
      | nil => rfl
      | cons p l ih =>
        rw [List.foldl_cons, if_neg (by have := hp p (by simp); omega)]
        exact ih fun q hq => hp q (by simp [hq])
    simp [Arch.advance, this, hh, hl]
  · intro q hi lo hp
    rw [← h] at hp
    simp [Arch.advance, hp]

@[simp] theorem Arch.advance_g (a : Arch) : a.advance.g = a.g := by
  have h := congrArg Arch.g a.advance_rest; exact h

@[simp] theorem Arch.advance_usp (a : Arch) : a.advance.usp = a.usp := by
  have h := congrArg Arch.usp a.advance_rest; exact h

@[simp] theorem Arch.advance_ssp (a : Arch) : a.advance.ssp = a.ssp := by
  have h := congrArg Arch.ssp a.advance_rest; exact h

@[simp] theorem Arch.advance_hsp (a : Arch) : a.advance.hsp = a.hsp := by
  have h := congrArg Arch.hsp a.advance_rest; exact h

@[simp] theorem Arch.advance_f (a : Arch) : a.advance.f = a.f := by
  have h := congrArg Arch.f a.advance_rest; exact h

@[simp] theorem Arch.advance_pc (a : Arch) : a.advance.pc = a.pc := by
  have h := congrArg Arch.pc a.advance_rest; exact h

@[simp] theorem Arch.advance_ps (a : Arch) : a.advance.ps = a.ps := by
  have h := congrArg Arch.ps a.advance_rest; exact h

@[simp] theorem Arch.advance_fs (a : Arch) : a.advance.fs = a.fs := by
  have h := congrArg Arch.fs a.advance_rest; exact h

@[simp] theorem Arch.advance_k (a : Arch) : a.advance.k = a.k := by
  have h := congrArg Arch.k a.advance_rest; exact h

@[simp] theorem Arch.setG_f (a : Arch) (d : Reg) (v : Word) : (a.setG d v).f = a.f := by
  have h := congrArg Arch.f (a.setG_rest d v); exact h

@[simp] theorem Arch.setG_ph (a : Arch) (d : Reg) (v : Word) : (a.setG d v).ph = a.ph := by
  have h := congrArg Arch.ph (a.setG_rest d v); exact h

@[simp] theorem Arch.setG_pl (a : Arch) (d : Reg) (v : Word) : (a.setG d v).pl = a.pl := by
  have h := congrArg Arch.pl (a.setG_rest d v); exact h

@[simp] theorem Arch.setG_products (a : Arch) (d : Reg) (v : Word) : (a.setG d v).products = a.products := by
  have h := congrArg Arch.products (a.setG_rest d v); exact h

@[simp] theorem Arch.setG_pc (a : Arch) (d : Reg) (v : Word) : (a.setG d v).pc = a.pc := by
  have h := congrArg Arch.pc (a.setG_rest d v); exact h

@[simp] theorem Arch.setG_ps (a : Arch) (d : Reg) (v : Word) : (a.setG d v).ps = a.ps := by
  have h := congrArg Arch.ps (a.setG_rest d v); exact h

@[simp] theorem Arch.setG_fs (a : Arch) (d : Reg) (v : Word) : (a.setG d v).fs = a.fs := by
  have h := congrArg Arch.fs (a.setG_rest d v); exact h

@[simp] theorem Arch.setG_k (a : Arch) (d : Reg) (v : Word) : (a.setG d v).k = a.k := by
  have h := congrArg Arch.k (a.setG_rest d v); exact h

@[simp] theorem Arch.setSp_f (a : Arch) (l : Nat) (v : Word) : (a.setSp l v).f = a.f := by
  have h := congrArg Arch.f (a.setSp_rest l v); exact h

@[simp] theorem Arch.setSp_ph (a : Arch) (l : Nat) (v : Word) : (a.setSp l v).ph = a.ph := by
  have h := congrArg Arch.ph (a.setSp_rest l v); exact h

@[simp] theorem Arch.setSp_pl (a : Arch) (l : Nat) (v : Word) : (a.setSp l v).pl = a.pl := by
  have h := congrArg Arch.pl (a.setSp_rest l v); exact h

@[simp] theorem Arch.setSp_products (a : Arch) (l : Nat) (v : Word) : (a.setSp l v).products = a.products := by
  have h := congrArg Arch.products (a.setSp_rest l v); exact h

@[simp] theorem Arch.setSp_pc (a : Arch) (l : Nat) (v : Word) : (a.setSp l v).pc = a.pc := by
  have h := congrArg Arch.pc (a.setSp_rest l v); exact h

@[simp] theorem Arch.setSp_ps (a : Arch) (l : Nat) (v : Word) : (a.setSp l v).ps = a.ps := by
  have h := congrArg Arch.ps (a.setSp_rest l v); exact h

@[simp] theorem Arch.setSp_fs (a : Arch) (l : Nat) (v : Word) : (a.setSp l v).fs = a.fs := by
  have h := congrArg Arch.fs (a.setSp_rest l v); exact h

@[simp] theorem Arch.setSp_k (a : Arch) (l : Nat) (v : Word) : (a.setSp l v).k = a.k := by
  have h := congrArg Arch.k (a.setSp_rest l v); exact h

@[simp] theorem Arch.advance_level (a : Arch) : a.advance.level = a.level := by simp [Arch.level]
@[simp] theorem Arch.setG_level (a : Arch) (d : Reg) (v : Word) : (a.setG d v).level = a.level := by
  simp [Arch.level]
@[simp] theorem Arch.advance_sp (a : Arch) (l : Nat) : a.advance.sp l = a.sp l := by simp [Arch.sp]
@[simp] theorem Arch.advance_gr (a : Arch) (r : Reg) : a.advance.gr r = a.gr r := by simp [Arch.gr_eq]
@[simp] theorem Arch.advance_kr (a : Arch) (n : Nat) : a.advance.kr n = a.kr n := by simp [Arch.kr]
@[simp] theorem Arch.advance_fr (a : Arch) (r : Reg) : a.advance.fr r = a.fr r := by simp [Arch.fr]

/-- An instruction that writes one general register (R110). -/
theorem Core.after_g (c : Core) (d : Reg) (v : Word) (len : Nat) :
    WroteG c.arch (c.after [.g d v] len).arch d v len ∧ (c.after [.g d v] len).divUnit = c.divUnit := by
  let x : Arch := { c.arch with pc := c.arch.pc + BitVec.ofNat 64 (3 * len) }
  have e : (c.after [.g d v] len).arch = (x.setG d v).advance := rfl
  refine ⟨?_, rfl⟩
  rw [e]
  constructor
  · intro r
    rw [Arch.advance_gr, x.setG_wrote d v r]; rfl
  · simp [x]
  · simp [x]
  · constructor
    · simp [x]
    · simp [x]
    · simp [x]
    · intro l hl hne
      rw [Arch.advance_sp, x.setG_sp d v l hne hl]; rfl
  · exact Arch.advance_landed _ _ (by simp [x]) (by simp [x]) (by simp [x])

/-- An instruction that computes one general register has written it when its turn is over. -/
theorem State.instr_g {s f : State} {core len : Nat} {g : Arch → State → Did × State} {d : Reg} {v : Word}
    (hT : Turn s core len f) (hg : g (f.core core).arch f = (.retire [.g d v] false, f)) :
    let t := s.instr core len g
    WroteG (f.core core).arch (t.core core).arch d v len ∧ OnlyCore f t core ∧
      (t.core core).divUnit = (f.core core).divUnit := by
  have h := State.instr_retires hT hg hT.pins rfl rfl (by simp)
  simp only [h, State.retired_core]
  exact ⟨(Core.after_g _ d v len).1, State.retired_only .., (Core.after_g _ d v len).2⟩

end Sys2Proof.Machine
end

