-- ==== Sys2Proof/Laws/Memory.lean ====
section
/-! SUPPORT. The laws of the byte memory: each operation that writes cells or marks lines keeps the canonical form, a
byte written is the byte read, and every other byte stays. -/

namespace Sys2Proof.Machine

/-- The two halves of the canonical form. -/
theorem memory_wf_iff (m : Mem) : Memory.wf m = true ↔ tabWf 0 m.cells = true ∧ rising m.poison = true := by
  simp [Memory.wf]

theorem reset_memory_wf : Memory.wf State.reset.mem = true := by decide +kernel

theorem rising_iff : ∀ l : List Nat, rising l = true ↔ l.Pairwise (· < ·)
  | [] => by simp [rising]
  | [x] => by simp [rising]
  | x :: y :: l => by
    rw [rising, Bool.and_eq_true, decide_eq_true_eq, rising_iff (y :: l), List.pairwise_cons (a := x)]
    refine and_congr_left fun h => ⟨fun hxy a ha => ?_, fun ha => ha y (List.mem_cons_self ..)⟩
    rcases List.mem_cons.1 ha with rfl | ha
    · exact hxy
    · exact Nat.lt_trans hxy ((List.pairwise_cons.1 h).1 a ha)

theorem rising_insertNat {l : List Nat} {x : Nat} (h : rising l = true) : rising (insertNat l x) = true :=
  (rising_iff _).2 (pairwise_insertNat ((rising_iff _).1 h))

theorem rising_filter {l : List Nat} (p : Nat → Bool) (h : rising l = true) : rising (l.filter p) = true :=
  (rising_iff _).2 (((rising_iff _).1 h).filter p)

theorem tabWf_putCells : ∀ {cells : List Host.Cell} {pa : Nat} {bs : Bytes}, tabWf 0 cells = true →
    tabWf 0 (putCells cells pa bs) = true
  | _, _, [], h => h
  | _, _, _ :: _, h => by
    rw [putCells]
    exact tabWf_putCells (tabWf_tabPut h)

/-- A byte after a write of a run: the run's own where it covers the address, the old one elsewhere. -/
theorem tabGet_putCells : ∀ (cells : List Host.Cell) (pa : Nat) (bs : Bytes) (a : Nat),
    tabGet 0 (putCells cells pa bs) a =
      if pa ≤ a ∧ a < pa + bs.length then bs.getD (a - pa) 0 else tabGet 0 cells a
  | cells, pa, [], a => by simp [putCells] <;> omega
  | cells, pa, b :: bs, a => by
    rw [putCells, tabGet_putCells _ (pa + 1) bs a, tabGet_tabPut, List.length_cons]
    by_cases h : a = pa
    · subst h; simp [List.getD] <;> omega
    · by_cases h1 : pa + 1 ≤ a ∧ a < pa + 1 + bs.length
      · rw [if_pos h1, if_pos (by omega), show a - pa = a - (pa + 1) + 1 by omega, List.getD_cons_succ]
      · rw [if_neg h1, if_neg h, if_neg (by omega)]

theorem storedByte_rawWrite (s : State) (pa : Nat) (bs : Bytes) (a : Nat) :
    (s.rawWrite pa bs).storedByte a =
      if pa ≤ a ∧ a < pa + bs.length then bs.getD (a - pa) 0 else s.storedByte a := tabGet_putCells ..

theorem rawWrite_wf {s : State} {pa : Nat} {bs : Bytes} (h : Memory.wf s.mem = true) :
    Memory.wf (s.rawWrite pa bs).mem = true := by
  rw [memory_wf_iff] at h ⊢
  exact ⟨tabWf_putCells h.1, h.2⟩

theorem rawZero_wf {s : State} {pa len : Nat} (h : Memory.wf s.mem = true) :
    Memory.wf (s.rawZero pa len).mem = true := by
  rw [memory_wf_iff] at h ⊢
  exact ⟨tabWf_filter _ h.1, h.2⟩

theorem leaveKey_wf {s : State} {pa len key : Nat} (h : Memory.wf s.mem = true) :
    Memory.wf (s.leaveKey pa len key).mem = true := h

theorem clearPoison_wf {s : State} {first last : Nat} (h : Memory.wf s.mem = true) :
    Memory.wf (s.clearPoison first last).mem = true := by
  rw [memory_wf_iff] at h ⊢
  exact ⟨h.1, rising_filter _ h.2⟩

theorem setPoison_wf {s : State} {l : Nat} (h : Memory.wf s.mem = true) :
    Memory.wf (s.setPoison l).mem = true := by
  rw [memory_wf_iff] at h ⊢
  exact ⟨h.1, rising_insertNat h.2⟩

theorem addIntent_wf {s : State} {g pa : Nat} {bs : Bytes} (h : Memory.wf s.mem = true) :
    Memory.wf (s.addIntent g pa bs).mem = true := h

/-- An access that reaches channels leaves memory. -/
@[simp] theorem touchChans_mem (s : State) (cs : List Nat) : (s.touchChans cs).mem = s.mem := by
  unfold State.touchChans
  induction cs generalizing s with
  | nil => rfl
  | cons c cs ih => rw [List.foldl_cons, ih]; rfl

/-- A write of direct memory keeps the form, whether it is kept, discarded or held for its parity. -/
theorem dramWrite_wf {s : State} {pa : Nat} {bs : Bytes} (h : Memory.wf s.mem = true) :
    Memory.wf (s.dramWrite pa bs).mem = true := by
  unfold State.dramWrite
  split
  · exact h
  · split
    · exact h
    · have hw : ∀ cs, Memory.wf ((s.touchChans cs).rawWrite pa bs).mem = true := fun cs =>
        rawWrite_wf (by rw [touchChans_mem]; exact h)
      split
      · exact addIntent_wf (hw _)
      · exact hw _

theorem blockWrite_wf {s : State} {pa : Nat} {bs : Bytes} (h : Memory.wf s.mem = true) :
    Memory.wf (s.blockWrite pa bs).mem = true := clearPoison_wf (dramWrite_wf h)

/-- Writing descriptors and regions' registers keeps the form. -/
theorem setDesc_wf {s : State} {t i frame mask : Nat} (h : Memory.wf s.mem = true) :
    Memory.wf (s.setDesc t i frame mask).mem = true := dramWrite_wf h

theorem modTier_wf {s : State} {t : Nat} {f : Tier → Tier} (h : Memory.wf s.mem = true) :
    Memory.wf (s.modTier t f).mem = true := h

theorem modChan_wf {s : State} {t : Nat} {f : Chan → Chan} (h : Memory.wf s.mem = true) :
    Memory.wf (s.modChan t f).mem = true := h

/-- The lines of the poison are what was marked and not cleared. -/
theorem mem_setPoison {s : State} {l k : Nat} :
    k ∈ (s.setPoison l).mem.poison ↔ k = l ∨ k ∈ s.mem.poison := mem_insertNat

theorem mem_clearPoison {s : State} {first last k : Nat} :
    k ∈ (s.clearPoison first last).mem.poison ↔ k ∈ s.mem.poison ∧ (k < first ∨ last < k) := by
  show k ∈ s.mem.poison.filter _ ↔ _
  simp [List.mem_filter]

end Sys2Proof.Machine
end

