-- ==== Sys2Proof/Tests/Slice0.lean ====
section
/-! SUPPORT. Small tests of single steps, the terms that the checks of WellFormed refuse, and for each statement with
hypotheses states and operands that meet them. -/

namespace Sys2Proof.Tests

open Sys2Proof.Machine

set_option Elab.async false

/-! ### Helpers -/

/-- Power is good, Tansy runs and Vixia's firmware is up. -/
def awake : State :=
  let s := { State.reset with pins := { State.reset.pins with pwrOk := true }
                              vixia := { State.reset.vixia with up := true } }
  s.modCell cellTansy fun x => { x with st := .running }

/-- `awake` with 1 GiB of memory on one channel, a host stage of partition 0 at 0x1000
that maps it onto itself, and its first granule owned. -/
def ram : State :=
  { awake with
    mem := { awake.mem with cells := [(0x1006, 0x20), (0x1007, 0x01), (0x2006, 0x30), (0x2007, 0x01), (0x3006, 0x01),
                                      (0x3007, 0x9F)]
                            sets := [{ baseGib := 0, limitGib := 0, channels := [0], redundant := false }] }
    parts := { awake.parts with owner := [(0, some 0)]
                                parts := [(0, { cfg := { PartCfg.reset with htroot := 0x1000 }, hostStage := true, started := true })] } }

/-- `ram` with some cells in a state. -/
def inSt (st : CState) (cs : List Nat) (s : State) : State := cs.foldl (fun s c => s.modCell c fun x => { x with st := st }) s

/-- Pair 0 runs, with core 0 as `f` makes it. -/
def cpu (f : Arch → Arch) : State :=
  (inSt .running [cellNo 1 0] ram).modCore 0 fun c => { c with arch := f c.arch }

/-- The host level, and the user level with its host stage and room for frames below 0x8000. -/
def host : State := cpu id
def user : State :=
  cpu fun a => { a with ps := 0, usp := 0x8000, ssp := 0x8000, hsp := 0x8000, k := [(18, 0x1000), (28, 50000)] }

/-- The state after a fetch of `n` parcels by core 0. -/
def fet (s : State) (n : Nat) : State := (s.fetched 0 n).2.2

def turnB (s : State) (core len : Nat) : Bool :=
  s.ready core && (s.fetched core len).1.isNone && !(s.fetched core len).2.1 &&
    !s.overPins (s.fetched core len).2.2 && (s.isSplit (pairOfCore core) || decide ((s.pair (pairOfCore core)).closed.length < 2) ||
      decide ((s.pair (pairOfCore core)).opened.count < 127))

theorem turn_of {s : State} {core len : Nat} (h : turnB s core len = true) :
    Turn s core len (s.fetched core len).2.2 := by
  simp only [turnB, Bool.and_eq_true, Bool.or_eq_true, decide_eq_true_eq, Bool.not_eq_true',
    Option.isNone_iff_eq_none] at h
  obtain ⟨⟨⟨⟨a, b⟩, c⟩, e⟩, d⟩ := h
  exact ⟨a, Prod.ext b (Prod.ext c rfl), e, by rcases d with (d | d) | d <;> simp [d]⟩

/-- Core 0 has its turn for an instruction of `n` parcels. -/
abbrev Now (s : State) (n : Nat) : Prop := Turn s 0 n (fet s n)

/-- The pieces and the state of an access by core 0 at a level. -/
def acc (s : State) (level : Nat) (va : Word) (size : Nat) (how : Acc) :
    Reached (List (Nat × Nat × Nat × Nat)) × State :=
  s.access (s.viewer 0 level) va size how

theorem acc_of {r : Reached (List (Nat × Nat × Nat × Nat)) × State} {ps : List (Nat × Nat × Nat × Nat)}
    (h : r.1 = .ok ps) : r = (.ok ps, r.2) := Prod.ext h rfl

def readsB (f : State) (va : Word) (size : Nat) (ps : List (Nat × Nat × Nat × Nat)) : Bool :=
  let r := acc f (f.core 0).arch.level va size .read
  decide (r.1 = .ok ps) && ps.all (fun p => p.1 < pcieBase) && !r.2.badPieces ps

theorem reads_of {f : State} {va : Word} {size : Nat} {ps : List (Nat × Nat × Nat × Nat)}
    (h : readsB f va size ps = true) :
    Reads f 0 va size ps (acc f (f.core 0).arch.level va size .read).2 := by
  simp only [readsB, Bool.and_eq_true, Bool.not_eq_true', List.all_eq_true, decide_eq_true_eq] at h
  exact ⟨acc_of h.1.1, h.1.2, h.2⟩

def pushesB (f : State) (T : Nat) (a : Arch) (p0 p1 : List (Nat × Nat × Nat × Nat)) : Bool :=
  let r := acc f T (a.sp T - 16#64) 8 .write
  decide ((a.kr (if T = 2 then 10 else 9)).toNat ≤ (a.sp T - 16#64).toNat ∧ (a.sp T - 16#64).toNat + 16 ≤ 2 ^ 64) &&
    decide (r.1 = .ok p0) && decide ((r.2.access (f.viewer 0 T) (a.sp T - 16#64 + 8#64) 8 .write).1 = .ok p1)

theorem pushes_of {f : State} {T : Nat} {a : Arch} {p0 p1 : List (Nat × Nat × Nat × Nat)}
    (h : pushesB f T a p0 p1 = true) :
    Pushes f 0 T a p0 p1
      ((acc f T (a.sp T - 16#64) 8 .write).2.access (f.viewer 0 T) (a.sp T - 16#64 + 8#64) 8 .write).2 := by
  simp only [pushesB, Bool.and_eq_true, decide_eq_true_eq] at h
  exact ⟨h.1.1.1, .inl h.1.1.2, _, acc_of h.1.2, acc_of h.2⟩

/-- A checked pair performs no store at once, so that only what its accesses left counts. -/
theorem pinRoom_of {s m : State} {core : Nat} {gs : List GStore} (h : m.isSplit (pairOfCore core) = false)
    (hp : s.overPins m = false) : PinRoom s m core gs := ⟨fun _ => hp, fun h' => by rw [h] at h'; cases h'⟩

/-- An access outside the pairs can be made at once. -/
def atOnceB (s : State) (tables ps : List (Nat × Nat)) (write : Bool) : Bool :=
  !s.blocked tables && !s.blocked ps && (s.asleepOf tables false).isEmpty && (s.asleepOf ps write).isEmpty

theorem atOnce_of {s : State} {tables ps : List (Nat × Nat)} {write : Bool} (h : atOnceB s tables ps write = true) :
    AtOnce s tables ps write := by
  simp only [atOnceB, Bool.and_eq_true, Bool.not_eq_true', List.isEmpty_iff] at h
  exact ⟨⟨h.1.1.1, h.1.1.2⟩, h.1.2, h.2⟩

/-- A packet of Vixia's internal ring, class 2. -/
def pkt (c : Nat) (params : Bytes) : Pkt :=
  { ring := 1024, tag := 7, path := pathOf c, partition := 0, auth := 2, checkOnly := false, params := params }

/-- Parameter words. -/
def words (l : List Nat) : Bytes := l.flatMap (beBytes 8)

def admittedB (o : Op) (pk : Pkt) (c : Nat) (s : State) : Bool :=
  decide (pk.path.length ≤ 14 ∧ pk.params.length / 8 ≤ 508 ∧ pk.params.length % 8 = 0) && o.len (some c) pk &&
    decide (pk.auth.toNat < 4 ∧ pk.auth.toNat ≤ s.authMax pk.ring ∧ (pk.auth.toNat = 2 → pk.ring.val = 1024)) &&
    decide (pk.auth.toNat = 0 → pk.partition.toNat = pk.ring.val / 16) && s.findCell pk.path == some c &&
    (decide (pk.auth.toNat ≠ 0) || s.visible (pk.ring.val / 16) c) && o.on s c && (o.classes c).contains pk.auth.toNat &&
    !pk.checkOnly

theorem admitted_of {o : Op} {pk : Pkt} {c : Nat} {s : State} (h : admittedB o pk c s = true) :
    Admitted o pk c s := by
  simp only [admittedB, Bool.and_eq_true, Bool.or_eq_true, beq_iff_eq, Bool.not_eq_true', decide_eq_true_eq] at h
  obtain ⟨⟨⟨⟨⟨⟨⟨⟨a, b⟩, c⟩, d⟩, e⟩, f⟩, g⟩, i⟩, j⟩ := h
  exact ⟨a.1, a.2, b, c, d, e, fun z => f.resolve_left fun n => n z, g, i, j⟩

/-- A packet to a cell is admitted. -/
abbrev In (o : Op) (c : Nat) (params : Bytes) (s : State) : Prop := Admitted o (pkt c params) c s

/-! ### Witnesses: the whole machine, chapters 01 and 02 -/

theorem witness_EveryStepKeepsMemoryCanonical :
    Memory.wf ram.mem = true ∧ ∃ t, step { ram with pending := [.hbclkLoss] } = .next t := ⟨by decide, _, rfl⟩

theorem witness_HeartbeatAdvancesTheTimebase :
    let off := { State.reset with pins := ram.pins }
    let s := (ram.modQueue 0 fun x => { x with nextTune := some (1, 2, true) }).modCell (cellNo 7 0) fun x =>
      { x with nextPolicy := some (true, 1) }
    let b := { ram with clock := { ram.clock with tbLoaded := true, backup := true, sinceAdjust := 1023 } }
    (State.reset.pins.pwrOk = false ∧ State.reset.clock.backup = false) ∧
    (off.pins.pwrOk = true ∧ off.cst cellTansy ≠ .running) ∧
    (s.pins.pwrOk = true ∧ s.cst cellTansy = .running ∧ (s.queue 0).nextTune = some (1, 2, true) ∧
      (s.cell (cellNo 7 0)).nextPolicy = some (true, 1) ∧ s.tansy.errLatch = false ∧ s.tansy.pulseEnd = none ∧
      s.tansy.reactions = [] ∧
      ((s.modTimer 3 fun x => { x with next := some (20, 10) }).timer 3).next = some (20, 10) ∧
      ((s.modRep 5 fun x => { x with nextQuiet := some 7 }).rep 5).nextQuiet = some 7 ∧ s.clock.backup = false ∧ s.bundle.groups = [] ∧ s.bundle.sends = []) ∧
    (b.pins.pwrOk = true ∧ b.cst cellTansy = .running ∧ b.vixia.up = true ∧ 1023 ≤ b.clock.sinceAdjust ∧
      b.bundle.groups = [] ∧ b.bundle.sends = []) ∧
    (In opTbLoad cellVixia (words [20]) ram ∧ (wordAt (words [20]) 0).toNat % 10 = 0 ∧ ram.step5Begun = false ∧
      ram.clock.tbLoaded = false ∧ In opTbLoad cellVixia (words [20]) b ∧ b.step5Begun = false ∧
      b.clock.tbLoaded = true) ∧
    (In opHbclkSelect cellVixia (words [1]) b ∧ wordAt (words [1]) 0 = 1 ∧ b.clock.backup = true ∧
      In opHbclkSelect cellVixia (words [0]) b ∧ wordAt (words [0]) 0 = 0) := by
  intros; (repeat' apply And.intro) <;> first | exact admitted_of (by decide) | decide

/-- Partition 0's ring 0, enabled, with two slots, one command and a reply waiting. -/
def ringed (f : Ring → Ring) : State := ram.modRing 0 fun x => f { x with
  enable := true, log2 := 1, authMax := 1, cmdBase := 0x10000, replyBase := 0x20000, cmdProd := 1
  outbox := [{ (replied 0x0100 (pkt 0 []) 0 []) with completion := true, entry := some 0 }] }

theorem witness_RingsFollowTheirRegisters :
    let s := ringed id
    let h := ringed fun x => { x with halted := true, haltStatus := 0x010E, log2 := 12 }
    let j := s.modEntry 0 fun x => { x with ring := 0, state := 4, slot := some 0, popped := true }
    let u := { s with parts := State.reset.parts }
    let f : Leaf := ⟨0x20000, 30, 0x19F, 0x3000⟩
    ((State.reset.ring 0).enable = false ∧ (h.ring 0).halted = true ∧ (h.ring 0).haltStatus = 0x010E) ∧
    ((s.ring 0).enable = true ∧ (s.ring 0).halted = false) ∧
    ((j.entry 0).ring = 0 ∧ (j.entry 0).state = 4 ∧ (j.entry 0).slot = some 0 ∧ (j.entry 0).popped = true ∧
      (j.entry 0).consumed = false ∧ passed 1 0 = true ∧ (j.entry 1).slot = none) ∧
    (((j.modEntry 0 fun x => { x with popped := false }).entry 0).slot = some 0 ∧
      ((j.modEntry 0 fun x => { x with popped := false }).entry 0).popped = false) ∧
    (((j.modEntry 0 fun x => { x with posting := 1 }).entry 0).posting = 1 ∧
      ((j.modEntry 0 fun x => { x with posting := 2 }).entry 0).posting = 2 ∧ (j.entry 0).posting ≠ 1) ∧
    ((State.reset.ring 0).outbox = []) ∧ (s.entry 0).state = 0 ∧ (j.entry 0).state ≠ 0 ∧
    (s.ring 0).outbox.length = 1 ∧ (s.ring 0).freeSlots ≠ 0 ∧ (s.ring 0).kept = false ∧
    s.partAddr 0 ((s.ring 0).slotAddr 0x20000 0) .write = some f ∧
    AtOnce s (s.partTables 0 ((s.ring 0).slotAddr 0x20000 0) 32) [(0x20000, 32)] true ∧
    s.overPins ((s.markPart 0 ((s.ring 0).slotAddr 0x20000 0) .write).dmaWrite 0 0x20000 (zeros 32)) = false ∧
    ((u.ring 0).outbox ≠ [] ∧ (u.ring 0).freeSlots ≠ 0 ∧ (u.ring 0).kept = false ∧
      u.partAddr 0 ((u.ring 0).slotAddr 0x20000 0) .write = none) := by
  intros; (repeat' apply And.intro) <;> first | exact atOnce_of (by decide +kernel) | decide +kernel

/-- A header of an IDENTIFY of the module, with its CRC. -/
def header : Bytes := ([0x10] ++ zeros 29) ++ beBytes 2 (crc16 ([0x10] ++ zeros 29))

/-- `ringed` with some bytes in its first slot. -/
def slotted (bs : Bytes) : State := (ringed id).rawWrite 0x10000 bs

theorem witness_CommandsAreTakenFromRings :
    let s := slotted header
    let u := { s with parts := State.reset.parts }
    let p := { s with mem := { s.mem with poison := [0x400] } }
    let f : Leaf := ⟨0x10000, 30, 0x19F, 0x3000⟩
    State.reset.readyRings = [] ∧ s.readyRings = [0] ∧ tabWf Ring.reset s.rings = true ∧
    u.readyRings = [0] ∧ u.partAddr 0 ((u.ring 0).slotAddr 0x10000 0) .read = none ∧
    s.partAddr 0 ((s.ring 0).slotAddr 0x10000 0) .read = some f ∧
    AtOnce s (s.partTables 0 0x10000 32) [(0x10000, 32)] false ∧ AtOnce p (p.partTables 0 0x10000 32) [(0x10000, 32)] false ∧
    (((s.markPart 0 0x10000 .read).dmaRead 0x10000 32).poisoned 0x10000 32 = false ∧
      ((p.markPart 0 0x10000 .read).dmaRead 0x10000 32).poisoned 0x10000 32 = true) ∧
    (parsePacket 0 (((s.markPart 0 0x10000 .read).dmaRead 0x10000 32).bytesAt 0x10000 32)).2.1 = 0 ∧
    (parsePacket 0 (((s.markPart 0 0x10000 .read).dmaRead 0x10000 32).bytesAt 0x10000 32)).1 = opIdentify.code ∧
    (parsePacket 0 ((((ringed id).markPart 0 0x10000 .read).dmaRead 0x10000 32).bytesAt 0x10000 32)).2.1 ≠ 0 := by
  intros; (repeat' apply And.intro) <;> first | exact atOnce_of (by decide +kernel) | decide +kernel
/-! ### Witnesses: cells and packets -/

theorem witness_StoresToModuleRegisters :
    (5 % 8 ≠ 0 ∧ awake.ctrlOk 0 true true 0 = false) ∧ 56 < 57 ∧ 3 < 4 ∧ 23 < 24 ∧ 1023 < 1024 ∧ 63 < 64 ∧ 15 < 16 := by
  decide

theorem witness_CellsAreIdentifiedAndQueried :
    In opIdentify cellModule [] ram ∧ In opQuery cellTansy [] ram ∧ (ram.queryBytes cellTansy).length ≤ 4064 ∧
    (ram.inForce cellTansy).length < 2 ^ 16 ∧ ((ram.cell cellTansy).staged.getD []).length < 2 ^ 16 := by
  (repeat' apply And.intro) <;> first | exact admitted_of (by decide) | decide +kernel

/-- An engine, a timer, a queue and a mover, and who is owed a completion. -/
def en : Nat := cellNo 7 0
def tm : Nat := cellNo 0x0F 0
def qu : Nat := cellNo 0x0C 0
def ask : Asker := { ring := 0, tag := 0, op := 0x0002, partition := 0 }

theorem witness_CellsStopChangeStartAndReset :
    let run := inSt .running [en] ram
    let s := run.modEngine 0 fun e => { e with queue := [{ part := 0, op := 0x0900, block := [], armed := false, who := ask }] }
    let d := inSt .draining [en] s
    let e := (inSt .draining [en] ram).modCell en fun x => { x with stops := [ask] }
    let q := ram.modCell qu fun x => { x with staged := some (words [0]) }
    let p := { (inSt .running [cellNo 0x14 0] ram) with
      parts := { ram.parts with procs := [{ core := 0, part := 0, num := 0, whole := true }] } }
    (In opStop en [] ram ∧ plainLeaf en = true ∧ ram.cst en = .stopped) ∧
    (In opStop en [] run ∧ run.cst en = .running ∧ run.admitted en = false ∧ (run.cell en).stops = []) ∧
    (In opStop en [] s ∧ s.cst en = .running ∧ s.admitted en = true) ∧
    (isGroup en = false ∧ run.cst en ≠ .draining) ∧ (d.cst en = .draining ∧ d.admitted en = true) ∧
    (e.cst en = .draining ∧ e.admitted en = false ∧ (e.cell en).stops = [ask]) ∧
    (In opChange qu (words [0]) ram ∧ plainLeaf qu = true ∧ cellKind qu ≠ 5 ∧ ram.cst qu = .stopped ∧
      changeFault qu (words [0]) = 0) ∧
    (In opChange en [] run ∧ run.cst en = .running) ∧
    (In opStart en [] run ∧ In opStart tm [] ram ∧ ram.cst tm = .stopped ∧ cellKind tm ∈ [0x0B, 0x0F, 0x13]) ∧
    (In opStart qu [] q ∧ q.cst qu = .stopped ∧ cellKind qu = 0x0C ∧ (q.cell qu).staged = some (wordBytes 0)) ∧
    (In opStart (cellNo 1 0) [] p ∧ p.cst (cellNo 1 0) = .stopped ∧ p.isSplit 0 = false ∧
      p.proc 0 = some { core := 0, part := 0, num := 0, whole := true } ∧ p.cst (cellNo 0x14 0) = .running) ∧
    (In opReset en [] run ∧ In opReset tm [] ram ∧ plainLeaf tm = true ∧ cellKind tm = 0x0F) ∧
    In opStop cellTansy [] ram := by
  intros; (repeat' apply And.intro) <;> first | exact admitted_of (by decide) | decide

theorem witness_CellsSleepAndWake :
    let run := (inSt .running [en] ram).modCell en fun x => { x with sleepAsked := true }
    let h := run.modCell en fun x => { x with cmdHold := 1 }
    let a := (inSt .asleep [en] ram).modCell en fun x => { x with waking := true }
    (In opSleep en (words [0]) run ∧ cellKind en = 7 ∧ wordAt (words [0]) 0 = 0 ∧ run.cst en = .running ∧
      (run.cell en).waking = false ∧ (run.cell en).holds = 0) ∧
    (In opSleep en (words [0]) h ∧ (h.cell en).holds ≠ 0 ∧ In opSleep en (words [1]) h ∧ h.cst en ≠ .faulted ∧
      (h.cell en).cmdHold ≠ 0) ∧
    (In opSleep en (words [1]) run ∧ (run.cell en).cmdHold = 0) ∧
    (In opWake en (words [1]) a ∧ wordAt (words [1]) 0 = 1 ∧ a.cst en ≠ .faulted ∧ (a.cell en).cmdHold < 65535) ∧
    (In opSleepPolicy en (words [0xFFFFFF01]) run ∧
      wordAt (words [0xFFFFFF01]) 0 = BitVec.ofNat 64 ((2 ^ 24 - 1) * 2 ^ 8 + 1)) ∧
    (run.idle en = true ∧ (run.cell en).sleepAsked = true) ∧ (ram.cst en ≠ .running ∧ (h.cell en).holds ≠ 0) ∧
    (a.cst en = .asleep ∧ (a.cell en).waking = true) ∧ (run.cell en).waking = false := by
  intros; (repeat' apply And.intro) <;> first | exact admitted_of (by decide) | decide

/-- FORWARD packets to compute die 0 with an inner IDENTIFY of the die (class 0 and class 2) and one with a bad CRC. -/
def inner (partition auth : Nat) : Bytes :=
  let b : Bytes := [0x10] ++ zeros 23 ++ [BitVec.ofNat 8 partition, BitVec.ofNat 8 auth] ++ zeros 4
  b ++ beBytes 2 (crc16 b)

theorem witness_ForwardCarriesAnInnerPacket :
    let c := cellNo 0x15 0
    let pk (l : Bytes) : Pkt := pkt c l
    let low : Pkt := { pk (inner 0 2) with ring := 0, auth := 1 }
    let s := ram.modRing 0 fun x => { x with authMax := 1 }
    let g := inSt .faulted (members c) s
    (Admitted (forwardAt (judgeAt 128 1 low) 1 low) low c s ∧ (parsePacket 0 low.params).2.2.auth.toNat = 2 ∧
      c ≠ cellMembership ∧ s.showSt c ≠ .faulted) ∧
    (Admitted (forwardAt (judgeAt 128 1 (pk (inner 1 2))) 1 (pk (inner 1 2))) (pk (inner 1 2)) c s ∧
      (parsePacket 1024 (inner 1 2)).2.2.auth.toNat ≤ 2 ∧ (parsePacket 1024 (inner 1 2)).2.2.partition ≠ 0) ∧
    (Admitted (forwardAt (judgeAt 128 1 (pk (inner 0 2))) 1 (pk (inner 0 2))) (pk (inner 0 2)) c g ∧
      (parsePacket 1024 (inner 0 2)).2.2.auth.toNat ≤ 2 ∧ (parsePacket 1024 (inner 0 2)).2.2.partition = 0 ∧
      g.showSt c = .faulted) ∧
    (Admitted (forwardAt (judgeAt 128 1 (pk (inner 0 2))) 1 (pk (inner 0 2))) (pk (inner 0 2)) c s ∧
      (parsePacket 1024 (inner 0 2)).2.1 = 0 ∧ (parsePacket 1024 (inner 0 2)).2.2.checkOnly = false ∧ (parsePacket 1024 (inner 0 2)).1 = opIdentify.code ∧
      (opIdentify.judge (pkt c []) s).status = 0 ∧ opIdentify ∈ allOps) ∧
    (Admitted (forwardAt (judgeAt 128 1 (pk (zeros 32))) 1 (pk (zeros 32))) (pk (zeros 32)) c s ∧
      (parsePacket 1024 (zeros 32)).2.1 ≠ 0 ∧ (parsePacket 1024 (zeros 32)).2.2.partition = 0) := by
  intros; (repeat' apply And.intro) <;>
    first | exact admitted_of (by decide +kernel) | exact List.mem_cons_self | decide +kernel

/-! ### Witnesses: the instruction set -/

theorem witness_IntegerInstructionsWriteTheirResult :
    intResult (.add 0 1 2 3) = some (0, 1, 1, fun _ x v => v = x.gr 2 + x.gr 3) ∧ Now host 1 :=
  ⟨rfl, turn_of (by decide +kernel)⟩

theorem witness_ComparisonsAndCarriesSetTheFlags :
    compared (.cmp 0 1 2) = some (0, 1, fun x => (x.gr 1, x.gr 2)) ∧ Now user 1 := ⟨rfl, turn_of (by decide +kernel)⟩

theorem witness_ProductsAndDivisionsReachPhPl :
    Now host 1 ∧ ¬ ((host.core 0).arch.gr 1 = 0 ∧ ((fet host 1).core 0).finish.arch.ps.getLsbD 11 = true) ∧
    ((host.modCore 0 fun c => { c with divUnit := some ⟨some (1, 2), ⟨0, 0, 12⟩⟩ }).core 0).divUnit =
      some ⟨some (1, 2), ⟨0, 0, 12⟩⟩ :=
  ⟨turn_of (by decide +kernel), by decide +kernel, by decide +kernel⟩

/-- `n` bytes at an address of the first 1 GiB, as an access finds them. -/
def at_ (a n : Nat) : List (Nat × Nat × Nat × Nat) := [(a, n, 0, 2 ^ 30)]

theorem witness_LoadsReadMemoryBigEndian :
    loaded (.ldbs 0 1 2 3) = some (0, 1, 1, fun x => x.gr 2 + x.gr 3, 1, true) ∧
    loadedF (.fldq 0 1 2 3) = some (0, 1, 1, fun x => x.gr 2 + x.gr 3, 16) ∧ Now host 1 ∧
    (∃ u, Reads (fet host 1) 0 0 1 (at_ 0 1) u ∧ host.overPins (u.touchPieces 0 (at_ 0 1)) = false) ∧
    ∃ u, Reads (fet host 1) 0 0 16 (at_ 0 16) u ∧ host.overPins (u.touchPieces 0 (at_ 0 16)) = false :=
  ⟨rfl, rfl, turn_of (by decide +kernel), ⟨_, reads_of (by decide +kernel), by decide +kernel⟩, _,
    reads_of (by decide +kernel), by decide +kernel⟩

theorem witness_StoresReachTheirBytesAlone :
    let r := acc (fet host 1) 2 0 8 .write
    stored (.std 0 1 2 3) = some (0, 1, fun x => x.gr 2 + x.gr 3, 8, fun x => (x.gr 1).setWidth 128) ∧
    Now host 1 ∧ StoreRoom host 0 1 ∧ r = (.ok (at_ 0 8), r.2) ∧ (∀ p ∈ at_ 0 8, p.1 < controlBase) ∧
    PinRoom host r.2 0 [gstore ((fet host 1).viewer 0 2) false (at_ 0 8) (zeros 8)] :=
  ⟨rfl, turn_of (by decide +kernel), .inr (by decide +kernel), acc_of (by decide +kernel), by decide +kernel,
    pinRoom_of (by decide +kernel) (by decide +kernel)⟩

theorem witness_AtomicsReturnTheOldValue :
    let r := (fet host 1).access ((fet host 1).viewer 0 2) 0 8 .read false
    let w := r.2.access ((fet host 1).viewer 0 2) 0 8 .write false
    atomicOf (.swap 0 1 2 3) = some (0, 1, (fun x => x.gr 2), fun x _ => some (x.gr 3)) ∧ Now host 1 ∧
    StoreRoom host 0 1 ∧ r = (.ok (at_ 0 8), r.2) ∧ w = (.ok (at_ 0 8), w.2) ∧
    (fet host 1).gatedElsewhere 0 (spansOf (at_ 0 8)) = false ∧ w.2.badPieces (at_ 0 8) = false ∧
    PinRoom host (w.2.touchPieces 0 (at_ 0 8)) 0 [gstore ((fet host 1).viewer 0 2) true (at_ 0 8) (zeros 8)] :=
  ⟨rfl, turn_of (by decide +kernel), .inr (by decide +kernel), acc_of (by decide +kernel), acc_of (by decide +kernel),
    by decide +kernel, by decide +kernel, pinRoom_of (by decide +kernel) (by decide +kernel)⟩

theorem witness_BranchesTakeTheirTargets :
    (14#5).toNat < 15 ∧ branched (.jmpr 0 1) = some (0, 1, fun _ => true, fun x => x.gr 1) ∧ Now host 1 ∧
    ((fet host 1).core 0).arch.gr 1 = 0 := ⟨by decide, rfl, turn_of (by decide +kernel), by decide +kernel⟩

theorem witness_CallsPushAndReturnsPop :
    let f := fet user 1
    let r := acc f 0 (0x8000#64 - 8#64) 8 .write
    called (.callr 0 1) = some (0, 1, fun x => x.gr 1) ∧ Now user 1 ∧ StoreRoom user 0 1 ∧
    ((f.core 0).arch.level = 0 ∧ (f.core 0).arch.gr 31 = 0x8000 ∧ (f.core 0).arch.gr 1 = 0) ∧
    ((f.core 0).arch.kr 8).toNat ≤ (0x8000#64 - 8#64).toNat ∧ r = (.ok (at_ 0x7FF8 8), r.2) ∧
    (∀ p ∈ at_ 0x7FF8 8, p.1 < controlBase) ∧ PinRoom user r.2 0 [gstore (f.viewer 0 0) false (at_ 0x7FF8 8) (zeros 8)] ∧
    (∃ u, Reads f 0 0x8000 8 (at_ 0x8000 8) u ∧ user.overPins (u.touchPieces 0 (at_ 0x8000 8)) = false) ∧
    seen f 0 (at_ 0x8000 8) = zeros 8 :=
  ⟨rfl, turn_of (by decide +kernel), .inr (by decide +kernel), by decide +kernel, by decide +kernel,
    acc_of (by decide +kernel), by decide +kernel, pinRoom_of (by decide +kernel) (by decide +kernel),
    ⟨_, reads_of (by decide +kernel), by decide +kernel⟩, by decide +kernel⟩

/-- `user` with DIV_TRAP set. -/
def divTrap : State := user.modCore 0 fun c => { c with arch := { c.arch with ps := 0x800 } }

/-- The registers of core 0 when a division by zero of 0 traps. -/
def divided : Arch :=
  { ((fet divTrap 1).core 0).finish.arch with pc := 3, ph := 0, pl := BitVec.allOnes 64, products := [] }

theorem witness_TrapsEnterTheirVectors :
    (trapped (.hostcall 0) = some (0, fun _ => some 2, 0x08) ∧ Now user 1 ∧ MayClose user 0 ∧ StoreRoom user 0 2 ∧
      ∃ u, Pushes (fet user 1) 0 2 (afterTrap ((fet user 1).core 0) 1) (at_ 0x7FF0 8) (at_ 0x7FF8 8) u ∧
        PinRoom user u 0 (frameStores (fet user 1) 0 2 (at_ 0x7FF0 8) (at_ 0x7FF8 8) 0 3)) ∧
    Now divTrap 1 ∧ ((fet divTrap 1).core 0).arch.gr 1 = 0 ∧
      ((fet divTrap 1).core 0).arch.ps.getLsbD 11 = true ∧
      ∃ u, Pushes (fet divTrap 1) 0 1 divided (at_ 0x7FF0 8) (at_ 0x7FF8 8) u ∧
        PinRoom divTrap u 0 (frameStores (fet divTrap 1) 0 1 (at_ 0x7FF0 8) (at_ 0x7FF8 8) divided.psRead divided.pc) :=
  ⟨⟨rfl, turn_of (by decide +kernel), .inr (by decide +kernel), .inr (by decide +kernel), _,
      pushes_of (by decide +kernel), pinRoom_of (by decide +kernel) (by decide +kernel)⟩,
    turn_of (by decide +kernel), by decide +kernel, by decide +kernel, _, pushes_of (by decide +kernel),
    pinRoom_of (by decide +kernel) (by decide +kernel)⟩

/-- `user` with line 3 raised by queue 0 and enabled. -/
def lined : State :=
  let s := user.modCore 0 fun c => { c with arch := { c.arch with k := [(18, 0x1000), (21, 8), (28, 50000)] } }
  { (s.modQueue 0 fun x => { x with owner := some 0, stale := true, cfg := { x.cfg with intrEn := true, line := 3 } }) with
    parts := { s.parts with procs := [{ core := 0, part := 0, num := 0, whole := true }] } }

theorem witness_FaultsAndInterruptsEnterTheirVectors :
    (faulted (.eret 0) ((fet user 1).core 0).arch.level = some (0, 1, 6) ∧ Now user 1 ∧ MayClose user 0 ∧
      StoreRoom user 0 2 ∧
      ∃ u, Pushes (fet user 1) 0 1 ((fet user 1).core 0).finish.arch (at_ 0x7FF0 8) (at_ 0x7FF8 8) u ∧
        PinRoom user u 0 (frameStores (fet user 1) 0 1 (at_ 0x7FF0 8) (at_ 0x7FF8 8) 0 0)) ∧
    (lined.executes 0 = true ∧ (lined.core 0).wait = .none ∧ lined.takeLine 0 = some (3, 1) ∧
      MayClose lined 0 ∧ StoreRoom lined 0 2) ∧
      ∃ u, Pushes lined 0 1 (lined.core 0).finish.arch (at_ 0x7FF0 8) (at_ 0x7FF8 8) u ∧
        PinRoom lined u 0 (frameStores lined 0 1 (at_ 0x7FF0 8) (at_ 0x7FF8 8) 0 0) :=
  ⟨⟨by decide +kernel, turn_of (by decide +kernel), .inr (by decide +kernel), .inr (by decide +kernel), _,
      pushes_of (by decide +kernel), pinRoom_of (by decide +kernel) (by decide +kernel)⟩,
    ⟨by decide +kernel, by decide +kernel, by decide +kernel, .inr (by decide +kernel), .inr (by decide +kernel)⟩,
    _, pushes_of (by decide +kernel), pinRoom_of (by decide +kernel) (by decide +kernel)⟩

/-- Core 0 at the host level, its frame of zeros at 0x8000; the state after the saved PS is read. -/
def inHandler : State := cpu fun a => { a with hsp := 0x8000 }
def half : State := (acc (fet inHandler 1) ((fet inHandler 1).core 0).arch.level 0x8000 8 .read).2
def whole : State := half.touchPieces 0 (at_ 0x8000 8)

theorem witness_EretRestoresTheFrame :
    Now inHandler 1 ∧ MayClose inHandler 0 ∧ ((fet inHandler 1).core 0).arch.level = 2 ∧
    Reads (fet inHandler 1) 0 0x8000 8 (at_ 0x8000 8) half ∧ 
    (∃ w, Reads whole 0 0x8008 8 (at_ 0x8008 8) w ∧ inHandler.overPins (w.touchPieces 0 (at_ 0x8008 8)) = false) ∧
    beNat (seen half 0 (at_ 0x8000 8)) = 0 ∧ beNat (seen whole 0 (at_ 0x8008 8)) = 0 :=
  ⟨turn_of (by decide +kernel), .inr (by decide +kernel), by decide +kernel, reads_of (by decide +kernel),
    ⟨_, reads_of (by decide +kernel), by decide +kernel⟩, by decide +kernel, by decide +kernel⟩

theorem witness_ControlRegistersFollowTheirRules :
    kLevel 0 = some 1 ∧ Now host 1 ∧ 1 ≤ ((fet host 1).core 0).arch.level ∧ 28 ∉ [19, 20, 29] ∧ kLevel 28 = some 1 :=
  ⟨by decide +kernel, turn_of (by decide +kernel), by decide +kernel, by decide, by decide +kernel⟩

/-- `host` with a store that its pair has not released. -/
def held : State := host.modPair 0 fun p =>
  { p with opened := { p.opened with stores := [⟨[(0x100, [7])], 0, true, false⟩] } }

theorem witness_TranslationsAreCheckedKeptAndDropped :
    let v := user.viewer 0 0
    (v.level ≠ 2 ∧ (user.translate v 8 .read).1 = .ok 8 0 (2 ^ 30)) ∧ ((host.viewer 0 2).level = 2 ∧ 8 < 2 ^ 52) ∧
    advances (.fence 0) = some 0 ∧ ((fet host 1).pair 0).gated = [] ∧ (held.pair 0).gated ≠ [] ∧ Now held 1 ∧
    (tlbDrops (fet host 1) ((fet host 1).core 0).arch (.htlbi 0 1 2)).map (fun d => (d.1, d.2.1)) = some (0, 2) ∧
    Now host 1 ∧ 2 ≤ ((fet host 1).core 0).arch.level :=
  ⟨⟨by decide +kernel, by decide +kernel⟩, ⟨by decide +kernel, by decide⟩, rfl, by decide +kernel, by decide +kernel,
    turn_of (by decide +kernel), by decide +kernel, turn_of (by decide +kernel), by decide +kernel⟩

theorem witness_EventsAndWaitsFollowEv :
    let s := host.modCore 0 fun c => { c with wait := .waitc 1 0 0 }
    sentEvent (fet host 1) (.sev 0) = some (0, .sev ((fet host 1).partOfCore 0) 0) ∧ Now host 1 ∧ MayClose host 0 ∧
    (s.core 0).wait = .waitc 1 0 0 ∧ (0 : Nat) ≤ s.clock.tb.toNat ∧ (s.core 0).clockOff = false ∧ MayClose s 0 ∧
    s.takeLine 0 = none :=
  ⟨rfl, turn_of (by decide +kernel), .inr (by decide +kernel), by decide +kernel, by decide, by decide +kernel,
    .inr (by decide +kernel), by decide +kernel⟩

theorem witness_WaitingClocksStopAndWake :
    let s := ({ host with clock := { host.clock with ticks := 5000 } } : State).modCore 0 fun c =>
      { c with wait := .waitc 1 51500 0, wakeAt := some 0, clockOff := false }
    let o := s.modCore 0 fun c => { c with clockOff := true }
    (s.executes 0 = true ∧ (s.pair 0).closed = [] ∧ (s.pair 0).opened.isEmpty = true ∧
      (s.cell (s.cellOfCore 0)).manual = false ∧ s.holdsOf (s.cellOfCore 0) = 0 ∧ ((s.core 0).arch.kr 28).toNat ≤ 10 * (s.now - 0) ∧
      s.clock.tb.toNat + ((s.core 0).arch.kr 28).toNat + 1500 ≤ (51500#64).toNat ∧ (s.core 0).wait = .waitc 1 51500 0) ∧
    ((o.core 0).wakeAt = some 0 ∧ (o.core 0).clockOff = true) := by
  intros; (repeat' apply And.intro) <;> decide +kernel

theorem witness_FloatingArithmeticRoundsAndFlags :
    floatResult (.fdiv 0 .s 1 2 3) =
      some (0, 1, 1, fun x => divV (fmtOf .s) x.rm x.fz (x.fv .s 2) (x.fv .s 3)) ∧ Now host 1 ∧
    noTrap ((fet host 1).core 0).arch (divV (fmtOf .s) 0 false ((fet host 1).core 0 |>.arch.fv .s 2)
      ((fet host 1).core 0 |>.arch.fv .s 3)).2 :=
  ⟨rfl, turn_of (by decide +kernel), by unfold noTrap; decide +kernel⟩

theorem witness_FloatingMovesKeepTheirBits :
    let x := ((fet host 1).core 0).arch
    floatMoved (.fmvfg 0 1 2) = some (0, 1, fun x => (x.gr 2).toNat) ∧
    toGeneral (.mffs 0 1) = some (0, 1, fun x => x.fs.toNat) ∧ Now host 1 ∧ (x.gr 1).toNat / 256 % 8 < 5 ∧
    noTrap x { nv := (x.fv .q 1).signals (fmtOf .q) || (x.fv .q 2).signals (fmtOf .q) } ∧ kindFmt 2 = some .s ∧
    (9#4) ∈ [0#4, 1, 8, 9] ∧ noTrap x (toInt (fmtOf .s) 1 true (x.fbits .s 1)).2 :=
  ⟨rfl, rfl, turn_of (by decide +kernel), by decide +kernel, by unfold noTrap; decide +kernel, by decide +kernel,
    by decide, by unfold noTrap; decide +kernel⟩

/-! ### Witnesses: checking, caches and memory -/

/-- `host` with one instruction in the window in progress and one window closed. -/
def checked (f : Pair → Pair) : State := host.modPair 0 fun p =>
  f { p with opened := { Window.empty 1 with count := 1 }, closed := [{ Window.empty 0 with count := 127 }], ccLeft := 17 }

/-- `c` with an uncached tier of 16 MiB without pools, 512 lines that slice 0 holds pinned, and a dirty line 0 that no slot
can hold. -/
def pinned (c : State) : State :=
  { c with
    mem := { c.mem with tiers := [(0, { Tier.reset with
      enabled := true, size := 2 ^ 24, store := 0x100000, desc := 0x200000
      pins := (List.range 512).map fun i => 4 * i + 4 })] }
    caches := { c.caches with
      regions := [(0, { valid := true, base := tierBase / 2 ^ 21, limit := tierBase / 2 ^ 21 + 8, policy := 2,
                        allocR := false, allocW := false, stream := false })]
      dirty := [(tierBase / 256, (List.range 256).map fun i => BitVec.ofNat 8 (i * i * i * 37 + i * 101 + 3))] } }

theorem witness_WindowsCloseCommitAndRollBack :
    let s := checked id
    let g : GStore := ⟨[(0x100, [7])], 0, true, false⟩
    let c := checked fun p => { p with committed := [g] }
    let u := (c.modPair 0 fun x => { x with committed := [] }).performStore 0 g
    let z := inSt .asleep [cellNo 4 0] c
    let b := checked fun p => { p with committed := [g, g] }
    let h : GStore := ⟨[(tierBase, [7])], 0, true, false⟩
    let k := pinned (checked fun p => { p with committed := [h] })
    let v := (b.modPair 0 fun x => { x with committed := [g] }).performStore 0 g
    (s.checks 0 = true ∧ (s.pair 0).failing = none ∧ (s.pair 0).opened.isEmpty = false ∧ (s.pair 0).closed.length < 2) ∧
    (host.checks 0 = true ∧ (host.pair 0).failing = none ∧ (host.pair 0).opened.isEmpty = true) ∧
    ((s.pair 0).closed = { Window.empty 0 with count := 127 } :: [] ∧ (s.pair 0).forced = false ∧
      (Window.empty 0).pop = none ∧ (Window.empty 0).events = [] ∧ (s.pair 0).owed = false ∧ (s.pair 0).failing = none ∧
      (∀ j ∈ s.caches.jobs, j.begins 0 = j) ∧ (s.core (leaderOf 0)).wait = .none ∧ (s.pair 0).job = none ∧
      s.cst (cellOfPair 0) ≠ .draining) ∧
    ((s.pair 0).closed ≠ [] ∧ (s.pair 0).mode ≠ 2 ∧ (s.pair 0).failRun < 2 ∧ (s.pair 0).ckptLost = false ∧
      ∀ w ∈ (s.pair 0).uncommitted, w.pop = none) ∧
    (c.pair 0).committed = g :: [] ∧ c.acceptsStore 0 g = true ∧ c.overPins u = false ∧ (u.pair 0).committed = [] ∧
    (k.pair 0).committed = h :: [] ∧ k.acceptsStore 0 h = true ∧
    k.overPins ((k.modPair 0 fun x => { x with committed := [] }).performStore 0 h) = true ∧
    z.acceptsStore 0 g = false ∧ (b.pair 0).committed = g :: g :: [] ∧ v.acceptsStore 0 g = true ∧
    v.overPins ((v.modPair 0 fun x => { x with committed := [] }).performStore 0 g) = false := by
  intros; (repeat' apply And.intro) <;> decide +kernel

theorem witness_CheckingHardwareFaultsAreCounted :
    let s := checked id
    let t := { (checked fun p => { p with failRun := 2 }) with spares := [(0, some 12)] }
    let o := host.modPair 0 fun p => { p with ccLeft := 17 }
    let l := checked fun p => { p with ckptLost := true }
    (s.checks 0 = true ∧ (s.pair 0).busDead = false ∧ 0 < (s.pair 0).ccLeft ∧
      (s.pair 0).closed = { Window.empty 0 with count := 127 } :: [] ∧
      (Window.empty 0).number < (s.pair 0).opened.number ∧ (s.pair 0).failing = none ∧ (s.pair 0).mode ≠ 2) ∧
    (o.checks 0 = true ∧ (o.pair 0).busDead = false ∧ 0 < (o.pair 0).ccLeft ∧ (o.pair 0).failRun < 2 ∧
      (o.pair 0).ckptLost = false ∧ (o.pair 0).closed = [] ∧ (o.pair 0).opened.pop = none) ∧
    (l.checks 0 = true ∧ (l.pair 0).closed ≠ [] ∧ (l.pair 0).mode ≠ 2 ∧ (l.pair 0).failRun < 2 ∧
      (l.pair 0).ckptLost = true ∧ (l.pair 0).job = none ∧ ∀ w ∈ (l.pair 0).uncommitted, w.pop = none) ∧
    ((s.pair 0).restarting = false ∧ (s.pair 0).job = none) ∧
    (t.checks 0 = true ∧ (t.pair 0).closed ≠ [] ∧ (t.pair 0).mode ≠ 2 ∧ (t.pair 0).failRun = 2 ∧
      (t.pair 0).ckptLost = false ∧ (t.pair 0).job = none ∧
      t.spareOf 0 = some 12 ∧ ∀ w ∈ (t.pair 0).uncommitted, w.pop = none) := by
  intros; (repeat' apply And.intro) <;> decide +kernel

/-- `host` as partition 0 runs it, with a save area of one page at 0x10000 whose version is 1, and a spare on each die. -/
def tenant (f : Pair → Pair) : State :=
  let s := ((inSt .running [cellNo 0x14 0] host).modPair 0 f).rawWrite 0x10007 [1]
  { s with spares := [(0, some 12), (1, some 25)]
           parts := { s.parts with
             parts := [(0, { cfg := { PartCfg.reset with htroot := 0x1000, procsMax := 2 }, hostStage := true, started := true })]
             procs := [{ core := 0, part := 0, num := 0, whole := true }] } }

/-- The parameters of a SPLIT and of a JOIN, and those hand-overs under way. -/
def splitBytes : Bytes := words [0x10000] ++ [0, 1, 4] ++ zeros 5
def splitJob : PairJob := .split 0 1 4 0x10000 ask
def joinJob : PairJob := .join 0 0x10000 ask

theorem witness_PairCommandsBeginTheirHandOvers :
    let s := tenant id
    let j := inSt .running [cellNo 2 0, cellNo 2 1] (tenant fun p => { p with mode := 1 })
    (In opSplit (cellNo 1 0) splitBytes s ∧ allZero (slice splitBytes 11 5) = true ∧
      numAt splitBytes 0 8 % 256 = 0 ∧ s.isSpare 0 = false ∧ s.isSplit 0 = false ∧ s.runs (cellNo 1 0) = true ∧
      (s.pair 0).job = none ∧ (∀ q ∈ s.procsOf 0, q.num ≠ 1) ∧ (s.procsOf 0).length < s.procsMax 0 ∧
      ∃ bs v, s.readPart 0 0x10000 1152 = some (bs, v) ∧ areaOk bs = true) ∧
    (In opJoin (cellNo 1 0) (words [0x10000, 0]) j ∧ j.isSpare 0 = false ∧ j.isSplit 0 = true ∧
      j.runs (cellNo 1 0) = true ∧ (j.pair 0).job = none ∧ (j.partRange 0 0x10000 1152 .write).isSome = true) ∧
    (In opSpare (cellNo 1 0) [] s ∧ s.spareOf 0 = some 12 ∧ s.isSplit 0 = false ∧ 12 ≠ 0 ∧ (s.pair 0).job = none ∧
      s.runs (cellNo 1 0) = true) ∧
    (In opInject (cellNo 1 0) (words [2]) s ∧ (wordAt (words [2]) 0).toNat ≤ 2 ∧ s.isSpare 0 = false ∧
      s.isSplit 0 = false ∧ s.runs (cellNo 1 0) = true) := by
  intros; refine ⟨⟨admitted_of (by decide +kernel), by decide, by decide, by decide, by decide, by decide +kernel, by decide,
    by decide +kernel, by decide +kernel, _, _, (Option.some_get (by decide +kernel)).symm, by decide +kernel⟩, ?_⟩
  (repeat' apply And.intro) <;> first | exact admitted_of (by decide +kernel) | decide +kernel

theorem witness_HandOversFinishAtRest :
    let s := tenant fun p => { p with job := some splitJob }
    let j := tenant fun p => { p with mode := 1, job := some joinJob }
    let r := tenant fun p => { p with job := some (.spare 12 (some ask)) }
    let q := inSt .faulted [cellNo 1 0] (tenant fun p => { p with job := some (.spare 12 (some ask)) })
    let k := tenant fun p => { p with job := some (.spare 12 (some ask)), ckptLost := true }
    let l := (s.readArea 0 0x10000).2
    let w := (j.writeArea 0 0x10000 0 (areaBytes j (leaderOf 0 + 1))).2
    ((s.pair 0).job = some splitJob ∧ s.atRest 0 = true ∧
      (s.readArea 0 0x10000).1 = some (some ((s.readArea 0 0x10000).1.get!.get!)) ∧
      ((l.emptyWays 0 fun w => decide (16 - 4 ≤ w)).holdsL2 0 fun w => decide (16 - 4 ≤ w)) = false) ∧
    ((j.pair 0).job = some joinJob ∧ (j.writeArea 0 0x10000 (dieOfPair 0) (areaBytes j (leaderOf 0 + 1))).1 = some true ∧
      ((w.emptyWays 0 fun w => decide (16 - (j.pair 0).shadowWays.toNat ≤ w)).holdsL2 0 fun w =>
        decide (16 - (j.pair 0).shadowWays.toNat ≤ w)) = false ∧ ∀ n, (j.port n).msiWaits = []) ∧
    ((r.pair 0).job = some (.spare 12 (some ask)) ∧ r.atRest 0 = true ∧ (r.cell (cellOfPair 0)).stops = [] ∧
      (r.pair 0).ckptLost = false ∧ ((r.emptyWays 0 fun _ => true).holdsL2 0 fun _ => true) = false) ∧
    ((q.pair 0).job = some (.spare 12 (some ask)) ∧ q.cst (cellOfPair 0) = .faulted ∧ (q.pair 0).committed = [] ∧
      (q.pair 0).ckptLost = false) ∧
    ((k.pair 0).job = some (.spare 12 (some ask)) ∧ k.atRest 0 = true ∧ (k.cell (cellOfPair 0)).stops = [] ∧
      (k.pair 0).ckptLost = true) := by
  intros; (repeat' apply And.intro) <;> first | exact fun _ => rfl | decide +kernel
/-! ### Witnesses: the commands of caches and memory -/

theorem witness_CacheCommandsAreAccepted :
    let m := cellModule
    let p := cellNo 1 0
    (In opInvalRange m (words [0x100, 0x200, 1 * 2 ^ 56]) ram ∧ (ram.cellRange none 0x100 0x200).isSome = true) ∧
    (In opLockWays m (words [3 * 2 ^ 32 + cellVixia, 0, 0x1000000, 0]) ram ∧ lockOwner cellVixia = true ∧
      3#32 &&& ram.lockedWays = 0 ∧ 0x1000000 ≤ 2 ^ 24 * (waysIn 3).length ∧ (∀ w ∈ waysIn 3, wayOff ram w = false) ∧
      (waysIn (3 ||| ram.lockedWays)).length ≤ 8) ∧
    In opUnlockWays m (words [0xFFFFFFFF]) ram ∧
    (In opRegionSet m (words [63 * 2 ^ 56 + 0x8D * 2 ^ 48, 0, 2 ^ 52 - 2 ^ 21]) ram ∧
      (0x8D#8).getLsbD 5 = false ∧ (0x8D#8).getLsbD 6 = false ∧ (0x8D#8).getLsbD 1 = false) ∧
    (In opWaysOff m (words [0xFE]) ram ∧ (0xFE#8).getLsbD 0 = false ∧ groupLocked ram.lockedWays 0xFE = false) ∧
    In opWaysOn m (words [0xFF]) ram ∧ In opCacheDisable p (words [7]) ram ∧
    (In opCacheEnable p (words [7]) ram ∧ (ram.pair 0).l2State = 0) ∧ In opPrefetchSet p (words [0x801]) ram := by
  intros; (repeat' apply And.intro) <;> first | exact admitted_of (by decide +kernel) | decide +kernel

/-- `ram` with one cache or memory operation under way. -/
def cacheJob (j : CacheJob) : State := { ram with caches := { ram.caches with jobs := [j] } }
def memJob (j : MemJob) (t : Tier) : State := (ram.modTier 15 fun _ => t).modMem fun m => { m with jobs := [j] }

/-- Region 15 of the tier, enabled, 4 GiB over a store at 1 GiB, with line 0 dirty in a cache. -/
def region : Tier :=
  { Tier.reset with enabled := true, key := 64, size := 2 ^ 32, store := 2 ^ 30, desc := 3 * 2 ^ 30, threshA := 1, threshB := 1 }

theorem witness_CacheOperationsComplete :
    let l : WayLock := { mask := 1, owner := cellVixia, base := 0, len := 2 ^ 24 }
    let d := cacheJob (.disable 0 7 true ask)
    let e := { host with caches := { host.caches with jobs := [.disable 0 7 false ask] } }
    let v := (d.takeCacheJob 0).map Prod.snd
    let r := (cacheJob (.range 0x0200 0 256 0 none ask)).takeCacheJob 0
    let x := { (checked fun p => { p with restarting := true }) with caches := e.caches }
    let z := inSt .draining [cellNo 3 3] ram
    (r.map Prod.fst = some (.range 0x0200 0 256 0 none ask) ∧
      ∀ u ∈ r.map Prod.snd, u.rangeWaits 0x0200 0 ((u.cellRange none 0 256).getD []) = false ∧
        u.overPins (u.rangeOp 0x0200 0 ((u.cellRange none 0 256).getD [])).1 = false) ∧
    ((cacheJob (.lock l false ask)).takeCacheJob 0).map Prod.fst = some (.lock l false ask) ∧
    (((cacheJob (.region 63 Region.reset ask)).takeCacheJob 0).map Prod.fst =
      some (.region 63 Region.reset ask)) ∧
    ((cacheJob (.waysOn [3] 1 ask)).takeCacheJob 0).map Prod.fst = some (.waysOn [3] 1 ask) ∧
    (((cacheJob (.waysOff [3] 2 ask)).takeCacheJob 0).map Prod.fst = some (.waysOff [3] 2 ask) ∧ ram.caches.slice = []) ∧
    ((d.takeCacheJob 0).map Prod.fst = some (.disable 0 7 true ask) ∧
      ∀ u ∈ v, ((u.emptyWays 0 fun _ => true).holdsL2 0 fun _ => true) = false) ∧
    ((e.takeCacheJob 0).map Prod.fst = some (.disable 0 7 false ask) ∧ e.atBoundary 0 = true) ∧
    ((x.takeCacheJob 0).map Prod.fst = some (.disable 0 7 false ask) ∧ x.atBoundary 0 = false) ∧
    (z.cst (cellNo 3 3) = .draining ∧ z.caches.slice = [] ∧ z.pinsOf 3 = 0 ∧
      (z.modTier 15 fun t => { t with pins := List.range 16 }).pinsOf 3 ≠ 0) := by
  intros; (repeat' apply And.intro) <;> decide +kernel

theorem witness_MemoryCommandsAreAnswered :
    let m := cellModule
    let s := memJob (.zero 0 256 none ask) region
    let big := { ram with mem := { ram.mem with sets := [{ baseGib := 0, limitGib := 7, channels := [0], redundant := false }] } }
    let tier := [15, 4, 64] ++ zeros 5 ++ words [2 ^ 32, 2 ^ 30, 3 * 2 ^ 30, 2 ^ 32 + 1, 0]
    let pool : PoolRange := { base := 2 ^ 23, frames := 2, used := [], lines := [] }
    let e := big.modTier 15 fun _ => { region with pools := [pool] }
    (In opGranuleKey m (words [64 * 2 ^ 16]) ram ∧ ram.allDirect 0 (2 ^ 30) = true ∧
      ram.meetsBacking none 0 (2 ^ 30) = false) ∧
    (In opKeyRenew m (words [63]) ram ∧ (∀ e ∈ ram.mem.keyMap, e.2 ≠ 63) ∧
      ∀ r, r < 16 → (ram.tier r).enabled = true → (ram.tier r).key ≠ 63) ∧
    (In opZeroRange m (words [0, 0x100]) s ∧ s.allDirect 0 0x100 = true ∧
      In opZeroRange (cellNo 0x14 0) (words [0, 0x100]) s ∧ (s.cellRange (some 0) 0 0x100).isSome = true) ∧
    (In opTierSet m tier big ∧ (tierAsked (pkt m tier)).size = 2 ^ 32 ∧ big.allDirect (2 ^ 30) (2 ^ 30) = true ∧
      big.allDirect (3 * 2 ^ 30) (2 ^ 23) = true ∧ meets (2 ^ 30) (2 ^ 30) (3 * 2 ^ 30) (2 ^ 23) = false ∧
      big.meetsBacking (some 15) (2 ^ 30) (2 ^ 30) = false ∧ big.meetsAssigned (2 ^ 30) (2 ^ 30) = false ∧
      big.meetsBacking (some 15) (3 * 2 ^ 30) (2 ^ 23) = false ∧ big.meetsAssigned (3 * 2 ^ 30) (2 ^ 23) = false ∧
      (big.tier 15).enabled = false ∧ big.mem.jobs = []) ∧
    (In opTierClear m (words [15]) s ∧ s.meetsAssigned (tierAddr 15 0) (2 ^ 46) = false) ∧
    (In opPoolAdd m ([15] ++ zeros 7 ++ words [6 * 2 ^ 30, 2]) e ∧ e.allDirect (6 * 2 ^ 30) 8192 = true ∧
      e.meetsBacking none (6 * 2 ^ 30) 8192 = false ∧ e.meetsAssigned (6 * 2 ^ 30) 8192 = false ∧
      (e.tier 15).enabled = true ∧ (e.tier 15).pools.length + e.mem.jobs.length < 16) ∧
    (In opPoolRemove m (words [15, 2 ^ 23]) e ∧ (e.tier 15).pools.find? (fun p => p.base = 2 ^ 23) = some pool) ∧
    (In opTierThresh m (words [15, 2 ^ 32 + 1]) e ∧ (e.tier 15).framesUsed = 0) ∧ In opScrubSet m (words [0x1A8]) ram := by
  intros; (repeat' apply And.intro) <;> first | exact admitted_of (by decide +kernel) | decide +kernel

theorem witness_MemoryOperationsComplete :
    let pool : PoolRange := { base := 2 ^ 23, frames := 2, used := [], lines := [] }
    let z := memJob (.zero 0x100 256 none ask) Tier.reset
    let g := memJob (.granuleKey 0 64 ask) Tier.reset
    let t := memJob (.tierSet 15 region ask) Tier.reset
    let p := memJob (.poolAdd 15 pool ask) region
    let a := inSt .asleep [cellNo 4 0] z
    let w := { (memJob (.tierClear 15 ask) region) with
      caches := { ram.caches with dirty := [(lineOf (tierAddr 15 0), zeros 256)] } }
    let l := lineOf (tierAddr 0 0)
    let k := pinned ram
    let q := k.modTier 0 fun x => { x with pins := [] }
    ((g.takeMemJob 0).map Prod.fst = some (.granuleKey 0 64 ask) ∧ g.meetsBacking none 0 (2 ^ 30) = false ∧
      NoneAsleep g (.granuleKey 0 64 ask)) ∧
    ((z.takeMemJob 0).map Prod.fst = some (.zero 0x100 256 none ask) ∧ z.cellRange none 0x100 256 = some [(0x100, 256)] ∧
      z.tierRange 0x100 256 = none ∧ z.meetsBacking none 0x100 256 = false ∧ NoneAsleep z (.zero 0x100 256 none ask)) ∧
    ((t.takeMemJob 0).map Prod.fst = some (.tierSet 15 region ask) ∧ NoneAsleep t (.tierSet 15 region ask)) ∧
    (w.takeMemJob 0).map Prod.fst = some (.tierClear 15 ask) ∧
    ((p.takeMemJob 0).map Prod.fst = some (.poolAdd 15 pool ask) ∧ (p.tier 15).enabled = true ∧
      pool.base + pool.frames * 4096 ≤ tierBase ∧ (∀ v ∈ (p.takeMemJob 0).map Prod.snd, v.meetsBacking none pool.base 4096 = false) ∧
      NoneAsleep p (.poolAdd 15 pool ask)) ∧
    (0 * 256 < (w.tier 15).size ∧ (w.tier 15).enabled = true ∧
      tabFind w.caches.dirty (lineOf (tierAddr 15 0)) = some (zeros 256) ∧
      w.overPins (w.writeBack (lineOf (tierAddr 15 0))) = false ∧ (w.tierStore 15 0 (zeros 256)).isSome = true) ∧
    ((tabFind k.caches.dirty l).isSome = true ∧ k.overPins (k.writeBack l) = true ∧ q.overPins (q.writeBack l) = false ∧
      (q.tierStore 0 0 ((tabFind q.caches.dirty l).getD [])).isNone = true) ∧
    tabFind ram.caches.dirty (lineOf (tierAddr 15 0)) = none ∧
    ((a.takeMemJob 0).map Prod.fst = some (.zero 0x100 256 none ask) ∧ ends (.zero 0x100 256 none ask) 0 (.zeroRangeComplete 0) ∧
      ¬ NoneAsleep a (.zero 0x100 256 none ask)) := by
  intros; (repeat' apply And.intro) <;> first | (unfold NoneAsleep; decide +kernel) | decide +kernel | exact rfl

/-- `ram` with channel 0 as `f` makes it, 1 GiB large. -/
def chan (f : Chan → Chan) : State := ram.modChan 0 fun x => f { x with capGib := 1, devLimit := 1 }

theorem witness_ChannelEventsFollowTheirRules :
    let s := chan id
    let r := { (chan id) with mem := { (chan id).mem with
      sets := [{ baseGib := 0, limitGib := 0, channels := [0, 1, 2, 3, 4, 5], redundant := true }] } }
    ((s.chan 0).retries < 7 ∧ 7 ≤ ((chan fun x => { x with retries := 7 }).chan 0).retries ∧
      s.cst (cellNo 4 0) ≠ .faulted ∧ (inSt .faulted [cellNo 4 0] ram).cst (cellNo 4 0) = .faulted) ∧
    (s.setOfChan 23 = none ∧ ((chan fun x => { x with lost := true }).chan 0).lost = true) ∧
    ((s.setOfChan 0).isSome = true ∧ (s.chan 0).lost = false ∧ (inSt .asleep [cellNo 4 0] s).cst (cellNo 4 0) = .asleep ∧
      ((inSt .asleep [cellNo 4 0] s).chan 0).lost = false ∧ s.cst (cellNo 4 0) ≠ .asleep ∧ 2 ^ 22 - 1 + 1 = (s.chan 0).capGib * 2 ^ 22 ∧
      (s.chan 0).failedDevice = 0xFF) ∧
    ((s.setOfChan 23).all (fun m => m.redundant && (s.lostIn 3).isEmpty) = true ∧
      (r.setOfChan 0).all (fun m => m.redundant && (r.lostIn 0).isEmpty) = true ∧
      (s.setOfChan 0).map (·.redundant) = some false ∧
      (r.modChan 1 fun x => { x with lost := true }).lostIn 0 ≠ []) ∧
    ((r.setOfChan 0).map (·.redundant) = some true ∧ r.lostIn 0 = [] ∧ (s.addrOf 0 0) = some 0) ∧
    (eccDecode (s.chan 0).x8 (s.chan 0).failedDevice [(3, 1)] = .corrected 3 ∧
      eccDecode (s.chan 0).x8 (s.chan 0).failedDevice [(3, 1), (4, 1)] = .uncorrectable ∧ s.mem.poison = [] ∧
      s.mem.intents = [] ∧ 1 + 1 ≠ (s.chan 0).capGib * 2 ^ 22 ∧
      ∀ pa, s.addrOf 0 1 = some pa → pa / 64 + 0 ∈ ({ s with mem := { s.mem with poison := [4] } } : State).mem.poison) ∧
    ((chan fun x => { x with rebuild := some 0, starter := some ask }).chan 0).rebuild = some 0 ∧ s.mem.groupStarts = [] := by
  intros; (repeat' apply And.intro) <;> decide +kernel

/-! ### Witnesses: chapters 08 and 09 -/

def cx : Nat := cellNo 0x0D 0

/-- A read of nothing that the far side has acknowledged whole. -/
def noOp : DevOp :=
  { kind := 1, devOp := 0, seq := 1, count := 0, entries := [], whole := true, sent := true, due := false, here := 0,
    moved := 0, ended := none, excess := false }

/-- Context 0 of partition 0, running on channel processor 0, with a path over port 0 and a run as `f` and `g` make them. -/
def ctx0 (f : Ctx → Ctx) (g : Run → Run) : State :=
  ((((inSt .running [cellNo 0x0A 0, cx, cellNo 6 0] ram).modPort 0 fun p => { p with
    link := .up, cfg := { p.cfg with mode := 1 } }).modCtx 0 fun c =>
      f { c with owner := some 0, cfg := { c.cfg with pathCount := 1, pathMask := 1, paths := zeros 8 } }).modRun 0 g).modCopies
        fun c => { c with inService := true }

theorem witness_StartsAndStagingCommandsAreAnswered :
    let s := ctx0 id id
    let h := ctx0 (fun c => { c with op := .halted, queue := [⟨1, 0, 0⟩] }) id
    let m := { s with io := { s.io with mirror := some ⟨[1], 0, 1, 0, 0, 0, true, [], some ([1], []), []⟩ } }
    let k := s.modRing 0 fun x => { x with outbox := [
      { op := 0, tag := 0, status := 0, detail := 0, partition := 0, completion := true, checkOnly := false,
        results := [], entry := some 0 }] }
    (s.linked 0 = false ∧ In opStartIo cx (words [0x10000, 2 ^ 56]) k ∧ k.linked 0 = true ∧ k.freeEntry = some 0) ∧
    (In opStartIo cx (words [0x10000, 2 ^ 56]) s ∧ s.cst cx = .running ∧
      s.ownerHolds 0 0x10000 = true ∧ (s.ctx 0).op = .idle ∧ s.envelope 0 = none ∧ s.mirrorOf 0 = none ∧
      s.freeEntry = some 0) ∧
    (In opStartIo cx (words [0x10000, 2 ^ 56]) m ∧ m.ownerHolds 0 0x10000 = true ∧ m.mirrorOf 0 = some 1 ∧
      m.freeEntry = some 0) ∧
    (In opStartIo cx (words [0x10000, 0]) h ∧ (h.ctx 0).queue.length + h.startsWaiting 0 < 8 ∧ h.freeEntry = some 0) ∧
    (In opResume cx [] h ∧ h.cst cx ≠ .faulted ∧ (h.ctx 0).op = .halted) ∧
    (In opCancel cx [] h ∧ ((h.ctx 0).queue.map StartRef.entry).Nodup ∧ ∀ r ∈ (h.ctx 0).queue, h.isActive r.entry = false) ∧
    In opMove (cellNo 0x14 0) (words [0x20, 2 ^ 48 + 0xFF * 2 ^ 40]) s ∧
    In opStageSet (cellNo 6 0) (words [128 + 127 * 2 ^ 8 + 2 ^ 16]) s ∧
    (In opMoverSet (cellNo 0x16 0) (words [24]) s ∧ (s.reservedPorts s.io.bindings 0).length + 24 ≤ 32) ∧
    (In opDmaCapSet cellModule (words [128 + 64 * 2 ^ 16]) s ∧ 128 ≤ s.capMax ∧
      s.admission { s.plan with shares := [64, 64] } = none) := by
  intros; (repeat' apply And.intro) <;> first | exact admitted_of (by decide +kernel) | decide +kernel

/-- `ctx0` active at a program at 0x10000 whose first 8 bytes are given. -/
def running (b : Bytes) (g : Run → Run) : State :=
  (ctx0 (fun c => { c with op := .active }) fun r => g { r with next := 0x10000 }).rawWrite 0x10000 b

theorem witness_TransferProgramsGoOn :
    let s := running (zeros 8) id
    let at_ (b : Bytes) := ((running b id).ownerRead 0 0x10000 32).map fun r => entryFault r.1
    let d := running (zeros 8) fun r => { r with result := some (0, 0) }
    let o := running (zeros 8) fun r => { r with op := some noOp }
    let w := ctx0 (fun c => { c with op := .redrive }) fun r => { r with op := some noOp }
    ((ctx0 id id).ctx 0).op ≠ .active ∧
    ((s.ctx 0).op = .active ∧ s.served 0 = true ∧ (s.run 0).result = none ∧ (s.run 0).op = none ∧ (s.run 0).left = none ∧
      s.limits 0 = none ∧ (s.run 0).next % 32 = 0 ∧ (s.run 0).jumps < 16 ∧ AtOnce s [] (s.entryPieces 0) false ∧
      s.overPins ((s.entryPieces 0).foldl (fun t p => t.dmaRead p.1 p.2) s) = false ∧ s.entryPieces 0 ≠ [] ∧
      (((s.entryPieces 0).foldl (fun t p => t.dmaRead p.1 p.2) s).ownerRead 0 0x10000 32).isSome = true) ∧
    (((running (words [2 ^ 56]) fun r => { r with nop := true }).run 0).nop = true ∧ (s.run 0).nop = false ∧
      (s.run 0).crcs = []) ∧
    (at_ (words [0]) = some 0 ∧ at_ (words [6 * 2 ^ 56]) = some 1 ∧ at_ (words [2 ^ 56]) = some 0) ∧
    16 ≤ ((running (zeros 8) fun r => { r with jumps := 16 }).run 0).jumps ∧
    (s.readList 0 0 0 0).2.2 ≠ 2 ∧
    ((d.run 0).result = some (0, 0) ∧ (d.ctx 0).op = .active ∧ d.served 0 = true ∧ d.ioSettled 0 = true ∧
      (d.entry (d.ctx 0).cur.entry).ctx = 0 ∧ (d.entry (d.ctx 0).cur.entry).posting = 0) ∧
    ((o.run 0).op = some noOp ∧ (o.ctx 0).op = .active ∧ ((ctx0 id fun r => { r with op := some noOp }).ctx 0).op ≠ .active ∧
      (o.run 0).result = none ∧ (w.ctx 0).op = .redrive ∧ 0 < (o.ctx 0).cfg.pathCount) ∧
    ((w.run 0).op = some noOp ∧ w.nextPath 0 = some 0 ∧ (w.ctx 0).op = .redrive ∧ w.served 0 = true ∧
      w.usable 0 0 = true ∧ (w.ctx 0).pathPort 0 = 0 ∧ ((w.staging (w.ctx 0).port).inq.any fun q => q.ctx = 0) = false) ∧
    (s.cpDead 0 = false ∧ (inSt .faulted [cellNo 0x0A 0] s).cpDead 0 = true ∧
      0 ∈ (inSt .faulted [cellNo 0x0A 0] s).io.ctxs.map Prod.fst ∧
      (∃ k ∈ [1, 2, 3], (inSt .faulted [cellNo 0x0A 0] s).cpDead (Nat.xor 0 k) = false)) := by
  intros; (repeat' apply And.intro) <;> first | exact atOnce_of (by decide +kernel) | decide +kernel

/-- A MOVE under way, and I/O die 0 with movers as `f` makes them. -/
def move0 : MoveJob :=
  { id := 0, part := 0, die := 0, list := 0, segments := 1, seg := 0, off := 0, held := none, result := some (0, 0), who := ask }
def die0 (f : IoDie → IoDie) : State := { ((inSt .running [cellNo 0x0B 31] ram).modIoDie 0 f) with
  io := { ((inSt .running [cellNo 0x0B 31] ram).modIoDie 0 f).io with moves := [move0, { move0 with id := 1, result := none }] } }

theorem witness_MoversServeTheirRequests :
    let g := (die0 fun x => { x with requests := [.move 1], moveMax := 1 })
    let r := (die0 fun x => { x with serving := [(31, .drain 0)] })
    let t (n : Nat) := ram.modStaging 0 fun x => { x with tailAt := some n }
    (ram.grantNext 0 = none ∧ (g.grantNext 0).isSome = true) ∧
    (((ram.ioDie 0).serving.find? fun e => e.2 = .drain 0) = none ∧
      ((r.ioDie 0).serving.find? fun e => e.2 = .drain 0) = some (31, .drain 0) ∧
      tabFind (r.ioDie 0).serving 31 = some (.drain 0) ∧ r.drained 0 = true) ∧
    ((ram.staging 0).tailAt = none ∧ ((t 0).staging 0).tailAt = some 0 ∧ 0 ≤ (t 0).now ∧
      ((t 1).staging 0).tailAt = some 1 ∧ (t 1).now < 1) ∧
    (((ram.ioDie 0).serving.find? fun e => e.2 = .fill 0) = none ∧ (ram.staging 0).outq = []) ∧
    (ram.io.moves[0]? = none ∧ r.io.moves[0]? = some move0 ∧ r.io.moves[1]?.map MoveJob.result = some none) ∧
    tabFind (ram.ioDie 0).serving 31 = none ∧ (ram.ioDie 0).serving = [] ∧ ∀ x, (ram.run x).crcDue = false := by
  intros; (repeat' apply And.intro) <;> first | exact fun _ => rfl | decide +kernel

/-! ### Witnesses: chapters 09, 10 and 11 -/

/-- `ctx0` with journal entry 0 in a state, timed and due, of context 0. -/
def entry0 (state : Nat) : State :=
  ((ctx0 id id).modEntry 0 fun e => { e with state := state, timed := true, deadline := 40 }).modCopy 0 fun c =>
    { c with rebuilding := true, rebuildWho := some ask }

theorem witness_TheJournalKeepsEveryOutcome :
    let s := entry0 3
    let late := entry0 5
    let k : BundleCopy := { home := 7, first := 0, standby := 0, queue := 0, entries := [(1, { JEntry.free with state := 2 })],
                            resolving := [], unread := [], base := 2 ^ 25, waits := [] }
    let both := s.modCopy 1 fun c => { c with bad := [0] }
    let held := { ram with io := { ram.io with copyOf := some k } }
    let m : Mirror := { partner := [1], first := 0, count := 1, standby := 0, queue := 0, gib := 0, on := false, who := [ask], sent := none, held := [] }
    let gone : Bundle := { ram.bundle with
      cfg := some (words [0, 0, 0, 0, 7] ++ zeros 200), members := [(1, { (ram.member 1) with failed := true })] }
    let mir (m : Mirror) : State := { ram with io := { ram.io with mirror := some m } }
    ((s.entry 0).timed = true ∧ (s.entry 0).state = 3 ∧ (s.entry 0).deadline ≤ s.now + 40 ∧ s.hasEnded 0 = false ∧
      s.awaitsCopy 0 = false ∧ (ram.entry 0).timed = false) ∧
    ((late.entry 0).state = 5 ∧ (late.entry 0).lateTick ≤ late.now ∧ late.hasEnded 0 = false ∧ late.ctxCp 0 < 4) ∧
    (both.copyServes 1 && !(both.copy 1).bad.contains 0) = false ∧
    (ram.copyServes 1 = true ∧ (ram.copy 1).bad = [] ∧ (inSt .faulted [cellNo 0x12 2] ram).copyServes 1 = false) ∧
    ((s.copy 0).rebuilding = true ∧ (ram.copy 0).rebuilding = false) ∧
    (In opJournalRead cellJournal (words [0]) s ∧ s.entryAtCell cellJournal 0 = true) ∧
    (In opJournalRead cellJournal (words [2 ^ 32 + 1]) held ∧ held.io.copyOf = some k ∧ k.waits = [] ∧
      AtOnce held [] [(k.entryAddr 1, 32)] false ∧ held.overPins (held.dmaRead (k.entryAddr 1) 32) = false) ∧
    (In opLateAck cellJournal (words [0]) (entry0 6) ∧ ((entry0 6).entry 0).state = 6) ∧
    In opJournalList cellJournal (words [2 ^ 20 - 1 + 255 * 2 ^ 32]) ram ∧
    (In opJournalMirror cellJournal (words [1 * 2 ^ 56 + 2 ^ 48, 0, 1, 0]) ram ∧ ram.io.mirror = none ∧
      In opJournalMirror cellJournal (zeros 32) (mir m)) ∧
    ((mir m).io.mirror = some m ∧ m.who ≠ [] ∧ m.partner ≠ [] ∧ (mir m).bundle.bstate ≠ .fenced ∧ ((mir m).member 1).fence = 0 ∧
      (mir m).mirrorHeld m = false ∧ (mir { m with sent := some ([1], []) }).mirrorHeld { m with sent := some ([1], []) } = true ∧
      (mir { m with sent := some ([1], []), on := true }).mirrorRuns { m with sent := some ([1], []), on := true } = true ∧
      m.partner = 1 :: []) ∧
    ({ (mir m) with bundle := { ram.bundle with bstate := .fenced } }).bundle.bstate = .fenced ∧
    (mir { m with partner := [] }).io.mirror = some { m with partner := [] } ∧
    (({ JEntry.free with state := 1 } : JEntry).bytes.take 24 ≠ zeros 24 ∧
      (entryOf (words [0x9122000500000001, 7 * 2 ^ 32, 2 ^ 48, 5 * 2 ^ 32])).bytes = words [0x9122000500000001, 7 * 2 ^ 32, 2 ^ 48, 5 * 2 ^ 32]) ∧
    (ram.io.copyOf = none ∧ k.resolving = [] ∧ (k.entries.map Prod.fst).Nodup ∧ ({ held with bundle := { gone with members := [] } } : State).homeFailed 7 = false ∧ k.waits = [] ∧
      ({ held with bundle := gone } : State).homeFailed 7 = true ∧ k.home = 7) := by
  intros; (repeat' apply And.intro) <;>
    first | exact admitted_of (by decide +kernel) | exact atOnce_of (by decide +kernel) | decide +kernel

theorem witness_DeadlineClassesBindContexts :
    let s := ram.modCtx 0 fun c => { c with owner := some 0 }
    let b : Binding := { cls := 0, ctxs := [0], hold := true, ranges := [(0, 256)], held := [] }
    let bind := words [1, 2 ^ 56 + 2 ^ 48, 0, 256, 0, 0, 0, 0, 0, 0]
    (In opBind (cellNo 0x0E 0) bind s ∧ ctxRange 0 1 = some [0] ∧ allZero (slice bind 10 6) = true ∧
      allZero (slice bind 32 48) = true ∧ (s.ctx 0).owner ≠ none ∧ s.cst (cellNo 0x0D 0) = .stopped ∧
      (s.ctx 0).clsValid = false ∧ (s.declared 0 0 256).isSome = true ∧
      s.admission { s.plan with binds := s.io.bindings ++ [{ b with held := s.bindHolds b }] } = none ∧
      ∀ k ∈ s.bindHolds b, (s.cell k).bindHold < 65535) ∧
    (In opUnbind (cellNo 0x0E 0) (words [1, 0, 0, 0, 0, 0, 0, 0, 0, 0]) s ∧
      allZero (slice (words [1, 0, 0, 0, 0, 0, 0, 0, 0, 0]) 10 6) = true) := by
  intros; (repeat' apply And.intro) <;> first | exact admitted_of (by decide +kernel) | decide +kernel

/-- Queue 0 running with room for one item, as `f` makes it, and a source of `src` with one event for it. -/
def queue0 (src : Nat) (f : Queue → Queue) : State :=
  ((inSt .running [qu] ram).modQueue 0 fun x => f { x with
    owner := some 0, cfg := { x.cfg with capacity := 1 } }).modSource src fun x => { x with
      enable := true, owner := some 0, backlog := [{ payload := 0, queue := 0, prio := 0, entry := none }] }

/-- An item of priority 7. -/
def item : QItem := { word := 7 * 2 ^ 60, ord := 0, entry := none }

theorem witness_PopOfAnEmptyQueueReturnsZero :
    let split := host.modPair 0 fun p => { p with mode := 1 }
    let s := host.modPair 0 fun p => { p with opened := { p.opened with count := 1 } }
    (host.queue 1023).items = [] ∧ host.leads 0 = true ∧ (split.isSplit 0 = true ∧ split.leads 0 = true) ∧
    (host.isSplit 0 = false ∧ host.popWaits 1023 0 = false ∧ (host.pair 0).opened.isEmpty = true) ∧
    (s.isSplit 0 = false ∧ s.popWaits 1023 0 = false ∧ (s.pair 0).opened.isEmpty = false) := by
  intros; (repeat' apply And.intro) <;> decide +kernel

theorem queuePop_next (q : Fin 1024) (c : CoreId) (s : State) : ∃ r, exec (.queuePop q c) s = .next r := by
  simp only [exec, execQueuePop]
  repeat' split
  all_goals exact ⟨_, rfl⟩

theorem witness_PeekReturnsWhatAPopWould :
    let s := queue0 0x940 fun x => { x with items := [item] }
    (∃ r, exec (.queuePop 0 0) s = .next r) ∧ s.leads 0 = true ∧ s.popWaits 0 0 = false ∧ (ram.queue 0).items = [] :=
  ⟨queuePop_next _ _ _, by decide +kernel, by decide +kernel, by decide +kernel⟩

theorem witness_PopsTakeTheFirstItem :
    let s := queue0 0x940 fun x => { x with items := [item] }
    let split := s.modPair 0 fun p => { p with mode := 1 }
    let full := s.modQueue 0 fun x => { x with pend := List.replicate 8 (0, item) }
    (ram.serves 1023 = false ∧ ram.leads 104 = true ∧ ram.isSplit (pairOfCore 104) = false ∧
      split.serves 1023 = false ∧ split.leads 0 = true) ∧ s.leads 1 = false ∧
    (s.serves 0 = true ∧ s.leads 0 = true ∧ item ∈ (s.queue 0).items ∧ item.word ≠ 0 ∧
      (∀ j ∈ (s.queue 0).items, j = item ∨ j.prio < item.prio ∨ j.prio = item.prio ∧ item.ord < j.ord) ∧
      ∀ j ∈ (s.queue 0).items, j.ord < 2 ^ 64) ∧
    split.isSplit 0 = true ∧ (s.isSplit 0 = false ∧ (s.pair 0).closed = [] ∧ (s.pair 0).opened.pop = none ∧
      (s.queue 0).pend.length < 8) ∧ 8 ≤ (full.queue 0).pend.length := by
  intros; (repeat' apply And.intro) <;> decide +kernel

theorem witness_EventsEnterTheirQueues :
    let s := queue0 0x940 id
    let full := queue0 0x940 fun x => { x with items := [item], staleAt := some 0 }
    let i : SrcItem := { payload := 0, queue := 0, prio := 0, entry := none }
    let busy := s.modSource 0x941 fun x => { x with
      enable := true, owner := some 0, backlog := [i], fullAt := [(0, 0)] }
    let lost := busy.modSource 0x940 fun x => { x with lostAt := [(0, 0)] }
    let due := s.modQueue 0 fun x => { x with items := [item], expiring := true }
    (ram.source 0x9FF).backlog = [] ∧ (s.heads 0x940 = [i] ∧ ram.canPush 0x940 i = false) ∧
    (full.heads 0x940 = [i] ∧ full.canPush 0x940 i = true ∧ (full.queue 0).cfg.capacity ≤ (full.queue 0).count ∧
      tabFind (full.source 0x940).fullAt 0 = none ∧
      tabFind ((full.modSource 0x940 fun x => { x with fullAt := [(0, 0)] }).source 0x940).fullAt 0 ≠ none) ∧
    (s.canPush 0x940 i = true ∧ (s.route 0x940 i).1 = 0 ∧ (s.queue 0).count < (s.queue 0).cfg.capacity ∧
      s.waitsBefore 0 0x940 = false ∧ ((s.waitsHere 0x940).itemPayload 0x940 i).1 = some 0) ∧
    (busy.heads 0x940 = [i] ∧ busy.canPush 0x940 i = true ∧ busy.waitsBefore 0 0x940 = true ∧
      (busy.queue 0).count < (busy.queue 0).cfg.capacity ∧ tabFind (busy.source 0x940).fullAt 0 = none ∧
      tabFind (busy.source 0x940).lostAt 0 = none ∧ lost.waitsBefore 0 0x940 = true ∧
      tabFind (lost.source 0x940).lostAt 0 ≠ none) ∧
    ((due.queue 0).expiring = true ∧ (due.queue 0).heldExpiry = false ∧ (due.queue 0).rose = false ∧
      (due.queue 0).items ≠ [] ∧ ((due.modQueue 0 fun x => { x with items := [] }).queue 0).expiring = true) ∧
    ((ram.queue 0).staleAt = none ∧ (full.queue 0).staleAt = some 0 ∧ 0 ≤ full.now ∧ (full.queue 0).items ≠ []) ∧
    (((queue0 0x940 fun x => { x with staleAt := some 0 }).queue 0).staleAt = some 0 ∧
      ((queue0 0x940 fun x => { x with staleAt := some 0 }).queue 0).items = []) := by
  intros; (repeat' apply And.intro) <;> decide +kernel

theorem witness_TimersAndQueueCommands :
    let t (p : Nat) := { (ram.modTimer 0 fun x => { x with compare := 10, period := p }) with
      clock := { ram.clock with tb := 1010 } }
    let q := queue0 0x940 id
    ((ram.modTimer 0 fun x => { x with next := some (10, 1000) }).timer 0).next = some (10, 1000) ∧
    ((ram.timer 0).compare = 0 ∧ ((t 1000).timer 0).compare ≠ 0 ∧
      ((t 1000).timer 0).compare.toNat ≤ (t 1000).clock.tb.toNat ∧ ((t 0).timer 0).period = 0 ∧
      0 < ((t 1000).timer 0).period ∧ (t 1000).clock.tb.toNat < 10 + 2 * 1000 ∧ 10 + 1 * 1000 ≤ (t 1000).clock.tb.toNat) ∧
    (In opRouteSet cellModule (words [0x940 + 7 * 2 ^ 28 + 2 ^ 32]) q ∧ sourceExists 0x940 = true ∧
      (q.queue 0).owner = some (q.sourcePart 0x940)) ∧
    (In opQueueTune qu (words [1 + 0xFFFF * 2 ^ 16 + 2 ^ 32]) q ∧ 1 ≤ (q.queue 0).cfg.capacity) ∧
    In opTimerSet tm (words [10, 1000]) ram ∧
    (In opSourceQuery cellModule (words [0x940]) q ∧ sourceExists 0x940 = true) := by
  intros; (repeat' apply And.intro) <;> first | exact admitted_of (by decide +kernel) | decide +kernel

/-- The parameters that name resources (R480). -/
def share (kind first count a b : Nat) : Bytes := words [kind * 2 ^ 56 + first, count * 2 ^ 32 + a * 2 ^ 16 + b]

theorem witness_PartitionsHoldWhatTheyAreGiven :
    let n := cellNo 0x14 0
    let pk (k : Nat) (b : Bytes) : Share := (Req.mk (pkt n b) n k).share
    let free := { ram with parts := { ram.parts with owner := [], parts := [] } }
    let q := queue0 0x940 fun x => { x with items := [item] }
    let stop := inSt .stopped [qu] (queue0 0x941 id)
    let j : ShareJob := { kind := 5, first := 0, count := 1, value := 0, part := 0, who := ask }
    let job (s : State) := { s with parts := { s.parts with shareJobs := [j] } }
    let ps : ProcShare := { core := 0, part := 0, num := 0, whole := true }
    let sh := { host with parts := { host.parts with procs := [ps] } }
    (In opAssign n (share 3 0 1 0 0) free ∧ free.rangeKnown (pk 0x0800 (share 3 0 1 0 0)) = true ∧
      (pk 0x0800 (share 3 0 1 0 0)).extrasOk = true ∧ free.assignFault 0 (pk 0x0800 (share 3 0 1 0 0)) = none) ∧
    (In opAssign n (share 9 7 1 255 1024) ram ∧ ram.rangeKnown (pk 0x0800 (share 9 7 1 255 1024)) = true ∧
      (pk 0x0800 (share 9 7 1 255 1024)).extrasOk = true ∧
      ram.assignFault 0 (pk 0x0800 (share 9 7 1 255 1024)) = none) ∧
    (In opRevoke n (share 3 0 1 0 0) ram ∧ ram.revokeFault 0 (pk 0x0801 (share 3 0 1 0 0)) = none) ∧
    (In opRevoke n (share 5 0 1 0 0) stop ∧ stop.revokeFault 0 (pk 0x0801 (share 5 0 1 0 0)) = none) ∧
    (((memJob (.assign 0 true [1] ask) Tier.reset).takeMemJob 0).map Prod.fst = some (.assign 0 true [1] ask) ∧
      NoneAsleep (memJob (.assign 0 true [1] ask) Tier.reset) (.assign 0 true [1] ask)) ∧
    (In opShareSet n (share 5 0 1 256 0) q ∧ q.rangeKnown (pk 0x0802 (share 5 0 1 256 0)) = true ∧
      0 ∈ q.holders 5 0 ∧ q.fits 5 0 256 0 = true) ∧
    (takeAt ram.parts.shareJobs 0 = none ∧ takeAt (job q).parts.shareJobs 0 = some (j, []) ∧ (job q).fits 5 0 0 0 = false ∧
      (job ram).fits 5 0 0 0 = true) ∧
    (ps ∈ sh.parts.procs ∧ sh.leads 0 = true ∧ (sh.core 0).wait = .none) := by
  intros; (repeat' apply And.intro) <;> first | exact admitted_of (by decide +kernel) | (unfold NoneAsleep; decide +kernel) | decide +kernel

/-! ### Witnesses: chapters 12, 13 and 14 -/

/-- A request for 16 random bytes at 0x10000, and one queued. -/
def random16 : Bytes := words [0, 16, 0x10000, 0, 0x300, 0, 0, 0]
def req (op : BitVec 16) : EngReq := { part := 0, op := op, block := random16, armed := false, who := ask }

/-- Cryptography engine 0 running, held by partition 0, as `f` makes it. -/
def crypto (f : Engine → Engine) : State :=
  let s := (inSt .running [cellNo 8 0] ram).modEngine 4 f
  { s with parts := { s.parts with engines := [⟨4, 0, 1, 1⟩] } }

theorem witness_EnginesServeTheirRequests :
    let s := crypto id
    let k := blkOf random16
    let q := crypto fun e => { e with entropyDead := true, queue := [req 0x0915] }
    (engineCommand (.random (pkt (cellNo 8 0) random16)) = some (0x0915, 8, pkt (cellNo 8 0) random16) ∧
      s.engineShare 4 0 = some ⟨4, 0, 1, 1⟩ ∧ allZero (slice random16 39 1) = true ∧ allZero (slice random16 56 8) = true ∧
      numAt random16 38 1 < 8 ∧ k.area % 256 = 0 ∧ streams 0x0915 = false ∧ k.slotOk = true ∧ k.modeOk 0x0915 = true ∧
      k.lensOk 0x0915 = true ∧ k.overlaps 0x0915 = false ∧ s.cst (cellNo 8 0) = .running ∧ s.engineLoad 4 0 < 1 ∧
      k.keyTypes 0x0915 = none) ∧
    Admitted (engineOp 0x0915 8) (pkt (cellNo 8 0) random16) (cellNo 8 0) s ∧
    (ram.cst (engineCell 0) ≠ .running ∧ ram.cst (engineCell 0) ≠ .draining) ∧
    (q.cst (engineCell 4) = .running ∧ q.pins.thermtrip = false ∧ (q.nextRequest 4).1 = some (req 0x0915) ∧
      ∀ n, (q.port n).msiWaits = []) := by
  intros; (repeat' apply And.intro) <;> first | exact admitted_of (by decide +kernel) | exact fun _ => rfl | decide +kernel

/-- A frame of virtual channel 0 with a SEQ and a payload, and one that names the membership. -/
def frame (seq : BitVec 32) (payload : Bytes) : Frame :=
  { vcx := false, vc := 0, timed := false, resume := false, resync := false, destLen := 0, seq := seq, dest := [], ack := 0,
    credit := 0, payload := payload }
def toUs (payload : Bytes) : Frame := { frame 1 payload with destLen := 1, dest := [0x80] }

/-- A read in progress of context 0 over port 0, of one entry, with its receive point at 1. -/
def readOp : DevOp :=
  { noOp with
    seq := 0
    count := 8
    entries := [{ addr := 0, index := 0, count := 0, tolerant := false, last := true, crcStore := false,
                  crc64 := false, crcPa := 0, elems := [], stop := 0, seen := [] }] }
def reading : State :=
  { (ctx0 (fun c => { c with op := .active }) fun r => { r with op := some readOp }) with
    io := { (ctx0 (fun c => { c with op := .active }) fun r => { r with op := some readOp }).io with
      convs := [(0, { Conv.reset with rx := some 1 })] } }

/-- A sequenced frame of context 0 that has not been acknowledged, sent `n` times on port 0. -/
def sentOnce (n : Nat) : State :=
  { (ctx0 id id) with
    clock := { ram.clock with ticks := 200 }
    io := { (ctx0 id id).io with convs := [(0, { Conv.reset with unacked := [⟨.op, frame 1 [], 0, n⟩] })] } }

/-- The module at a bundle port 0 that is UP, in a bundle of three members of which it is the first, with a conversation
of its partner's as `f` makes it. -/
def bundled (f : PartnerConv → PartnerConv) : State :=
  let s := (inSt .running [cellMembership] ram).modPort 0 fun p => { p with
    link := .up, cfg := { p.cfg with mode := 1, bundle := true }
    peer := some { version := 1, bundle := true, isModule := true, credits := 0, identity := 9 } }
  let c := (words [0, 3 * 2 ^ 56 + 0xFF * 2 ^ 48 + 2 ^ 32, 0, 0, 7, 8] ++ zeros 144)
  { s with
    clock := { s.clock with ticks := 200 }
    bundle := { s.bundle with cfg := some c, bstate := .member, members :=
      [(0, { Member.reset with admitted := true, manifest := some (zeros 80) }), (1, { Member.reset with admitted := true, lastHeard := 200 }),
        (2, { Member.reset with admitted := true })] }
    io := { s.io with partners := [f { (PartnerConv.fresh 9 0 0) with latest := some 5, high := 5, open_ := true, count := 8, rx := 1 }] } }

theorem witness_FramesFollowTheReceivePoint :
    let p := (bundled id).partner 9 0
    let k : BundleCopy := { home := 7, first := 0, standby := 0, queue := 0, entries := [(1, { JEntry.free with state := 2 })],
                            resolving := [1], unread := [], base := 2 ^ 25, waits := [] }
    let r := { reading with io := { reading.io with copyOf := some k } }
    let f7 := frame 1 (words [7, 0, 0])
    let fresh := { (bundled id) with io := { ram.io with ports := (bundled id).io.ports } }
    let sync := { reading with io := { reading.io with convs := [(0, { Conv.reset with syncPort := some 0 })] } }
    (frameOf (.op 0 (frame 1 [])) = some (0, frame 1 []) ∧ ram.isUp 0 = false ∧ reading.isUp 0 = true ∧
      toMembership (frame 1 []) = false) ∧
    (reading.partnerFor 0 (frame 1 []) = none ∧ (reading.conv 0).unacked = [] ∧ reading.opFor 0 (frame 1 []) = some readOp ∧
      (frame 1 []).seq = (reading.conv 0).rx.getD 1 ∧ (reading.conv 0).rx = some 1 ∧ 1 ≠ (frame 2 []).seq ∧
      (frame 1 [7]).payload ≠ [] ∧ readOp.here + (frame 1 [7]).payload.length ≤ readOp.count ∧ readOp.kind = 1) ∧
    ((reading.run 0).result = none ∧ ((reading.staging 0).inq.any fun c => c.ctx = 0) = false ∧
      ([0x80] : Bytes)[0]!.getLsbD 7 = true) ∧
    (((ctx0 id id).run 0).op = none ∧ ∀ q, ((ctx0 id id).staging q).outq = []) ∧
    (((sentOnce 1).ctx 0).port = 0 ∧ (sentOnce 1).io.partners = [] ∧
      (sentOnce 1).conv 0 = { Conv.reset with unacked := [⟨.op, frame 1 [], 0, 1⟩] } ∧ above 1 (frame 1 []).ack = true ∧
      (sentOnce 1).resentNow ⟨.op, frame 1 [], 0, 1⟩ = false ∧ (sentOnce 1).resentNow ⟨.op, frame 1 [], 200, 2⟩ = true ∧
      1 ≤ ((sentOnce 1).port 0).cfg.retryMax ∧ ((sentOnce 1).port 0).cfg.retryMax < 8) ∧
    (((sentOnce 1).conv 0).syncPort = none ∧ 0 + ((sentOnce 1).port 0).cfg.rto ≤ (sentOnce 1).now ∧
      ram.now < 0 + (ram.port 0).cfg.rto) ∧
    (ram.io.partners[0]? = none ∧ (bundled id).io.partners[0]?.map (fun c => (c.syncing, c.unacked)) = some (none, []) ∧
      (bundled fun c => { c with unacked := [⟨.op, frame 1 [], 0, 1⟩] }).io.partners[0]?.map (fun c => (c.port, c.unacked)) =
        some (0, [⟨.op, frame 1 [], 0, 1⟩]) ∧ 0 + ((bundled id).port 0).cfg.rto ≤ (bundled id).now) ∧
    (reading.resolvedEntry f7 = none ∧ r.resolvedEntry f7 = some 1 ∧ r.isUp 0 = true) ∧
    ((reading.conv 0).syncPort ≠ some 0 ∧ (sync.conv 0).syncPort = some 0 ∧ sync.isUp 0 = true) ∧
    ((bundled id).isUp 0 = true ∧ (bundled id).bundlePort 0 = true ∧ toMembership (toUs []) = true) ∧
    (p.map (·.open_) = some true ∧ p.bind PartnerConv.latest = some 5 ∧
      above 6 5 = true ∧ above 1 5 = false ∧ (fresh.partner 9 0).isNone = true ∧ numAt (words [2 * 2 ^ 32 + 8]) 2 1 ≠ 1 ∧
      numAt (words [2 * 2 ^ 40 + 8]) 4 4 ≠ 0) ∧
    (((bundled fun c => { c with open_ := false }).partner 9 0).map (fun c => (c.latest, c.open_)) = some (some 5, false) ∧
      BitVec.ofNat 32 (numAt (words [9, 5]) 12 4) = 5#32) ∧
    (((bundled id).partnerFor 0 (frame 1 [0, 0, 0, 5])).map (fun c => (c.rx, c.latest, c.received.length, c.count)) =
      some (1, some (BitVec.ofNat 32 (numAt [0, 0, 0, 5] 0 4)), 0, 8) ∧ ((bundled id).conv 0).unacked = []) ∧
    (reading.lineFor 0 (frame 1 []) = none ∧ reading.partner (reading.originOf 0) 0 = none ∧
      ((bundled fun c => { c with out := some ⟨[], 0, true, false, 0⟩ }).lineFor 0 (frame 1 [])).map (·.rx) = some 1) := by
  intros; (repeat' apply And.intro) <;> first | exact fun _ => rfl | decide +kernel

/-- Port 0 as `f` makes it, in a tick. -/
def port0 (tick : Nat) (f : Port → Port) : State :=
  { ((inSt .running [cellNo 6 0] ram).modPort 0 f) with clock := { ram.clock with ticks := tick } }
def linked (l : Link) (tick : Nat) : State := port0 tick fun p => { p with link := l }

theorem witness_PortsFollowTheirLinks :
    let pc := cellNo 6 0
    let eth := port0 0 fun p => { p with link := .up, ethSends := [⟨0, 0, 60, 0, ask⟩], cfg := { p.cfg with mode := 2, maxFrame := 64 } }
    let root := port0 0 fun p => { p with link := .up, cfg := { p.cfg with mode := 4 } }
    let w := root.modPort 0 fun p => { p with msiWaits := [(2016, 0xFFFFFFFF, ask)] }
    let still := ram.modPort 0 fun p => { p with link := .up, cfg := { p.cfg with mode := 1 } }
    let rich := eth.modIoDie 0 fun x => { x with tokens := 128 }
    (ram.port 0).link ≠ .init ∧ ((linked .init 0).port 0).link = .init ∧
    (((linked .training 0).port 0).link = .training ∧ (linked .training 0).now < 0 + 10000000 ∧
      0 + 10000000 ≤ (linked .training 10000000).now) ∧
    (((port0 1000000 fun p => { p with retrain := true }).port 0).retrain = true ∧
      0 + 1000000 ≤ (port0 1000000 fun p => { p with retrain := true }).now) ∧
    (((linked .align 100000).port 0).link = .align ∧ ((linked .align 100000).port 0).fromQuiet = false ∧
      0 + 100000 ≤ (linked .align 100000).now ∧
      ((port0 0 fun p => { p with link := .align, fromQuiet := true }).port 0).fromQuiet = true ∧
      ((linked .align 100000).staging 0).outq = [] ∧ (List.replicate 3 alignBlock).filter (· == alignBlock) = List.replicate 3 alignBlock) ∧
    (ram.isUp 0 = false ∧ (linked .up 10000).isUp 0 = true ∧ 0 + 10000 ≤ (linked .up 10000).now ∧
      (linked .up 0).now < 0 + 10000) ∧
    ((linked .quiet 0).port 0).link = .quiet ∧
    ((linked .up 0).laneIdle 0 = true ∧ ((linked .up 0).port 0).quietAsked = false ∧ (linked .up 0).now < 0 + 1000 ∧
      0 + 1000 ≤ (linked .up 1000).now ∧ ((port0 0 fun p => { p with link := .up, quietAsked := true }).port 0).quietAsked = true ∧
      reading.laneIdle 0 = false) ∧
    (2 ≤ (eth.port 0).cfg.mode ∧ eth.cst pc = .running ∧ eth.isUp 0 = true ∧ (ram.port 0).cfg.mode < 2 ∧ rich.isUp 0 = true) ∧
    (In opEthSend pc (words [0, 60 * 2 ^ 32 + 7 * 2 ^ 24]) eth ∧ 60 + 4 ≤ (eth.port 0).cfg.maxFrame ∧ eth.portRefuses pc = 0 ∧
      root.portRefuses pc = 0) ∧
    (In opEthRecv pc (words [0, 64 * 2 ^ 32]) eth ∧ (eth.port 0).cfg.owner = 0) ∧
    ((ram.port 0).ethSends = [] ∧ ((eth.port 0).ethSends.find? fun x => !eth.heldBack 0 x.prio) = some ⟨0, 0, 60, 0, ask⟩ ∧
      (eth.modPort 0 fun p => { p with paused := [(0, 5)] }).heldBack 0 0 = true ∧
      ({ eth with parts := State.reset.parts }).moveRange 0 0 60 .read = none ∧
      (∃ v, eth.moveRange 0 0 60 .read = some v ∧ AtOnce v.2 [] v.1 false ∧ v.2.spend 0 (pieceLines v.1) = none) ∧
      ∃ v w, rich.moveRange 0 0 60 .read = some v ∧ AtOnce v.2 [] v.1 false ∧ v.2.spend 0 (pieceLines v.1) = some w ∧
        w.piecesPoisoned v.1 = false ∧ (w.ioDie 0).busErr = [] ∧ v.2.overPins (w.readPieces v.1).2 = false) ∧
    ((zeros 60).take 60 = zeros 60 ∧ (eth.staging 0).inFill + 60 ≤ 32768 ∧ numAt (zeros 60) 12 2 ≠ 0x8808 ∧
      leBytes 4 (crc32 (zeros 60)) ≠ zeros 4) ∧
    ((ram.port 0).cfg.mode ≠ 4 ∧ (root.port 0).cfg.mode = 4 ∧ (root.port 0).msiWaits = [] ∧
      (w.port 0).msiWaits = [(2016, 0xFFFFFFFF, ask)] ∧ msiHits (insertNat (w.port 0).msi 2047) 2016 0xFFFFFFFF ≠ 0) ∧
    (In opMsiWait pc (words [2016 + 0xFFFFFFFF * 2 ^ 32]) root ∧ (root.port 0).cfg.owner = 0) ∧
    (root.isUp 0 = true ∧ (root.moveRange 0 0 4 .write).isSome = true ∧
      ({ root with parts := State.reset.parts }).moveRange 0 0 4 .write = none) ∧
    (In opLoopTest (cellNo 4 0) (words [5 * 2 ^ 56, 10000000]) ram ∧ ram.cst (cellNo 4 0) = .stopped ∧ ram.io.loops = [] ∧ ram.step5Begun = false) ∧
    (In opLoopTest pc (words [4 * 2 ^ 56, 1]) still ∧ still.cst pc = .stopped ∧ (still.port 0).cfg.mode = 1 ∧ still.isUp 0 = true ∧
      still.io.loops = []) ∧
    ((({ ram with io := { ram.io with loops := [(pc, ask)] } } : State).io.loops.find? fun l => l.1 = pc) = some (pc, ask)) := by
  intros; refine ⟨?_, ?_, ?_, ?_, ?_, ?_, ?_, ?_, ?_, ?_, ?_, ⟨?_, ?_, ?_, ?_, ?_, ?_⟩, ?_, ?_, ?_, ?_, ?_, ?_, ?_⟩
  case refine_16 => exact ⟨_, (Option.some_get (by decide +kernel)).symm, atOnce_of (by decide +kernel), by decide +kernel⟩
  case refine_17 =>
    exact ⟨_, _, (Option.some_get (by decide +kernel)).symm, atOnce_of (by decide +kernel), (Option.some_get (by decide +kernel)).symm,
      by decide +kernel, by decide +kernel, by decide +kernel⟩
  all_goals (repeat' apply And.intro) <;>
    first | exact admitted_of (by decide +kernel) | exact atOnce_of (by decide +kernel) | decide +kernel

theorem witness_TheMembershipFollowsItsManifests :
    let s := bundled id
    let m := cellMembership
    let sent := { s with bundle := { s.bundle with sentManifest := some (s.ownManifest, 200) } }
    let out := s.modMember 1 fun x => { x with admitted := false }
    let lone := (s.modMember 1 fun x => { x with lastHeard := 0 })
    let b := wordBytes 7 ++ zeros 72
    let waits (l : List Nat) (n : Nat) : State :=
      { s with bundle := { s.bundle with sends := [⟨0x0B00, pkt m [], 1022, [], 0, l, n⟩] } }
    let queued : State := { s with io := { s.io with partners := [] }, bundle := { s.bundle with outbound := [(1, b)] } }
    ram.inBundle = false ∧ (s.inBundle = true ∧ s.bundle.sentManifest = none) ∧
    (sent.bundle.sentManifest = some (s.ownManifest, 200) ∧ manFixed s.ownManifest = manFixed sent.ownManifest ∧
      sent.now < 200 + cfgLiveness sent.bundleCfg) ∧
    (b.length = 80 ∧ 1 < cfgMembers s.bundleCfg ∧ 1 ≠ s.bundle.index ∧ wordAt b 0 = cfgMember s.bundleCfg 1) ∧
    (out.admittedMembers ≠ [] ∧ (out.member 0).admitted = true ∧ (out.member 2).admitted = true ∧ (out.member 1).failed = false ∧
      (match (out.modMember 1 fun x => { x with manifest := some b, lastHeard := out.now }).verdict 1 b with
        | .admission _ => true | _ => false) = true) ∧
    ((s.member s.bundle.index).admitted = true ∧ s.vixia.up = true ∧ s.bundle.coordinator = false) ∧
    (2 ∈ s.admittedMembers ∧ s.heardLately 2 = false ∧ s.hasQuorum = true ∧ cfgMembers s.bundleCfg ≤ 16) ∧
    lone.hasQuorum = false ∧
    (In opEventSend m (words [7 + 3 * 2 ^ 16 + 0xFFFFFFFF * 2 ^ 32]) s ∧ s.bundle.bstate ≠ .standalone ∧
      s.bundle.bstate ≠ .fenced ∧ ((List.range 16).filter fun m => (7).testBit m && m != s.bundle.index) = [1, 2] ∧
      ∀ k, k < 3 → k ∈ s.admittedMembers ∧ (s.member k).fence = 0) ∧
    ((waits [1] 3).eventOpen 1 = true ∧ (waits [] 0).bundle.sends = [⟨0x0B00, pkt m [], 1022, [], 0, [], 0⟩]) ∧
    (queued.bundle.transit = [] ∧ queued.bundle.outbound = [(1, b)] ∧ queued.io.partners = [] ∧
      queued.bundlePort 0 = true ∧ (List.range 256).all (fun q => q = 0 || !queued.bundlePort q) = true) ∧
    (In opUnfence m (words [2]) s ∧ In opManifestRead m (words [2]) s ∧ 2 < cfgMembers s.bundleCfg ∧
      ((s.member 2).manifest.getD (zeros 80)).length = 80) := by
  intros; (repeat' apply And.intro) <;> first | decide +kernel | rfl | exact admitted_of (by decide +kernel)

/-! ### Witnesses: chapters 15, 16 and 17 -/

/-- Reporter 0x070 (compression engine 0, level 0) as `f` makes it, 2 ticks after reset. -/
def rep (f : Reporter → Reporter) : State :=
  { (awake.modRep 0x070 f) with clock := { awake.clock with ticks := 1000 } }

theorem witness_FaultsAreRecordedAndReacted :
    let s := rep fun x => { x with fault := true }
    let b := rep fun x => { x with fault := true, broken := true }
    let y (n : Nat) := rep fun x => { x with fault := true, sampled := some n }
    let x : Reaction := { level := 3, reporter := 0x070, escBefore := 0, broken := false, escalated := true, targets := [0],
                          procStop := false, cell := cellNo 7 0 }
    let r := { awake with tansy := { awake.tansy with reactions := [x] } }
    (reporterListed 0x1FF = false ∧ State.reset.cst cellTansy ≠ .running) ∧
    (reporterListed 0x070 = true ∧ s.cst cellTansy = .running ∧ s.blockLost 0 = false ∧ (s.rep 0x070).broken = false ∧
      (s.rep 0x070).fault = true ∧ reporterInternal 0x070 = false ∧ (s.rep 0x070).sampled = none) ∧
    ((y 998).now = 998 + 2 ∧ (y 999).now = 999 + 1 ∧ (y 1000).now = 1000 ∧ ((y 1000).rep 0x070).stopped = [] ∧
      ((y 1000).rep 0x070).sampled = some 1000 ∧ ((y 1000).rep 0x070).fault = true) ∧
    ((b.rep 0x070).sampled = none ∧ (b.rep 0x070).broken = true ∧ (b.rep 0x070).fault = true ∧ b.blockLost 0 = false ∧ (b.rep 0x070).idle + 1000 ≤ b.now) ∧
    ((s.rep 0x070).badAt = none ∧ ((rep fun x => { x with badAt := some 999 }).rep 0x070).badAt = some 999 ∧
      999 + 1 = (rep fun x => { x with badAt := some 999 }).now) ∧
    ((⟨reporterOf (cellNo 3 0) 0, by decide⟩ : RepId).val = reporterOf (cellNo 3 0) 0 ∧
      reporterListed (reporterOf (cellNo 3 0) 0) = true ∧ homeSlice (256 * 0) = 0 ∧ isSensor 0x940 = true) ∧
    (r.bundle.groups = [] ∧ r.bundle.sends = []) ∧
    (r.pins.pwrOk = true ∧ r.cst cellTansy = .running ∧ r.tansy.reactions = [x] ∧ 1 ≤ x.level ∧ x.level ≤ 3) := by
  intros; (repeat' apply And.intro) <;> decide +kernel

theorem witness_TansyTimersLinksAndCommands :
    let t := cellTansy
    let q (n : Nat) := rep fun x => { x with quietAt := some n, active := true }
    ((awake.rep 0x070).quietAt = none ∧ ((q 1000).rep 0x070).quietAt = some 1000 ∧ 1000 ≤ (q 1000).now ∧
      ((q 1001).rep 0x070).quietAt = some 1001 ∧ (q 1001).now < 1001) ∧
    (reporterCell 0x070 = cellNo 7 0 ∧ ∀ k, k < 4 → reporterOf (cellNo 7 0) k ≠ 0x070 →
      ((q 1000).rep (reporterOf (cellNo 7 0) k)).active = false) ∧
    (awake.cst cellTansy = .running ∧ (rep id).blockLost 0 = false ∧ (rep id).blockLost 1 = false ∧
      tabGet 0 (rep id).tansy.snapAt 0 + 128 ≤ (rep id).now ∧ awake.now < tabGet 0 awake.tansy.snapAt 0 + 128) ∧
    In opFaultAck t (words [1023 + 2 ^ 16]) awake ∧
    (In opFaultSet t (words [0x070 + 60000 * 2 ^ 16]) awake ∧ reporterListed 0x070 = true) ∧ In opErrClear t [] awake ∧
    (In opFaultInject t (words [0x070 + 2 * 2 ^ 16]) awake ∧ (awake.rep 0x070).broken = false ∧
      reporterInternal 0x070 = false ∧ (awake.rep 0x070).badAt = none ∧ (awake.rep 0x070).sampled = none) ∧
    (In opFaultRead t (words [0x070]) awake ∧ (awake.rep 0x070).quiet < 2 ^ 16 ∧ (awake.rep 0x070).lastLevel < 8 ∧
      (awake.rep 0x070).esc < 16) ∧
    In opMcPolicy t (words [1]) awake := by
  intros; (repeat' apply And.intro) <;> first | exact admitted_of (by decide +kernel) | decide +kernel

theorem witness_SensorsCrossTheirThresholds :
    (isSensor 0x9FF = false ∧ State.reset.pins.pwrOk = false) ∧
    (isSensor 0x940 = true ∧ awake.pins.pwrOk = true ∧ (awake.sensor 0x940).above = false ∧
      115000 ≤ (115000#32).toInt) ∧
    (awake.sensor 0x9B0).above = false ∧ In opSensorSet cellVixia (words [0x9AD - 0x15, 0]) awake ∧
    isSensor (0x9AD - 0x15) = true := by
  intros; (repeat' apply And.intro) <;> first | exact admitted_of (by decide +kernel) | decide +kernel

/-- Vixia as `f` makes it. -/
def vix (f : Vixia → Vixia) : State := { awake with vixia := f awake.vixia }

theorem witness_VixiaBootsUpdatesAndMeasures :
    let off := vix fun v => { v with up := false }
    let trial := vix fun v => { v with up := false, rec0 := { v.rec0 with valid := true, gen := 0, trial := true, tries := 1 } }
    let rcv := vix fun v => { v with up := false, recovery := true }
    let up := vix fun v => { v with updated := [1], commit := some (true, ask), buffer := [⟨0, 6, 0, 0, 0, 3, 0⟩] }
    let x := cellVixia
    (State.reset.pins.pwrOk = false ∧ awake.vixia.up = true) ∧
    (off.pins.pwrOk = true ∧ off.vixia.up = false ∧ off.vixia.recovery = false ∧ off.cst cellVixia ≠ .faulted ∧
      off.vixia.record.trial = false ∧ off.imageFault 1 (off.image false 1) ≠ 0 ∧ off.imageFault 1 (off.image true 1) ≠ 0) ∧
    (trial.vixia.up = false ∧ trial.vixia.recovery = false ∧ trial.vixia.record.trial = true ∧
      trial.vixia.record.tries = 1 ∧ trial.vixia.record.gen.toNat + 1 < 2 ^ 32) ∧
    (rcv.pins.pwrOk = true ∧ rcv.vixia.recovery = true ∧ rcv.vixia.up = false) ∧
    (up.vixia.up = true ∧ up.vixia.updated ≠ [] ∧
      (up.modVixia Vixia.completeSlot).slotFaultOf (!up.vixia.slot) [1, 2, 3, 4, 5] = some (1, 1)) ∧
    (In opUpdateCommit x (words [1]) awake ∧ awake.vixia.commit = none ∧ awake.vixia.record.gen.toNat + 1 < 2 ^ 32) ∧
    up.vixia.commit = some (true, ask) ∧ In opMeasureRead x [] awake ∧ In opLogRead x (words [2 ^ 33 - 1]) awake ∧
    (up.vixia.persistent.length + up.vixia.buffer.length ≤ logCapacity ∧ up.vixia.droppedDue = 0 ∧
      up.vixia.epochDue = 0 ∧ (vix fun v => { v with epochDue := 1 }).vixia.epochDue ≠ 0) := by
  intros; (repeat' apply And.intro) <;> first | exact admitted_of (by decide +kernel) | decide +kernel

/-- Power-up has taken step `n`, with the planes as `f` leaves them. -/
def boot (n : Nat) (f : Pins → Pins) : State :=
  { (vix fun v => { v with bootStep := n }) with pins := f awake.pins, clock := { awake.clock with ticks := 10 ^ 9 } }

theorem boots_of {s : State} {n : Nat}
    (h : s.pins.pwrOk = true ∧ s.vixia.up = true ∧ s.vixia.stepFailed = false ∧
      n = if s.vixia.bootStep = 0 then 3 else s.vixia.bootStep + 1) : Boots s n := ⟨h.1, h.2.1, h.2.2.1, h.2.2.2⟩

theorem witness_PowerUpGoesStepByStep :
    let on := fun p : Pins => { p with enIo := true, pgIo := true, enCmp := true, pgCmp := true }
    State.reset.pins.pwrOk = false ∧ Boots (boot 0 id) 3 ∧
    (Boots (boot 3 id) 4 ∧ (boot 3 id).pins.enIo = false ∧ Boots (boot 3 on) 4 ∧ (boot 3 on).pins.enIo = true ∧
      (boot 3 on).pins.pgIo = true ∧ (boot 3 fun p => { p with enIo := true }).pins.pgIo = false ∧
      (boot 3 on).vixia.trial = false) ∧
    (Boots (boot 4 id) 5 ∧ (boot 4 id).pins.enCmp = false ∧ Boots (boot 4 on) 5 ∧ (boot 4 on).pins.pgCmp = true ∧
      (∀ p, p < 52 → p ∈ List.range 52 ∧ ((boot 4 on).pair p).job = none) ∧
      populationOk [(0, [⟨.rdimm, false, 4, 1, 16⟩])] = false) ∧
    Boots (boot 5 on) 6 ∧ Boots (boot 7 on) 8 ∧
    ((boot 7 on).pins.pwrOk = true ∧ (boot 7 on).pins.ready = false ∧ (boot 7 on).vixia.stepFailed = false ∧
      10 ^ 9 ≤ (boot 7 on).now ∧ (boot 7 on).vixia.trial = false ∧ awake.now < 10 ^ 9) := by
  intros; (repeat' apply And.intro) <;> first | exact boots_of (by decide +kernel) | decide +kernel

theorem witness_PowerSignalsFollowTheirRules :
    let on := boot 3 fun p => { p with enIo := true, enCmp := true }
    let good := boot 3 fun p => { p with enIo := true, pgIo := true, enCmp := true, pgCmp := true }
    (awake.pins.pwrOk = true ∧ State.reset.pins.pwrOk = false) ∧ (on.pins.enIo = true ∧ on.pins.enCmp = true) ∧
    (awake.pins.enIo = false ∧ awake.pins.enCmp = false) ∧
    (on.pins.pgIo = false ∧ on.pins.enIoAt + 2000000 ≤ on.now ∧ on.pins.enCmpAt + 2000000 ≤ on.now ∧
      on.vixia.trial = false) ∧
    (good.pins.enIo = true ∧ good.pins.pgIo = true ∧ good.pins.enCmp = true ∧ good.pins.pgCmp = true) := by
  intros; (repeat' apply And.intro) <;> decide +kernel

theorem witness_TestAccessPortFollowsItsInstructions :
    (awake.pins.ready = false ∧ awake.pins.enIo = false ∧ awake.vixia.bootStep < 3) ∧
    (boot 3 fun p => { p with enIo := true }).pins.enIo = true ∧ 4 ≤ (boot 4 id).vixia.bootStep := by
  intros; (repeat' apply And.intro) <;> decide +kernel

/-! ### Witnesses: a valid image -/

theorem beBytes_length (n x : Nat) : (beBytes n x).length = n := by
  induction n with
  | zero => rfl
  | succ n ih => simp [beBytes, ih]

theorem beNat_cons (b : Byte) (l : Bytes) : beNat (b :: l) = b.toNat * 256 ^ l.length + beNat l := by
  have key : ∀ (l : Bytes) a, l.foldl (fun n b => n * 256 + b.toNat) a = a * 256 ^ l.length + beNat l := by
    intro l
    induction l with
    | nil => intro a; simp [beNat]
    | cons b l ih =>
      intro a
      simp only [List.foldl_cons, beNat, List.length_cons]
      rw [ih, ih (0 * 256 + b.toNat), Nat.pow_succ, Nat.add_mul, Nat.zero_mul, Nat.zero_add, Nat.mul_assoc,
        Nat.mul_comm 256, Nat.add_assoc]
  simpa [beNat] using key l (0 * 256 + b.toNat)

theorem beNat_lt (l : Bytes) : beNat l < 256 ^ l.length := by
  induction l with
  | nil => decide
  | cons b l ih =>
    rw [beNat_cons, List.length_cons, Nat.pow_succ, Nat.mul_comm (256 ^ l.length)]
    have h : b.toNat + 1 ≤ 256 := b.isLt
    have h := Nat.mul_le_mul_right (256 ^ l.length) h
    rw [Nat.add_mul] at h
    omega

theorem beBytes_beNat : ∀ (l : Bytes) a, beBytes l.length (a * 256 ^ l.length + beNat l) = l
  | [], _ => rfl
  | b :: l, a => by
    have e : a * 256 ^ (b :: l).length + beNat (b :: l) = (a * 256 + b.toNat) * 256 ^ l.length + beNat l := by
      rw [beNat_cons, List.length_cons, Nat.pow_succ, Nat.add_mul, Nat.mul_assoc, Nat.mul_comm 256, Nat.add_assoc]
    rw [e, List.length_cons, beBytes, beBytes_beNat l]
    have p : 2 ^ (8 * l.length) = 256 ^ l.length := by rw [Nat.pow_mul]
    rw [Nat.shiftRight_eq_div_pow, p, Nat.add_comm, Nat.add_mul_div_right _ _ (Nat.pow_pos (by decide)),
      Nat.div_eq_of_lt (beNat_lt l), Nat.zero_add]
    congr 1
    apply BitVec.eq_of_toNat_eq
    have := b.isLt
    rw [BitVec.toNat_ofNat]
    omega

theorem block_length (h : Sha) (v : List Nat) (b : Bytes) (hv : v.length = 8) : (h.block v b).length = 8 := by
  have key : ∀ (l : List (Nat × Nat)) (f : List Nat → Nat × Nat → List Nat), (∀ r p, r.length = 8 → (f r p).length = 8) →
      ∀ r : List Nat, r.length = 8 → (l.foldl f r).length = 8 := by
    intro l f hf
    induction l with
    | nil => exact fun _ h => h
    | cons p l ih => exact fun r h => ih _ (hf r p h)
  simp only [Sha.block, List.length_zipWith]
  rw [key _ _ _ v hv, hv]
  · rfl
  · intro r p hr
    split
    · rfl
    · exact hr

theorem sha256_length (m : Bytes) : (sha256 m).length = 32 := by
  have key : ∀ (l : List Bytes) (v : List Nat), v.length = 8 → (l.foldl sha256p.block v).length = 8 := by
    intro l
    induction l with
    | nil => exact fun _ h => h
    | cons b l ih => exact fun v h => ih _ (block_length _ _ _ h)
  have iv : sha256p.iv.length = 8 := by decide +kernel
  have flat : ∀ v : List Nat, (v.flatMap fun x => beBytes 4 x).length = 4 * v.length := by
    intro v
    induction v with
    | nil => rfl
    | cons x v ih => simp [beBytes_length, ih]; omega
  simp only [sha256, Sha.digest, List.length_take]
  rw [show sha256p.w / 8 = 4 from rfl, flat, key _ _ iv]
  rfl

theorem mgf1_length (h : Bytes) : (mgf1 h 351).length = 351 := by
  simp only [mgf1, List.length_take, List.length_flatMap, sha256_length]
  decide

/-- The data block of a salt of zeros, but for its first byte. -/
def blockTail : Bytes := zeros 317 ++ [1] ++ zeros 32

theorem blockTail_length : blockTail.length = 350 := by decide +kernel
theorem blockTail_zeros : blockTail.take 317 = zeros 317 := by decide +kernel
theorem blockTail_one : blockTail.getD 317 0 = 1 := by decide +kernel
theorem blockTail_salt : blockTail.drop 318 = zeros 32 := by decide +kernel

/-- The encoded message of a salt of zeros. -/
def encoded (msg : Bytes) : Bytes :=
  let h := sha256 (zeros 8 ++ sha256 msg ++ zeros 32)
  let db := xorBytes (0 :: blockTail) (mgf1 h 351)
  ((db.getD 0 0 &&& 0x7F) :: db.drop 1) ++ (h ++ [0xBC])

theorem xor_xor : ∀ a b : Bytes, a.length = b.length → xorBytes (xorBytes a b) b = a
  | [], [], _ => rfl
  | x :: a, y :: b, h => by
    have ih := xor_xor a b (by simpa using h)
    simp only [xorBytes, List.zipWith_cons_cons] at ih ⊢
    rw [ih, BitVec.xor_assoc, BitVec.xor_self, BitVec.xor_zero]

theorem mask_mask : ∀ m : Byte, ((m &&& 0x7F) ^^^ m) &&& 0x7F = 0 := by decide +kernel
theorem mask_top : ∀ m : Byte, (m &&& 0x7F).getLsbD 7 = false := by decide +kernel

/-- Under the exponent 1 a signature is the encoded message itself. -/
theorem pss_encoded (n : Nat) (msg : Bytes) (hn : 128 * 256 ^ 383 ≤ n) : pssVerify n 1 msg (encoded msg) = true := by
  obtain ⟨m, M, hM⟩ : ∃ m M, mgf1 (sha256 (zeros 8 ++ sha256 msg ++ zeros 32)) 351 = m :: M := by
    cases e : mgf1 (sha256 (zeros 8 ++ sha256 msg ++ zeros 32)) 351 with
    | nil => have := mgf1_length (sha256 (zeros 8 ++ sha256 msg ++ zeros 32)); rw [e] at this; cases this
    | cons m M => exact ⟨m, M, rfl⟩
  have lM : M.length = 350 := by
    have := mgf1_length (sha256 (zeros 8 ++ sha256 msg ++ zeros 32)); rw [hM] at this; simpa using this
  generalize hh : sha256 (zeros 8 ++ sha256 msg ++ zeros 32) = h at *
  have lh : h.length = 32 := by rw [← hh]; exact sha256_length _
  have lx : (xorBytes blockTail M).length = 350 := by
    rw [xorBytes, List.length_zipWith, blockTail_length, lM]; rfl
  have un := xor_xor blockTail M (by rw [blockTail_length, lM])
  have e : encoded msg = (m &&& 0x7F) :: (xorBytes blockTail M ++ (h ++ [0xBC])) := by
    simp only [encoded, hh, hM, xorBytes, List.zipWith_cons_cons, List.getD_cons_zero, List.drop_succ_cons,
      List.drop_zero, List.cons_append]
    rw [show (0 : Byte) ^^^ m = m from BitVec.zero_xor]
  generalize xorBytes blockTail M = X at *
  have le : (encoded msg).length = 384 := by simp [e, lx, lh]
  have lt : beNat (encoded msg) < n := by
    refine Nat.lt_of_lt_of_le ?_ hn
    rw [e, beNat_cons]
    have a := beNat_lt (X ++ (h ++ [0xBC]))
    have l : (X ++ (h ++ [0xBC])).length = 383 := by simp [lx, lh]
    rw [l] at a ⊢
    have b : (m &&& 0x7F).toNat ≤ 127 := by
      rw [BitVec.toNat_and]; exact Nat.le_trans Nat.and_le_right (by decide)
    have c := fun p => Nat.mul_le_mul_right p b
    generalize 256 ^ 383 = p at *
    have c := c p
    omega
  have pm : powMod (beNat (encoded msg)) 1 n = beNat (encoded msg) := by
    have n1 : 1 < n := by
      refine Nat.lt_of_lt_of_le ?_ hn
      have this := (fun k => Nat.pow_pos (by decide) : ∀ k, 0 < 256 ^ k) 383
      generalize 256 ^ 383 = p at *
      omega
    have l1 : Nat.log2 1 = 0 := by decide +kernel
    simp [powMod, l1, powBits, Nat.mod_eq_of_lt lt, Nat.mod_eq_of_lt n1]
  have bb : beBytes 384 (beNat (encoded msg)) = encoded msg := by
    have := beBytes_beNat (encoded msg) 0
    rwa [le, Nat.zero_mul, Nat.zero_add] at this
  have t1 : (encoded msg).take 351 = (m &&& 0x7F) :: X := by
    rw [e, List.take_succ_cons, List.take_left' lx]
  have t2 : slice (encoded msg) 351 32 = h := by
    rw [slice, e, List.drop_succ_cons, List.drop_left' lx, List.take_left' lh]
  have t3 : (encoded msg).getD 383 0 = 0xBC := by
    rw [e]; simp [List.getD, lx, lh]
  have t4 : ((encoded msg).getD 0 0).getLsbD 7 = false := by
    rw [e, List.getD_cons_zero, mask_top]
  have x1 : xorBytes ((m &&& 0x7F) :: X) (m :: M) = ((m &&& 0x7F) ^^^ m) :: blockTail := by
    rw [xorBytes, List.zipWith_cons_cons]; exact congrArg _ un
  have a0 : allZero (0 :: zeros 317) = true := by decide +kernel
  simp only [pssVerify, pm, bb, t1, t2, t3, t4, hM, x1, hh, List.getD_cons_zero, mask_mask, List.drop_succ_cons,
    List.drop_zero, List.take_succ_cons, List.getD_cons_succ, blockTail_zeros, blockTail_one, blockTail_salt, a0, lt]
  simp

/-- Header bytes 0 to 479 of an image of one kind: a modulus of all ones, the exponent 1 and an empty body. -/
def imgHead (k : Byte) : Bytes :=
  [0x5A, 0x47, 0x49, 0x31, 0, 1, k] ++ zeros 25 ++ List.replicate 384 0xFF ++ ([0, 0, 0, 1] ++ zeros 60)

/-- An image that its own key signs. -/
def img (k : Byte) : Bytes := imgHead k ++ (encoded (imgHead k) ++ zeros 160)

theorem slice_append (a b : Bytes) (i n : Nat) (h : i + n ≤ a.length) : slice (a ++ b) i n = slice a i n := by
  rw [slice, slice, List.drop_append_of_le_length (by omega), List.take_append_of_le_length (by simp; omega)]

theorem slice_tail (a b : Bytes) (i n : Nat) (h : a.length ≤ i) : slice (a ++ b) i n = slice b (i - a.length) n := by
  rw [slice, slice, List.drop_append, List.drop_eq_nil_of_le h, List.nil_append]

theorem encoded_length (msg : Bytes) : (encoded msg).length = 384 := by
  simp [encoded, mgf1_length, sha256_length, xorBytes, blockTail_length]

theorem imgHead_length (k : Byte) : (imgHead k).length = 480 := by
  simp only [imgHead, List.length_append, zeros, List.length_replicate, List.length_cons, List.length_nil]

/-- What the checks of R629 read in the header. -/
theorem imgHead_fields : ∀ k : Byte, k.toNat ∈ [1, 2, 3, 4, 5] →
    numAt (imgHead k) 0 4 = 0x5A474931 ∧ numAt (imgHead k) 4 2 = 1 ∧ numAt (imgHead k) 6 1 = k.toNat ∧
    numAt (imgHead k) 7 1 = 0 ∧ numAt (imgHead k) 8 1 = 0 ∧ numAt (imgHead k) 16 4 = 0 ∧
    allZero (slice (imgHead k) 9 3) = true ∧ allZero (slice (imgHead k) 20 12) = true ∧
    allZero (slice (imgHead k) 420 60) = true ∧ slice (imgHead k) 32 388 = List.replicate 384 0xFF ++ [0, 0, 0, 1] := by
  decide +kernel

theorem imgHead_key : ∀ k : Byte, k.toNat ∈ [1, 2, 3, 4, 5] →
    numAt (imgHead k) 32 384 = beNat (List.replicate 384 0xFF) ∧ numAt (imgHead k) 416 4 = 1 := by decide +kernel

theorem big_modulus : 128 * 256 ^ 383 ≤ beNat (List.replicate 384 0xFF) := by decide +kernel

/-- The key of the images. -/
def imgKeyBytes : Bytes := List.replicate 384 0xFF ++ [0, 0, 0, 1]

theorem img_valid (k : Byte) (hk : k.toNat ∈ [1, 2, 3, 4, 5]) (s : State) (key : sha256 imgKeyBytes = Config.fuseKeyHash 0)
    (hr : s.vixia.fuses.revoked = 0) (hs : s.vixia.fuses.svn = 0) : s.imageFault k.toNat (img k) = 0 := by
  obtain ⟨f0, f4, f6, f7, f8, f16, z9, z20, z420, kb⟩ := imgHead_fields k hk
  have lh := imgHead_length k
  have n (i w : Nat) (h : i + w ≤ 480) : numAt (img k) i w = numAt (imgHead k) i w := by
    rw [numAt, numAt, img, slice_append _ _ _ _ (by omega)]
  have sl (i w : Nat) (h : i + w ≤ 480) : slice (img k) i w = slice (imgHead k) i w := by
    rw [img, slice_append _ _ _ _ (by omega)]
  have len : (img k).length = 1024 := by
    simp only [img, List.length_append, lh, encoded_length, zeros, List.length_replicate]
  have body : imgBody (img k) = [] := by
    rw [imgBody, n 16 4 (by omega), f16]
    rfl
  have z864 : slice (img k) 864 160 = zeros 160 := by
    rw [img, slice_tail _ _ _ _ (by omega), lh, slice_tail _ _ _ _ (by first | (rw [encoded_length]; decide) | rw [encoded_length]), encoded_length]
    decide +kernel
  have sig : slice (img k) 480 384 = encoded (imgHead k) := by
    rw [img, slice_tail _ _ _ _ (by omega), lh, slice_append _ _ _ _ (by first | (rw [encoded_length]; decide) | rw [encoded_length]), slice]
    exact List.take_of_length_le (Nat.le_of_eq (encoded_length _))
  have top : (img k).take 480 = imgHead k := by rw [img, List.take_left' lh]
  have z160 : allZero (zeros 160) = true := by decide +kernel
  have az (a b : Bytes) : allZero (a ++ b) = (allZero a && allZero b) := by simp [allZero]
  have fields : imgFields k.toNat (img k) = true := by
    simp [imgFields, imgSvn, len, n, sl, f0, f4, f6, f7, f8, f16, z864, az, z9, z20, z420, z160]
  have big : numAt (imgHead k) 32 384 = beNat (List.replicate 384 0xFF) ∧ numAt (imgHead k) 416 4 = 1 := by
    exact imgHead_key k hk
  have signed : imgSigned (img k) = true := by
    rw [imgSigned, n 32 384 (by decide), n 416 4 (by decide), big.1, big.2, top, body, sig, List.append_nil]
    exact pss_encoded _ _ big_modulus
  have keyb : imgKey (img k) = imgKeyBytes := by rw [imgKey, sl _ _ (by decide), kb, imgKeyBytes]
  simp [State.imageFault, fields, n, f7, hr, keyb, key, signed, imgSvn, f8, hs]

/-! ### Witnesses: what a valid image gives, whatever hash the fuses hold for its key -/

/-- A state with every image of slot A valid. -/
def signedState (s : State) : State :=
  s.modVixia fun v => { v with slots := [(1, img 1), (2, img 2), (3, img 3), (4, img 4), (5, img 5)] }

theorem signed_valid (s : State) (key : sha256 imgKeyBytes = Config.fuseKeyHash 0) (hr : s.vixia.fuses.revoked = 0)
    (hs : s.vixia.fuses.svn = 0) : (signedState s).slotFaultOf false [1, 2, 3, 4, 5] = none := by
  have v (k : Byte) (hk : k.toNat ∈ [1, 2, 3, 4, 5]) := img_valid k hk (signedState s) key hr hs
  have f1 : (signedState s).imageFault 1 ((signedState s).image false 1) = 0 := v 1 (by decide)
  have f2 : (signedState s).imageFault 2 ((signedState s).image false 2) = 0 := v 2 (by decide)
  have f3 : (signedState s).imageFault 3 ((signedState s).image false 3) = 0 := v 3 (by decide)
  have f4 : (signedState s).imageFault 4 ((signedState s).image false 4) = 0 := v 4 (by decide)
  have f5 : (signedState s).imageFault 5 ((signedState s).image false 5) = 0 := v 5 (by decide)
  simp [State.slotFaultOf, f1, f2, f3, f4, f5]

theorem witness_ValidImages (key : sha256 imgKeyBytes = Config.fuseKeyHash 0) :
    let off := signedState (vix fun v => { v with up := false })
    let on := signedState (vix fun v => { v with bootStep := 0 })
    let staged := signedState (vix fun v => { v with slot := true, updated := [1, 2, 3, 4, 5] })
    (off.vixia.up = false ∧ off.imageFault 1 (off.image off.vixia.record.prefer 1) = 0) ∧
    (Boots on 3 ∧ on.slotFaultOf on.vixia.slot [2, 3, 4, 5] = none) ∧
    (staged.vixia.up = true ∧ staged.vixia.updated ≠ [] ∧ staged.vixia.order = none ∧
      staged.vixia.record.gen.toNat + 1 < 2 ^ 32 ∧
      (staged.modVixia Vixia.completeSlot).slotFaultOf (!staged.vixia.slot) [1, 2, 3, 4, 5] = none) := by
  have v (s : State) := img_valid 1 (by decide) (signedState s) key
  have a (s : State) := signed_valid s key
  have b (s : State) (hr : s.vixia.fuses.revoked = 0) (hs : s.vixia.fuses.svn = 0) : (signedState s).slotFaultOf false [2, 3, 4, 5] = none := by
    have := a s hr hs
    simp only [State.slotFaultOf, List.findSome?_cons, List.findSome?_nil] at this ⊢
    split at this
    · cases this
    · exact this
  exact ⟨⟨rfl, v _ (by decide +kernel) (by decide +kernel)⟩, ⟨boots_of ⟨rfl, rfl, rfl, rfl⟩, b _ (by decide +kernel) (by decide +kernel)⟩,
    rfl, by decide, rfl, by decide +kernel, a _ (by decide +kernel) (by decide +kernel)⟩

/-! ### Commands that no link, ring or board can carry: each check of WellFormed refuses one -/

theorem test_wf_path : Instr.wf (.identify { pkt 0 [] with path := zeros 15 }) = false := by decide +kernel
theorem test_wf_params_long : Instr.wf (.query (pkt 0 (zeros 4072))) = false := by decide +kernel
theorem test_wf_params_odd : Instr.wf (.change (pkt 0 (zeros 7))) = false := by decide +kernel
theorem test_wf_packet : Instr.wf (.change (pkt 0 (zeros 4064))) = true := by decide +kernel
theorem test_wf_dest_long : Instr.wf (.op 0 { frame 1 [] with destLen := 9, dest := zeros 9 }) = false := by decide +kernel
theorem test_wf_dest_length : Instr.wf (.sync 0 { frame 1 [] with destLen := 2, dest := [5] }) = false := by decide +kernel
theorem test_wf_payload : Instr.wf (.data 0 (frame 1 (zeros 4097))) = false := by decide +kernel
theorem test_wf_frame : Instr.wf (.data 0 (frame 1 (zeros 4096))) = true := by decide +kernel
theorem test_wf_fec : Instr.wf (.fecUncorrectable 0 [frame 1 [], frame 1 (zeros 4097)]) = false := by decide +kernel
theorem test_wf_power_step : Instr.wf (.powerUp 2 ⟨[], [], []⟩) = false ∧
    Instr.wf (.powerUp 9 ⟨[], [], []⟩) = false := by decide +kernel
theorem test_wf_timeout : Instr.wf (.timeoutExpiry (.idle 0xFFFFF)) = false := by decide +kernel
theorem test_wf_cells : Instr.wf (.idleDelayExpiry 0xFFFFF) = false ∧ Instr.wf (.cellWakeComplete 0xFFFFF) = false ∧
    Instr.wf (.drainComplete 0xFFFFF) = false ∧ Instr.wf (.loopTestComplete 0xFFFFF 0 0) = false ∧
    Instr.wf (.drainComplete (cellNo 6 0)) = true := by decide +kernel
theorem test_wf_endpoint_write : Instr.wf (.endpointRequest 0 true 0 2 [1]) = false := by decide +kernel
theorem test_wf_endpoint_read : Instr.wf (.endpointRequest 0 false 0 1 [1]) = false := by decide +kernel
theorem test_wf_ethernet : Instr.wf (.ethernetFrameReceive 0 (zeros 10237) 0) = false := by decide +kernel
theorem test_wf_bus_error : Instr.wf (.busErrorRetry 0 0 0 0) = false := by decide +kernel
theorem test_wf_mctp : Instr.wf (.mctpMessage 0 (zeros 65537)) = false := by decide +kernel
theorem test_wf_sensor : Instr.wf (.sensorSample 0x93F 0) = false ∧ Instr.wf (.sensorSample 0x9B1 0) = false ∧
    Instr.wf (.sensorSample 0x9B0 0) = true := by decide +kernel
theorem test_wf_recovery : Instr.wf (.recoveryImage [1, 2, 3]) = false := by decide +kernel
theorem test_wf_manifest : Instr.wf (.manifestReceive 0 (zeros 79)) = false := by decide +kernel

/-! ### Single steps, with the results worked out by hand from the rules -/

/-- What a reading of the next state gives. -/
def after {α : Type} (i : Instr) (s : State) (f : State → α) : Option α :=
  match exec i s with
  | .next t => some (f t)
  | _ => none

/-- Core 0 with R2 and R3, and what a register holds after an instruction. -/
def regAfter (i : Instr) (r2 r3 : Word) (n : Nat) : Option Word :=
  after i (cpu fun a => { a with g := [(2, r2), (3, r3)] }) fun t => (t.core 0).arch.gr (BitVec.ofNat 5 n)

theorem test_add_wraps : regAfter (.add 0 1 2 3) 0xFFFFFFFFFFFFFFFF 2 1 = some 1 := by decide +kernel
theorem test_sub_source_is_destination : regAfter (.sub 0 2 2 3) 5 7 2 = some 0xFFFFFFFFFFFFFFFE := by
  decide +kernel
theorem test_register_zero : regAfter (.add 0 0 2 3) 5 7 0 = some 0 := by decide +kernel
theorem test_sra_copies_the_sign : regAfter (.sra 0 1 2 3) 0x8000000000000000 4 1 = some 0xF800000000000000 := by
  decide +kernel
theorem test_addi8_sign : regAfter (.addi8 0 1 2 0xFF) 5 0 1 = some 4 := by decide +kernel
theorem test_bswap : regAfter (.bswap 0 1 2) 0x0102030405060708 0 1 = some 0x0807060504030201 := by decide +kernel
theorem test_clz_of_zero : regAfter (.clz 0 1 2) 0 0 1 = some 64 := by decide +kernel
theorem test_idle : step State.reset = .next State.reset := rfl
theorem test_first_in_first_out :
    (match step { awake with pending := [.idcode, .bypass] } with
      | .next t => t.pending
      | _ => []) = [.bypass] := by decide +kernel

/-- A bundle message that waits is preceded by SYNC on the one port that carries bundle messages (R548, R575, R576). -/
theorem test_bundle_message_syncs_first :
    let s := bundled id
    let t := ({ s with io := { s.io with partners := [] }, bundle := { s.bundle with outbound := [(1, [7])] } } : State).sendMessages
    (t.port 0).sent.map (fun x : LineItem => match x with
      | .frame ty f => (ty, f.vc, f.vcx, f.dest)
      | _ => (FType.end_, 0, false, [])) = [(FType.sync, 0xFFFF, true, [0x80])] := by decide +kernel

/-! Instructions spelled out bit by bit from the formats of R107 and the map of R110. -/

theorem test_decode_add : instrAt 0 [0x04, 0x22, 0x18] = some (.add 0 1 2 3, []) := by decide +kernel
theorem test_decode_addi8 : instrAt 0 [0x10, 0x22, 0xFF] = some (.addi8 0 1 2 0xFF, []) := by decide +kernel
theorem test_decode_cmp : instrAt 0 [0x08, 0x02, 0x1E] = some (.cmp 0 2 3, []) := by decide +kernel
theorem test_decode_cmp_zero_field :
    instrAt 0 [0x08, 0x22, 0x1E] = some (.reservedOpcode 0 ⟨0x08221E, 0, 0⟩, []) := by decide +kernel
theorem test_decode_zero_parcel : instrAt 0 [0, 0, 0] = some (.reservedOpcode 0 ⟨0, 0, 0⟩, []) := by decide +kernel
theorem test_decode_swap : instrAt 0 [0x30, 0x22, 0x18] = some (.swap 0 1 2 3, []) := by decide +kernel
theorem test_decode_syscall : instrAt 0 [0x3C, 0, 0x02] = some (.syscall 0, []) := by decide +kernel
theorem test_decode_fadd : instrAt 0 [0x4C, 0x22, 0x18] = some (.fadd 0 .d 1 2 3, []) := by decide +kernel
theorem test_decode_ld : instrAt 0 [0x98, 0x22, 0x06, 0, 0, 4] = some (.ld 0 1 2 6 4, []) := by decide +kernel
theorem test_decode_br : instrAt 0 [0xA8, 0x20, 0, 0, 0, 2] = some (.br 0 1 2, []) := by decide +kernel
theorem test_decode_movi : instrAt 0 [0xC0, 0x20, 0, 0, 0, 0, 0, 0, 1] = some (.movi 0 1 1, []) := by decide +kernel
theorem test_decode_short : instrAt 0 [0xC0, 0x20, 0, 0, 0, 0] = none := by decide +kernel

/-! The first and the last entry of the estimate tables: 2^20 / 1,025 and 2^20 / 2,047, 1,024 over the square roots of
513 / 512 and of twice 1,023 / 512 (R149, R176). -/

theorem test_reciprocal : (reciprocal 0, reciprocal 511) = (1023, 512) := by decide +kernel
theorem test_root_estimate : (rootEstimate 0, rootEstimate 511) = (1023, 512) := by decide +kernel

/-! Check values that the algorithms' own standards give for the digits 1 to 9. -/

def digits : Bytes := [0x31, 0x32, 0x33, 0x34, 0x35, 0x36, 0x37, 0x38, 0x39]
theorem test_crc16 : crc16 digits = 0x29B1 := by decide +kernel
theorem test_crc32c : crc32c digits = 0xE3069283 := by decide +kernel
theorem test_crc64 : crc64 digits = 0x62EC59E3F1A4F00A := by decide +kernel
theorem test_crc32 : crc32 digits = 0xCBF43926 := by decide +kernel
theorem test_adler32 : adler32 digits = 0x091E01DE := by decide +kernel
/-- The first vector of IEEE 1619: a key, a tweak and a data unit of zeros. -/
theorem test_xts : (xts false (zeros 32) (zeros 16) (zeros 32) 32).take 4 = [0x91, 0x7C, 0xF6, 0x9E] := by decide +kernel

/-! The same instructions as words, the first parcel in the lowest bits. -/

theorem test_word_add : decodeTableWord 24 0x042218 = some (.add 0 1 2 3) := by decide +kernel
theorem test_word_ld : decodeTableWord 48 0x4982206 = some (.ld 0 1 2 6 4) := by decide +kernel
theorem test_word_put_first : (State.reset.withFetchWord 24 0x042218).pending = [.add 0 1 2 3] := by decide +kernel

end Sys2Proof.Tests
end

section
/-! SUPPORT. Stores to control space by partition 0 at host level (R7, R76, R77): where each address leads, and the one
update that each register takes. -/

namespace Sys2Proof.Machine

/-! ### Reads after a write of a table, and what stands -/

/-- A change of one key leaves every other, whatever default the reader takes. -/
theorem tabGet_tabMod_ne {α : Type} [DecidableEq α] (d e : α) (t : Tab α) {k j : Nat} (f : α → α) (h : j ≠ k) :
    tabGet e (tabMod d t k f) j = tabGet e t j := by
  unfold tabMod tabPut tabGet
  split
  · rw [tabFind_tabErase, if_neg h]
  · rw [tabFind_tabInsert, if_neg h]

theorem State.slice_modSlice_ne (s : State) {d j : Nat} (f : Slice → Slice) (h : j ≠ d) :
    (s.modSlice d f).slice j = s.slice j := tabGet_tabMod_ne _ _ s.caches.slices f h

theorem State.modPair_only (s : State) (p : Nat) (f : Pair → Pair) : OnlyPair s (s.modPair p f) p :=
  ⟨rfl, fun q hq => by rw [State.pair_modPair, if_neg hq]⟩

theorem State.modQueue_only (s : State) (q : Nat) (f : Queue → Queue) : OnlyQueue s (s.modQueue q f) q :=
  ⟨rfl, fun j hj => by rw [State.queue_modQueue, if_neg hj]⟩

theorem State.modRing_only (s : State) (r : Nat) (f : Ring → Ring) : OnlyRing s (s.modRing r f) r :=
  ⟨rfl, fun q hq => by rw [State.ring_modRing, if_neg hq]⟩

/-! ### Fields of the stored word -/

/-- A W1C bit after a store (R7). -/
theorem st_eq (old : Bool) (v : Word) (i : Nat) : st old v i = (old && !v.getLsbD i) := rfl

theorem f16_eq_extractLsb' (v : Word) (lo : Nat) : f16 v lo = v.extractLsb' lo 16 := by
  apply BitVec.eq_of_getLsbD_eq
  intro i hi
  simp [f16, hi]

/-- A level of TANSY_STATUS after a store: bit 8 + a of the word clears it (R617). -/
theorem Tansy.writeStatus_levelSeen (t : Tansy) (v : Word) (a : Nat) :
    (t.writeStatus v).levelSeen.getLsbD a = (t.levelSeen.getLsbD a && !v.getLsbD (8 + a)) := by
  by_cases ha : a < 5
  · simp [Tansy.writeStatus, ha]
  · rw [BitVec.getLsbD_of_ge _ _ (by omega), BitVec.getLsbD_of_ge t.levelSeen _ (by omega), Bool.false_and]

/-! ### Where a store leads -/

theorem ctrlOf_reg {a o : Nat} (ha : a = 0x000FFF6000000000 + o) (ho : o < 2 ^ 32) : ctrlOf a = some (.reg o) := by
  unfold ctrlOf
  rw [if_neg (by omega), if_neg (by omega), if_neg (by omega), if_pos (by omega), ha, Nat.add_sub_cancel_left]

theorem ctrlOf_bell {r : Nat} (hr : r < 1024) : ctrlOf (0x000FFF5000000000 + 0x1000 * r) = some (.bell r) := by
  unfold ctrlOf
  rw [if_neg (by omega), if_neg (by omega), if_pos (by omega), Nat.add_sub_cancel_left,
    Nat.mul_div_cancel_left _ (by decide)]

theorem ctrlOf_window {a n o : Nat} (ha : a = 0x000FFF0000000000 + (n * 2 ^ 32 + o)) (hn : n < 64) (ho : o < 2 ^ 32) :
    ctrlOf a = some (.window n o) := by
  unfold ctrlOf
  rw [if_pos (by omega), if_pos (by omega)]
  simp only [Option.some.injEq, Ctrl.window.injEq]
  constructor <;> omega

theorem State.ctrlAllowed_host (s : State) (c : Ctrl) : s.ctrlAllowed 0 true c = true := rfl

theorem exec_registerWrite (a : Nat) (v : Word) (s : State) : exec (.registerWrite a v) s =
    .next (if a % 8 = 0 ∧ s.ctrlOk 0 true true a then s.ctrlWrite 0 true a v else s) := rfl

theorem exec_tansyStatusWrite (v : Word) (s : State) :
    exec (.tansyStatusWrite v) s = .next (s.modTansy fun t => t.writeStatus v) := rfl

theorem registerWrite_refused {s : State} {a : Nat} (v : Word) (h : a % 8 ≠ 0 ∨ s.ctrlOk 0 true true a = false) :
    exec (.registerWrite a v) s = .next s := by
  rw [exec_registerWrite, if_neg]
  rintro ⟨hal, hok⟩
  rcases h with h | h
  · exact h hal
  · exact Bool.false_ne_true (h.symm.trans hok)

/-- A store to a listed module register has the register's own effect. -/
theorem registerWrite_reg {s u : State} {a o : Nat} {v : Word} (hal : a % 8 = 0) (ha : ctrlOf a = some (.reg o))
    (hw : s.regWrite o v = some u) : exec (.registerWrite a v) s = .next u := by
  have hread : (s.regRead o).isSome = true := by
    cases hr : s.regRead o with
    | none => simp [State.regWrite, hr] at hw
    | some _ => rfl
  have hok : s.ctrlOk 0 true true a = true := by
    simp only [State.ctrlOk, ha, State.ctrlAllowed_host, hread, Bool.and_self]
  rw [exec_registerWrite, if_pos ⟨hal, hok⟩]
  simp only [State.ctrlWrite, ha, hw, Option.getD_some]

/-- A store to a listed register of a partition's window has that register's own effect. -/
theorem registerWrite_window {s u : State} {a n o : Nat} {v : Word} (hal : a % 8 = 0)
    (ha : ctrlOf a = some (.window n o)) (hw : s.windowWrite true n o v = some u) :
    exec (.registerWrite a v) s = .next u := by
  have hread : (s.windowRead n o).isSome = true := by
    cases hr : s.windowRead n o with
    | none => simp [State.windowWrite, hr] at hw
    | some _ => rfl
  have hok : s.ctrlOk 0 true true a = true := by
    simp only [State.ctrlOk, ha, State.ctrlAllowed_host, hread, BEq.rfl, Bool.and_self, Bool.not_true, Bool.and_false,
      Bool.not_false]
  rw [exec_registerWrite, if_pos ⟨hal, hok⟩]
  simp only [State.ctrlWrite, ha, BEq.rfl, Bool.and_self, hw, Option.getD_some]

/-- A store to a doorbell's address rings it (R70). -/
theorem registerWrite_bell (s : State) (r : Fin 1024) (v : Word) :
    exec (.registerWrite (0x000FFF5000000000 + 0x1000 * r.val) v) s = exec (.doorbell r v) s := by
  rw [exec_registerWrite, if_pos]
  · simp only [State.ctrlWrite, ctrlOf_bell r.isLt]
    rfl
  · refine ⟨by omega, ?_⟩
    simp only [State.ctrlOk, ctrlOf_bell r.isLt, State.ctrlAllowed_host, Bool.and_self]

/-! ### The registers that exist, and what a store to each does

Word `i` of unit `n` of a block of the registers stands at `base + stride * n + 8 * i`. -/

theorem unit_of_offset (base : Nat) {stride i : Nat} (n : Nat) (hi : 8 * i < stride) :
    (base + stride * n + 8 * i - base) / stride = n := by
  rw [Nat.add_assoc, Nat.add_sub_cancel_left, Nat.mul_add_div (by omega), Nat.div_eq_of_lt hi, Nat.add_zero]

theorem word_of_offset (base : Nat) {stride i : Nat} (n : Nat) (hi : 8 * i < stride) :
    (base + stride * n + 8 * i - base) % stride / 8 = i := by
  rw [Nat.add_assoc, Nat.add_sub_cancel_left, Nat.mul_add_mod, Nat.mod_eq_of_lt hi,
    Nat.mul_div_cancel_left _ (by decide)]

theorem nth_isNone {l : List Word} {i : Nat} (h : i < l.length) : (nth l i).isNone = false := by
  simp [nth, h]

theorem State.regRead_pair (s : State) {p i : Nat} (hp : p < 57) (hi : i < 4) :
    (s.regRead (0x10000 + 0x40 * p + 8 * i)).isNone = false := by
  unfold State.regRead
  rw [if_pos (by omega)]
  dsimp only
  rw [if_pos (by omega), word_of_offset _ _ (by omega)]
  exact nth_isNone hi

theorem State.regRead_slice (s : State) {d i : Nat} (hd : d < 4) (hi : i < 2) :
    (s.regRead (0x30000 + 0x1000 * d + 8 * i)).isNone = false := by
  unfold State.regRead
  rw [if_neg (by omega), if_pos (by omega)]
  dsimp only
  rw [if_pos (by omega), word_of_offset _ _ (by omega)]
  exact nth_isNone hi

theorem State.regRead_chan (s : State) {c i : Nat} (hc : c < 24) (hi : i < 3) :
    (s.regRead (0x60000 + 0x40 * c + 8 * i)).isNone = false := by
  unfold State.regRead
  rw [if_neg (by omega), if_neg (by omega), if_neg (by omega), if_neg (by omega), if_pos (by omega)]
  dsimp only
  rw [if_pos (by omega), word_of_offset _ _ (by omega)]
  exact nth_isNone hi

theorem State.regRead_queue (s : State) {q i : Nat} (hq : q < 1024) (hi : i < 3) :
    (s.regRead (0xC0000 + 0x20 * q + 8 * i)).isNone = false := by
  unfold State.regRead
  iterate 12 rw [if_neg (by omega)]
  rw [if_pos (by omega)]
  dsimp only
  rw [if_pos (by omega), word_of_offset _ _ (by omega)]
  exact nth_isNone hi

theorem State.regWrite_pairChk (s : State) {p : Nat} (v : Word) (hp : p < 57) :
    s.regWrite (0x10000 + 0x40 * p + 8 * 0) v = some (s.modPair p fun x => { x with
      cloveFailed := x.cloveFailed && !v.getLsbD 10, buscmpFailed := x.buscmpFailed && !v.getLsbD 11
      mismatch := x.mismatch && !v.getLsbD 12, delayUe := x.delayUe && !v.getLsbD 13
      ckptUe := x.ckptUe && !v.getLsbD 14, hardFailed := x.hardFailed && !v.getLsbD 15 }) := by
  unfold State.regWrite
  rw [s.regRead_pair hp (by decide), if_neg Bool.false_ne_true, if_pos (by omega)]
  simp only [unit_of_offset _ _ (by decide : 8 * 0 < 0x40), word_of_offset _ _ (by decide : 8 * 0 < 0x40), st_eq]

theorem State.regWrite_pairCnt (s : State) {p : Nat} (v : Word) (hp : p < 57) :
    s.regWrite (0x10000 + 0x40 * p + 8 * 1) v = some (s.modPair p fun x => { x with
      retries := v.extractLsb' 0 16, delayCe := v.extractLsb' 16 16, ckptCe := v.extractLsb' 32 16
      localised := v.extractLsb' 48 16 }) := by
  unfold State.regWrite
  rw [s.regRead_pair hp (by decide), if_neg Bool.false_ne_true, if_pos (by omega)]
  simp only [unit_of_offset _ _ (by decide : 8 * 1 < 0x40), word_of_offset _ _ (by decide : 8 * 1 < 0x40),
    f16_eq_extractLsb']

theorem State.regWrite_pairLoc (s : State) {p : Nat} (v : Word) (hp : p < 57) :
    s.regWrite (0x10000 + 0x40 * p + 8 * 2) v = some s := by
  unfold State.regWrite
  rw [s.regRead_pair hp (by decide), if_neg Bool.false_ne_true, if_pos (by omega)]
  simp only [word_of_offset _ _ (by decide : 8 * 2 < 0x40)]

theorem State.regWrite_sliceLfsr (s : State) {d : Nat} (v : Word) (hd : d < 4) :
    s.regWrite (0x30000 + 0x1000 * d + 8 * 1) v = some
      (if v.setWidth 32 = 0#32 then s else s.modSlice d fun x => { x with lfsr := v.setWidth 32 }) := by
  unfold State.regWrite
  rw [s.regRead_slice hd (by decide), if_neg Bool.false_ne_true, if_neg (by omega), if_pos (by omega)]
  simp only [unit_of_offset _ _ (by decide : 8 * 1 < 0x1000), word_of_offset _ _ (by decide : 8 * 1 < 0x1000)]

theorem State.regWrite_chanEcc (s : State) {c : Nat} (v : Word) (hc : c < 24) :
    s.regWrite (0x60000 + 0x40 * c + 8 * 1) v = some (s.modChan c fun x => { x with
      ce := v.extractLsb' 0 16, ue := v.extractLsb' 16 16, marked := x.marked && !v.getLsbD 40
      ueSeen := x.ueSeen && !v.getLsbD 41, linkRetry := x.linkRetry && !v.getLsbD 42 }) := by
  unfold State.regWrite
  rw [s.regRead_chan hc (by decide), if_neg Bool.false_ne_true, if_neg (by omega), if_neg (by omega),
    if_pos ⟨by omega, by omega, word_of_offset _ _ (by decide)⟩]
  simp only [unit_of_offset _ _ (by decide : 8 * 1 < 0x40), st_eq, f16_eq_extractLsb']

theorem State.regWrite_queueStatus (s : State) {q : Nat} (v : Word) (hq : q < 1024) :
    s.regWrite (0xC0000 + 0x20 * q + 8 * 1) v = some (s.modQueue q fun x => { x with
      resetSeen := x.resetSeen && !v.getLsbD 18, ptrMismatch := x.ptrMismatch && !v.getLsbD 19
      itemUe := x.itemUe && !v.getLsbD 20, fullSeen := x.fullSeen && !v.getLsbD 21 }) := by
  unfold State.regWrite
  rw [s.regRead_queue hq (by decide), if_neg Bool.false_ne_true, if_neg (by omega), if_neg (by omega),
    if_neg (by omega), if_neg (by omega), if_neg (by omega), if_pos (by omega)]
  simp only [unit_of_offset _ _ (by decide : 8 * 1 < 0x20), word_of_offset _ _ (by decide : 8 * 1 < 0x20), st_eq]

theorem State.regWrite_tansyStatus (s : State) (v : Word) :
    s.regWrite 0x110000 v = some (s.modTansy fun t => t.writeStatus v) := rfl

theorem State.windowWrite_cmdBase (s : State) (mgr : Bool) (n : Nat) {r : Nat} (v : Word) (hr : r < 16) :
    s.windowWrite mgr n (0x100 * r + 8) v = some (if (s.ring (16 * n + r)).enable then s
      else s.modRing (16 * n + r) fun x => { x with cmdBase := v &&& baseMask }) := by
  have hring : (0x100 * r + 8) / 0x100 = r := by omega
  have hreg : (0x100 * r + 8) % 0x100 = 8 := by omega
  have hlt : 0x100 * r + 8 < 0x1000 := by omega
  simp only [State.windowWrite, State.windowRead, hlt, hring, hreg, if_true, Option.isNone_some, Bool.false_eq_true,
    if_false]

/-! ### The statement -/

/-- The store clears the bits of ERR_LATCH and LEVEL_SEEN that the word names, and nothing else of the module. -/
theorem tansyStatusWrite_effect (s : State) (v : Word) (a : Nat) :
    ∃ t, exec (.tansyStatusWrite v) s = .next t ∧ t.tansy.errLatch = (s.tansy.errLatch && !v.getLsbD 0) ∧
      t.tansy.levelSeen.getLsbD a = (s.tansy.levelSeen.getLsbD a && !v.getLsbD (8 + a)) ∧
      { t with tansy := { t.tansy with errLatch := s.tansy.errLatch, levelSeen := s.tansy.levelSeen } } = s :=
  ⟨_, exec_tansyStatusWrite v s, rfl, s.tansy.writeStatus_levelSeen v a, rfl⟩

/-- Settles O8: each address leads to one register (`ctrlOf`), and that register's own update is the whole effect. -/
theorem storesToModuleRegisters : Obligations.StoresToModuleRegisters := by
  unfold Obligations.StoresToModuleRegisters
  intro base
  refine ⟨fun s a v h => registerWrite_refused v h, ?pairChk, ?pairCnt, ?pairLoc, ?sliceLfsr, ?chanEcc, ?queueStatus,
    ?tansyStatus, ?ringBase, fun s r v => registerWrite_bell s r v⟩
  case pairChk =>
    intro s p v hp
    refine ⟨_, registerWrite_reg (by omega) (ctrlOf_reg (by omega) (by omega)) (s.regWrite_pairChk v hp),
      s.modPair_only p _, ?_⟩
    rw [State.pair_modPair, if_pos rfl]
  case pairCnt =>
    intro s p v hp
    refine ⟨_, registerWrite_reg (by omega) (ctrlOf_reg (by omega) (by omega)) (s.regWrite_pairCnt v hp),
      s.modPair_only p _, ?_⟩
    rw [State.pair_modPair, if_pos rfl]
  case pairLoc =>
    intro s p v hp
    exact registerWrite_reg (by omega) (ctrlOf_reg (by omega) (by omega)) (s.regWrite_pairLoc v hp)
  case sliceLfsr =>
    intro s d v hd
    refine ⟨_, registerWrite_reg (by omega) (ctrlOf_reg (by omega) (by omega)) (s.regWrite_sliceLfsr v hd), ?_⟩
    split
    · exact ⟨rfl, fun _ _ => rfl, rfl⟩
    · exact ⟨by rw [State.slice_modSlice], fun j hj => s.slice_modSlice_ne _ hj, rfl⟩
  case chanEcc =>
    intro s c v hc
    refine ⟨_, registerWrite_reg (by omega) (ctrlOf_reg (by omega) (by omega)) (s.regWrite_chanEcc v hc), ?_,
      fun j hj => ?_, rfl⟩
    · rw [State.chan_modChan, if_pos rfl]
    · rw [State.chan_modChan, if_neg hj]
  case queueStatus =>
    intro s q v hq
    refine ⟨_, registerWrite_reg (by omega) (ctrlOf_reg (by omega) (by omega)) (s.regWrite_queueStatus v hq),
      s.modQueue_only q _, ?_⟩
    rw [State.queue_modQueue, if_pos rfl]
  case tansyStatus =>
    intro s v a
    exact ⟨(registerWrite_reg (by decide) (ctrlOf_reg rfl (by decide)) (s.regWrite_tansyStatus v)).trans
      (exec_tansyStatusWrite v s).symm, tansyStatusWrite_effect s v a⟩
  case ringBase =>
    intro s n r v hn hr
    refine ⟨_, registerWrite_window (by omega) (ctrlOf_window (by omega) hn (by omega))
      (s.windowWrite_cmdBase true n v hr), ?_⟩
    split
    · exact ⟨⟨rfl, fun _ _ => rfl⟩, rfl⟩
    · exact ⟨s.modRing_only _ _, by rw [State.ring_modRing, if_pos rfl]; rfl⟩

end Sys2Proof.Machine
end

section
/-! SUPPORT. The windows of a checked pair (R188 to R209): what a return to the checkpoint leaves, and what a commit does. -/

namespace Sys2Proof.Machine

/-! ### Pairs, cores and saturating counts -/

@[simp] theorem pairOfCore_leaderOf (p : Nat) : pairOfCore (leaderOf p) = p := by
  unfold pairOfCore leaderOf
  split <;> split <;> omega

@[simp] theorem State.pair_modPair_self (s : State) (p : Nat) (f : Pair → Pair) : (s.modPair p f).pair p = f (s.pair p) := by
  rw [State.pair_modPair, if_pos rfl]

theorem State.pair_modPair_ne (s : State) {p q : Nat} (f : Pair → Pair) (h : q ≠ p) : (s.modPair p f).pair q = s.pair q := by
  rw [State.pair_modPair, if_neg h]

@[simp] theorem State.core_modCore_self (s : State) (c : Nat) (f : Core → Core) : (s.modCore c f).core c = f (s.core c) := by
  rw [State.core_modCore, if_pos rfl]

theorem State.core_modCore_ne (s : State) {c d : Nat} (f : Core → Core) (h : d ≠ c) : (s.modCore c f).core d = s.core d := by
  rw [State.core_modCore, if_neg h]

@[simp] theorem State.pair_modCore (s : State) (c : Nat) (f : Core → Core) (p : Nat) : (s.modCore c f).pair p = s.pair p := rfl

@[simp] theorem State.core_modPair (s : State) (p : Nat) (f : Pair → Pair) (c : Nat) : (s.modPair p f).core c = s.core c := rfl

@[simp] theorem State.cst_modPair (s : State) (p : Nat) (f : Pair → Pair) (c : Nat) : (s.modPair p f).cst c = s.cst c := rfl

theorem satAdd_one_toNat (x : BitVec 16) : (satAdd x 1).toNat = min 0xFFFF (x.toNat + 1) := by
  simp only [satAdd, BitVec.toNat_ofNat]
  omega

/-! ### Folds -/

/-- A fold keeps what each of its steps keeps. -/
theorem foldl_view {α β γ : Type} (v : α → γ) {f : α → β → α} (h : ∀ a b, v (f a b) = v a) (l : List β) (a : α) :
    v (l.foldl f a) = v a := by
  induction l generalizing a with
  | nil => rfl
  | cons b l ih => rw [List.foldl_cons, ih, h]

/-- A fold of steps each of which leaves the value leaves it. -/
theorem foldl_stays {α β : Type} {f : α → β → α} {a : α} {l : List β} (h : ∀ b ∈ l, f a b = a) : l.foldl f a = a := by
  induction l with
  | nil => rfl
  | cons b l ih =>
    rw [List.foldl_cons, h b (List.mem_cons_self ..)]
    exact ih fun c hc => h c (List.mem_cons_of_mem _ hc)

/-! ### The return to the checkpoint -/

/-- The pair after the return: no window is left uncommitted, and EV of every discarded one is kept (R199, R202). -/
def Pair.returned (x : Pair) : Pair :=
  { x with closed := [], failing := none
           opened := { Window.empty ((x.uncommitted.head?.map Window.number).getD 0) with ev := x.uncommitted.any Window.ev } }

/-- The leader after the return (R199, R202). -/
def Pair.checkpointed (x : Pair) (c : Core) : Core :=
  { c with arch := { x.ckpt with ps := x.ckpt.ps ||| (if x.uncommitted.any Window.ev then 0x200#64 else 0) }
           wait := .none, first := none, divUnit := none, tlb := [] }

/-- The pair has returned from `s` to its checkpoint, and `x` is what it has become. -/
structure Returned (s t : State) (p : Nat) (x : Pair) : Prop where
  rest  : { t with queues := s.queues, caches := s.caches, pairs := s.pairs, cores := s.cores } = s
  self  : t.pair p = x
  pairs : ∀ q, q ≠ p → t.pair q = s.pair q
  lead  : t.core (leaderOf p) = (s.pair p).checkpointed (s.core (leaderOf p))
  cores : ∀ c, c ≠ leaderOf p → t.core c = s.core c

/-- The pops of the discarded windows go back to their queues (R216), and nothing else but the pair, its leader and the L1s
changes. -/
theorem State.rollback_returned (s : State) (p : Nat) : Returned s (s.rollback p) p (s.pair p).returned := by
  unfold State.rollback
  extract_lets core ws ev s1 s2 fresh s3 a
  have hrest := foldl_view (fun u : State => { u with queues := s.queues }) (f := fun s w => match w.pop with
    | some q => s.popReturn q (cellOfPair p)
    | none => s) (fun u w => by cases w.pop <;> rfl) ws s
  obtain ⟨qs, h1⟩ : ∃ qs, s1 = { s with queues := qs } :=
    ⟨s1.queues, congrArg (fun u : State => { u with queues := s1.queues }) hrest⟩
  have hpair : s2.pair p = s.pair p := by rw [show s2.pair p = s1.pair p from rfl, h1]; rfl
  have hret : s3.pair p = (s.pair p).returned := by rw [State.pair_modPair_self, hpair]; rfl
  constructor
  · simp only [s3, s2, h1]
    rfl
  · rw [State.pair_modCore, hret]
  · intro q hq
    rw [State.pair_modCore, State.pair_modPair_ne _ _ hq]
    simp only [s2, h1]
    rfl
  · have ha : a = (s.pair p).ckpt := by
      show (s3.pair p).ckpt = _
      rw [hret]
      rfl
    rw [State.core_modCore_self, ha]
    simp only [s3, s2, h1]
    rfl
  · intro c hc
    rw [State.core_modCore_ne _ _ hc]
    simp only [s3, s2, h1]
    rfl

theorem Returned.mem {s t : State} {p : Nat} {x : Pair} (h : Returned s t p x) : t.mem = s.mem := by
  have e := congrArg State.mem h.rest
  exact e

theorem Returned.modPair {s t : State} {p : Nat} {x : Pair} (h : Returned s t p x) (g : Pair → Pair) :
    Returned s (t.modPair p g) p (g x) where
  rest := h.rest
  self := by rw [State.pair_modPair_self, h.self]
  pairs q hq := by rw [State.pair_modPair_ne _ _ hq, h.pairs q hq]
  lead := h.lead
  cores := h.cores

/-- What the pair had noted before its return does not change the return. -/
theorem Returned.of_modPair {s t : State} {p : Nat} {x : Pair} {f : Pair → Pair} (h : Returned (s.modPair p f) t p x)
    (hf : ∀ c, (f (s.pair p)).checkpointed c = (s.pair p).checkpointed c) : Returned s t p x where
  rest := congrArg (fun u : State => { u with pairs := s.pairs }) h.rest
  self := h.self
  pairs q hq := by rw [h.pairs q hq, State.pair_modPair_ne _ _ hq]
  lead := by rw [h.lead, State.pair_modPair_self, hf]; rfl
  cores := h.cores

theorem Returned.rolledBack {s t : State} {p : Nat} {x : Pair} (h : Returned s t p x)
    (hx : x.closed = [] ∧ x.opened = (s.pair p).returned.opened ∧ x.committed = (s.pair p).committed ∧
      x.ckpt = (s.pair p).ckpt ∧ x.failing = none) : RolledBack s t p := by
  obtain ⟨hc, ho, hs, hk, hf⟩ := hx
  have hlead := h.lead
  constructor
  case wait => rw [hlead]; exact ⟨rfl, rfl, rfl⟩
  case arch => rw [hlead]; rfl
  case cores => exact h.cores
  case pairs => exact h.pairs
  all_goals rw [h.self]; assumption

/-- The pair after a failed window from which it restarts: the failure and the restart are counted, and 17 windows of
cycle-compare mode are armed (R199, R206, R209). -/
def Pair.restarted (x : Pair) : Pair :=
  { x.returned with mismatch := true, failRun := x.failRun + 1, retries := satAdd x.retries 1, restarting := true
                    ccLeft := if x.busDead then 0 else 17 }

theorem State.failWindow_returned {s : State} {p : Nat} (hrun : (s.pair p).failRun < 2) (hck : (s.pair p).ckptLost = false) :
    Returned s (s.failWindow p) p (s.pair p).restarted := by
  have h := (((s.modPair p fun x => { x with mismatch := true }).rollback_returned p).of_modPair fun _ => rfl).modPair
    fun x => { x with failRun := x.failRun + 1, retries := satAdd x.retries 1, restarting := true
                      ccLeft := if x.busDead then 0 else 17 }
  rw [State.pair_modPair_self] at h
  unfold State.failWindow
  extract_lets x s1
  rw [if_neg (show ¬ (s.pair p).failRun = 2 by omega), show x.ckptLost = false from hck, if_neg Bool.false_ne_true]
  exact h

/-! ### The commit of a window -/

@[simp] theorem State.pair_clearTouched (s : State) (core n p : Nat) : (s.clearTouched core n).pair p = s.pair p := rfl

/-- A pair with no CACHE_DISABLE that waits for its boundary begins none (R273). -/
theorem State.startDisables_none {s : State} {p : Nat} (h : ∀ j ∈ s.caches.jobs, j.begins p = j) : s.startDisables p = s := by
  have hany : (s.caches.jobs.any fun j => j.begins p != j) = false := by
    rw [List.any_eq_false]
    intro j hj
    simp [h j hj]
  unfold State.startDisables
  split
  · dsimp only
    rw [hany, if_neg Bool.false_ne_true]
    refine foldl_stays fun j hj => ?_
    have hb := h j hj
    split
    · next q m who =>
      simp only [CacheJob.begins, Bool.false_or, CacheJob.disable.injEq, beq_eq_false_iff_ne, true_and, and_true] at hb
      rw [if_neg hb]
    · rfl
  · rfl

theorem State.tryEndWait_none {s : State} {core : Nat} (h : (s.core core).wait = .none) : s.tryEndWait core = s := by
  simp only [State.tryEndWait, State.waitCode, h]

/-- The oldest window commits (R193, R198): a window without a pop and events, of a pair that nothing else waits for. -/
theorem State.commitWindow_eq {s : State} {p : Nat} {w : Window} {rest : List Window} (hw : (s.pair p).closed = w :: rest)
    (hpop : w.pop = none) (hev : w.events = []) (howed : (s.pair p).owed = false) (hfail : (s.pair p).failing = none)
    (hjobs : ∀ j ∈ s.caches.jobs, j.begins p = j) (hwait : (s.core (leaderOf p)).wait = .none)
    (hjob : (s.pair p).job = none) (hst : s.cst (cellOfPair p) ≠ .draining) :
    s.commitWindow p = (s.modPair p fun x => { x with
      closed := rest, committed := x.committed ++ w.stores, ckpt := w.endArch.getD x.ckpt
      ckptLost := false, failRun := 0, owed := false }).clearTouched (leaderOf p) w.number := by
  generalize ht : (s.modPair p _).clearTouched _ _ = t
  have hcore : t.core (leaderOf p) = s.core (leaderOf p) := by subst ht; rfl
  have hcaches : t.caches.jobs = s.caches.jobs := by subst ht; rfl
  have hpair : (t.pair p).failing = none ∧ (t.pair p).job = none := by
    subst ht
    rw [State.pair_clearTouched, State.pair_modPair_self]
    exact ⟨hfail, hjob⟩
  have hcell : t.cst (cellOfPair p) = s.cst (cellOfPair p) := by subst ht; rfl
  have hold : s.commitOldest p = t := by
    unfold State.commitOldest
    rw [hw]
    simp only [hpop, hev, howed, List.foldl_nil, Bool.false_eq_true, if_false, ht, hpair.2, hcell, hst,
      Option.isSome_none, or_self, and_false]
    rw [State.startDisables_none (by rw [hcaches]; exact hjobs), State.tryEndWait_none (by rw [hcore]; exact hwait)]
  unfold State.commitWindow
  simp only [hold, hpair.1]

/-! ### The events -/

theorem exec_windowCycleLimit (p : PairId) (s : State) : exec (.windowCycleLimit p) s = .next (s.cycleLimit p) := rfl
theorem exec_windowCompare (p : PairId) (rails : BitVec 2) (s : State) :
    exec (.windowCompare p rails) s = .next (s.compareWindow p rails) := rfl
theorem exec_pairRestartComplete (p : PairId) (s : State) :
    exec (.pairRestartComplete p) s = .next (s.modPair p fun x => { x with restarting := false }) := rfl
theorem exec_gatedStoreRelease (p : PairId) (s : State) : exec (.gatedStoreRelease p) s = .next (s.releaseStores p) := rfl

/-- The 512th cycle closes a window that holds something (R188). -/
theorem State.cycleLimit_closes {s : State} {p : Nat} (hs : s.checks p = true) (hf : (s.pair p).failing = none)
    (ho : (s.pair p).opened.isEmpty = false) (hc : (s.pair p).closed.length < 2) :
    s.cycleLimit p = s.closeWindow (leaderOf p) := by
  simp [State.cycleLimit, State.canClose, hs, hf, ho, hc]

/-- The 512th cycle numbers on past an empty window (R188). -/
theorem State.cycleLimit_numbers {s : State} {p : Nat} (hs : s.checks p = true) (hf : (s.pair p).failing = none)
    (ho : (s.pair p).opened.isEmpty = true) :
    s.cycleLimit p = s.modPair p fun x =>
      { x with opened := { x.opened with number := x.opened.number + 1 }, ccLeft := x.ccLeft - 1 } := by
  simp [State.cycleLimit, hs, hf, ho]

/-- A comparison that agrees commits the oldest window (R193); in permanent cycle-compare mode each report does (R213). -/
theorem State.compareWindow_commits {s : State} {p : Nat} (hs : s.checks p = true) (hc : (s.pair p).closed ≠ [])
    (h : (s.pair p).mode = 2 ∨ (s.pair p).forced = false) : s.compareWindow p 1 = s.commitWindow p := by
  unfold State.compareWindow
  simp only [hs, hc, List.isEmpty_iff, Bool.not_true, Bool.false_eq_true, or_self, if_false]
  rcases h with h | h
  · rw [if_pos h]
  · simp [h]

/-- A difference is noted: a forced one is used up, and the agreement on retry is to be reported (R211, R228). -/
def Pair.differs (x : Pair) : Pair := { x with injected := if x.forced then none else x.injected, owed := true }

/-- A comparison that differs fails the oldest window (R199). -/
theorem State.compareWindow_fails {s : State} {p : Nat} (hs : s.checks p = true) (hc : (s.pair p).closed ≠ [])
    (hm : (s.pair p).mode ≠ 2) : s.compareWindow p 2 = (s.modPair p Pair.differs).failWindow p := by
  unfold State.compareWindow
  simp only [hs, hc, hm, List.isEmpty_iff, Bool.not_true, Bool.false_eq_true, or_self, if_false]
  rw [if_neg (by decide), if_neg (by simp)]
  rfl

/-- Channels that an access reaches are cells, and nothing else changes (R28). -/
theorem State.touchChans_rest (s : State) (cs : List Nat) : { s.touchChans cs with cells := s.cells } = s :=
  foldl_view (fun u : State => { u with cells := s.cells }) (f := fun u c => u.touchCell (cellNo 4 c)) (fun _ _ => rfl) cs s

/-- What one step of the release does (R195, R326): it waits for memory or for a pin, or the store reaches the module. -/
theorem State.releaseOne_cons {s : State} {p : Nat} {g : GStore} {rest : List GStore} (h : (s.pair p).committed = g :: rest) :
    let u := (s.modPair p fun x => { x with committed := rest }).performStore (leaderOf p) g
    s.releaseOne p = if !s.acceptsStore p g then
        (false, s.touchChans (s.asleepFor (g.pieces.map fun x => (x.1, x.2.length)) .write))
      else if s.overPins u then (false, s) else (true, u) := by
  unfold State.releaseOne
  rw [h]

theorem State.releaseOne_nil {s : State} {p : Nat} (h : (s.pair p).committed = []) : s.releaseOne p = (false, s) := by
  unfold State.releaseOne
  rw [h]

theorem State.releaseStores_of_waits {s t : State} {p : Nat} (h : s.releaseOne p = (false, t)) : s.releaseStores p = t := by
  unfold State.releaseStores
  rw [h]

theorem State.releaseStores_of_released {s t : State} {p : Nat} (h : s.releaseOne p = (true, t)) :
    s.releaseStores p = (t.releaseOne p).2 := by
  unfold State.releaseStores
  rw [h]

/-- Settles O30: a window's end is `closeWindow`, its commit `commitWindow_eq`, its failure `failWindow_returned`, and the
release of stores is two steps of `releaseOne`. -/
theorem windowsCloseCommitAndRollBack : Obligations.WindowsCloseCommitAndRollBack := by
  unfold Obligations.WindowsCloseCommitAndRollBack
  refine ⟨?closes, ?numbers, ?commits, ?differs, ?restart, ?idle, ?release⟩
  case closes =>
    intro s p hs hf ho hc
    refine ⟨_, (exec_windowCycleLimit p s).trans (by rw [State.cycleLimit_closes hs hf ho hc]), ?_, ?_⟩
    · rw [State.closeWindow_eq, pairOfCore_leaderOf]
      exact s.modPair_only p _
    · rw [State.closeWindow_eq, pairOfCore_leaderOf, State.pair_modPair_self]
  case numbers =>
    intro s p hs hf ho
    refine ⟨_, (exec_windowCycleLimit p s).trans (by rw [State.cycleLimit_numbers hs hf ho]), s.modPair_only p _, ?_⟩
    rw [State.pair_modPair_self]
  case commits =>
    intro s p w rest hs hw hm hpop hev howed hfail hjobs hwait hjob hst
    have hc : (s.pair p).closed ≠ [] := by rw [hw]; exact List.cons_ne_nil _ _
    have hcommit := (State.compareWindow_commits hs hc hm).trans
      (State.commitWindow_eq hw hpop hev howed hfail hjobs hwait hjob hst)
    refine ⟨_, (exec_windowCompare p 1 s).trans (congrArg _ hcommit), fun q hq => ?_, rfl, ?_⟩
    · rw [State.pair_clearTouched, State.pair_modPair_ne _ _ hq]
    · rw [State.pair_clearTouched, State.pair_modPair_self, ← howed]
  case differs =>
    intro s p hs hc hm hrun hck _
    have h := (State.failWindow_returned (s := s.modPair p Pair.differs) (p := p)
      (by rw [State.pair_modPair_self]; exact hrun) (by rw [State.pair_modPair_self]; exact hck)).of_modPair fun _ => rfl
    rw [State.pair_modPair_self] at h
    refine ⟨_, (exec_windowCompare p 2 s).trans (congrArg _ (State.compareWindow_fails hs hc hm)),
      h.rolledBack ⟨rfl, rfl, rfl, rfl, rfl⟩, ?_⟩
    rw [h.self]
    exact ⟨rfl, rfl, rfl, satAdd_one_toNat _, rfl, rfl, h.mem⟩
  case restart =>
    intro s p
    exact ⟨_, exec_pairRestartComplete p s, s.modPair_only p _, State.pair_modPair_self s p _⟩
  case idle =>
    intro s p h
    rw [exec_gatedStoreRelease, State.releaseStores_of_waits (State.releaseOne_nil h)]
  case release =>
    intro s p g rest hg u
    have h1 : s.releaseOne p = _ := State.releaseOne_cons hg
    refine ⟨fun ha => ?_, fun ha ho => ?_, fun ha ho => ?_⟩
    · rw [ha] at h1
      exact ⟨_, (exec_gatedStoreRelease p s).trans (congrArg _ (State.releaseStores_of_waits h1)), s.touchChans_rest _⟩
    · rw [ha, if_neg (by decide), if_pos ho] at h1
      rw [exec_gatedStoreRelease, State.releaseStores_of_waits h1]
    · rw [ha, if_neg (by decide), if_neg (by rw [ho]; decide)] at h1
      rw [exec_gatedStoreRelease, State.releaseStores_of_released h1]
      refine ⟨fun hu => ?_, fun h more hu hb hv => ?_⟩
      · rw [State.releaseOne_nil hu]
      · rw [State.releaseOne_cons hu, hb, if_neg (by decide), if_neg (by rw [hv]; decide)]

end Sys2Proof.Machine
end

section
/-! SUPPORT. The checking hardware of a pair (R207 to R223): failures that are reported, counted and repeated, and what ends
a pair's service. -/

namespace Sys2Proof.Machine

/-! ### Reports and failed cells -/

theorem State.rep_reportCell (s : State) (c k : Nat) : ((s.reportCell c k).rep (reporterOf c k)).fault = true := by
  rw [State.reportCell, State.report, State.rep_modRep, if_pos rfl]

theorem State.rep_reportStop (s : State) (p : Nat) :
    ((s.reportStop (leaderOf p)).rep (reporterOf (cellOfPair p) 3)).fault = true := by
  rw [State.reportStop, pairOfCore_leaderOf, State.rep_modRep, if_pos rfl]

/-- A cell after its failure: nothing that it owed is left (R51). -/
def Cell.failed (x : Cell) : Cell := { x with st := .faulted, waking := false, stops := [] }

/-- A failed cell answers what it owed; only its own record and rings change (R51). -/
theorem State.failCell_rest (s : State) (c : Nat) :
    { s.failCell c with rings := s.rings } = s.modCell c Cell.failed :=
  foldl_view (fun u : State => { u with rings := s.rings }) (f := fun u w => u.complete w 0x0503 0 [])
    (fun _ _ => rfl) (s.cell c).stops (s.modCell c Cell.failed)

theorem State.failCell_eq (s : State) (c : Nat) :
    ∃ rs, s.failCell c = { s.modCell c Cell.failed with rings := rs } :=
  ⟨(s.failCell c).rings, congrArg (fun u : State => { u with rings := (s.failCell c).rings }) (s.failCell_rest c)⟩

@[simp] theorem State.pair_reportCell (s : State) (c k p : Nat) : (s.reportCell c k).pair p = s.pair p := rfl

@[simp] theorem State.spares_reportCell (s : State) (c k : Nat) : (s.reportCell c k).spares = s.spares := rfl

@[simp] theorem State.cst_reportCell (s : State) (c k d : Nat) : (s.reportCell c k).cst d = s.cst d := rfl

@[simp] theorem State.pair_failCell (s : State) (c p : Nat) : (s.failCell c).pair p = s.pair p := by
  obtain ⟨rs, h⟩ := s.failCell_eq c
  rw [h]
  rfl

@[simp] theorem State.spares_failCell (s : State) (c : Nat) : (s.failCell c).spares = s.spares := by
  obtain ⟨rs, h⟩ := s.failCell_eq c
  rw [h]
  rfl

theorem Returned.spares {s t : State} {p : Nat} {x : Pair} (h : Returned s t p x) : t.spares = s.spares := by
  have e := congrArg State.spares h.rest
  exact e

theorem State.cst_failCell (s : State) (c : Nat) : (s.failCell c).cst c = .faulted := by
  obtain ⟨rs, h⟩ := s.failCell_eq c
  rw [h]
  show ((s.modCell c Cell.failed).cell c).st = _
  rw [State.cell_modCell, if_pos rfl]
  rfl

/-! ### A window that fails -/

/-- The window in progress fails at once where no earlier one waits (R199). -/
theorem State.failOpen_oldest {s : State} {p : Nat} (owe : Bool) (h : (s.pair p).closed = []) :
    s.failOpen p owe = (s.modPair p fun x => { x with owed := x.owed || owe }).failWindow p := by
  unfold State.failOpen State.failAt
  rw [if_pos]
  simp [Pair.uncommitted, h]

/-- An update of a pair counts only by what it makes of that pair. -/
theorem State.modPair_congr {s : State} {p : Nat} {f g : Pair → Pair} (h : f (s.pair p) = g (s.pair p)) :
    s.modPair p f = s.modPair p g :=
  congrArg (fun x => { s with pairs := tabPut Pair.reset s.pairs p x }) h

/-- It fails when the earlier ones have been compared, where one waits (R199, R207). -/
theorem State.failOpen_later {s : State} {p : Nat} {w : Window} {rest : List Window} (owe : Bool)
    (h : (s.pair p).closed = w :: rest) (hn : w.number < (s.pair p).opened.number) (hf : (s.pair p).failing = none) :
    s.failOpen p owe = s.modPair p fun x =>
      { x with mismatch := true, failing := some ((s.pair p).opened.number, owe) } := by
  have hlate : ¬ ((s.pair p).uncommitted.head?.map Window.number).all (fun k => decide ((s.pair p).opened.number ≤ k)) = true := by
    simp [Pair.uncommitted, h, hn]
  unfold State.failOpen State.failAt
  rw [if_neg hlate]
  exact State.modPair_congr (by rw [hf])

/-- The widths of the fields of PAIR_LOC. -/
theorem fieldWidth_loc (a b c : Nat) : fieldWidth [(0, a), (16, b), (32, c)] 0 = 16 ∧
    fieldWidth [(0, a), (16, b), (32, c)] 16 = 16 ∧ fieldWidth [(0, a), (16, b), (32, c)] 32 = 32 := ⟨rfl, rfl, rfl⟩

/-- PAIR_LOC: the cycle, the field and the number of the window (R208, R222). -/
theorem pack_loc_toNat {a b c : Nat} (ha : a < 65536) (hb : b < 16) (hc : c < 4294967296) :
    (pack [(0, a), (16, b), (32, c)]).toNat = a + 65536 * b + 4294967296 * c := by
  obtain ⟨h0, h16, h32⟩ := fieldWidth_loc a b c
  have h : (pack [(0, a), (16, b), (32, c)]).toNat =
      (a % 65536 + b % 65536 * 65536 + c % 4294967296 * 4294967296) % 18446744073709551616 := by
    unfold pack
    rw [List.foldl_cons, List.foldl_cons, List.foldl_cons, List.foldl_nil, h0, h16, h32, BitVec.toNat_ofNat]
    simp only [Nat.shiftLeft_eq, Nat.zero_add, Nat.reducePow, Nat.mul_one]
  omega

theorem loc_fields {v : Word} {cycle : BitVec 16} {field : BitVec 4} {n : Nat}
    (h : v.toNat = cycle.toNat + 65536 * field.toNat + 4294967296 * (n % 2 ^ 32)) :
    v.extractLsb' 0 16 = cycle ∧ v.extractLsb' 16 4 = field ∧ v.extractLsb' 20 12 = 0 ∧
      v.extractLsb' 32 32 = BitVec.ofNat 32 n := by
  have hc := cycle.isLt
  have hf := field.isLt
  refine ⟨?_, ?_, (?_ : _ = 0#12), ?_⟩
  all_goals
    apply BitVec.eq_of_toNat_eq
    simp only [BitVec.extractLsb'_toNat, Nat.shiftRight_eq_div_pow, h, BitVec.toNat_ofNat]
    omega

/-! ### A pair that leaves service -/

/-- The pair after its third failure, with its work to go to its die's spare (R210, R235). -/
def Pair.handingOver (x : Pair) (q : Nat) : Pair :=
  { x.returned with hardFailed := true, failRun := 2, owed := false, job := some (.spare q none) }

/-- A pair without a hand-over has none to end. -/
theorem State.failJob_none {s : State} {p : Nat} (h : (s.pair p).job = none) : s.failJob p = s := by
  unfold State.failJob
  rw [h]

theorem State.abandonJob_none {s : State} {p : Nat} (h : (s.pair p).job = none) : s.abandonJob p = s := by
  unfold State.abandonJob
  rw [h]
  exact State.failJob_none h

/-- The spare of a pair's die is taken (R11, R236). -/
def State.takeSpare (s : State) (p : Nat) : State := { s with spares := tabPut none s.spares (p / 13) none }

@[simp] theorem State.pair_takeSpare (s : State) (p q : Nat) : (s.takeSpare p).pair q = s.pair q := rfl

@[simp] theorem State.cst_takeSpare (s : State) (p c : Nat) : (s.takeSpare p).cst c = s.cst c := rfl

@[simp] theorem State.rep_takeSpare (s : State) (p r : Nat) : (s.takeSpare p).rep r = s.rep r := rfl

@[simp] theorem State.rep_modPair (s : State) (p : Nat) (f : Pair → Pair) (r : Nat) : (s.modPair p f).rep r = s.rep r := rfl

@[simp] theorem State.spareOf_modPair (s : State) (p : Nat) (f : Pair → Pair) (q : Nat) :
    (s.modPair p f).spareOf q = s.spareOf q := rfl

theorem State.spareOf_takeSpare (s : State) (p : Nat) : (s.takeSpare p).spareOf p = none := by
  rw [State.spareOf, State.takeSpare, tabGet_tabPut, if_pos rfl]

/-- The third failure of a window: the pair is hard-failed and FAULTED, and its die's spare takes its work (R210, R235). -/
theorem State.hardFail_spared {s : State} {p q : Nat} (hp : p < 52) (hck : (s.pair p).ckptLost = false)
    (hjob : (s.pair p).job = none) (hq : s.spareOf p = some q) : s.hardFail p =
      (((((s.rollback p).modPair p fun x => { x with hardFailed := true, failRun := 2, owed := false }).failCell
        (cellOfPair p)).reportCell (cellOfPair p) 2).takeSpare p).modPair p fun x =>
          { x with job := some (.spare q none) } := by
  have hr := s.rollback_returned p
  have hjob' : ((s.rollback p).pair p).job = none := by rw [hr.self]; exact hjob
  unfold State.hardFail
  dsimp only
  rw [State.failJob_none hjob', if_pos hp]
  generalize hu : State.reportCell _ _ 2 = u
  have hpair : (u.pair p).ckptLost = false ∧ (u.pair p).job = none := by
    rw [← hu, State.pair_reportCell, State.pair_failCell, State.pair_modPair_self, hr.self]
    exact ⟨hck, hjob⟩
  have hspares : u.spares = s.spares := by
    rw [← hu, State.spares_reportCell, State.spares_failCell, State.modPair_spares, hr.spares]
  have hspare : u.spareOf p = some q := by
    rw [State.spareOf, hspares]
    exact hq
  simp only [hpair, hspare, Bool.false_eq_true, if_false]
  rfl

theorem State.hardFail_spared_effects {s : State} {p q : Nat} (hp : p < 52) (hck : (s.pair p).ckptLost = false)
    (hjob : (s.pair p).job = none) (hq : s.spareOf p = some q) :
    (s.hardFail p).pair p = (s.pair p).handingOver q ∧ (s.hardFail p).cst (cellOfPair p) = .faulted ∧
      ((s.hardFail p).rep (reporterOf (cellOfPair p) 2)).fault = true ∧ (s.hardFail p).spareOf p = none := by
  rw [State.hardFail_spared hp hck hjob hq]
  refine ⟨?_, ?_, ?_, ?_⟩
  · rw [State.pair_modPair_self, State.pair_takeSpare, State.pair_reportCell, State.pair_failCell, State.pair_modPair_self,
      (s.rollback_returned p).self]
    rfl
  · rw [State.cst_modPair, State.cst_takeSpare, State.cst_reportCell, State.cst_failCell]
  · rw [State.rep_modPair, State.rep_takeSpare, State.rep_reportCell]
  · rw [State.spareOf_modPair, State.spareOf_takeSpare]

/-- A pair without a hand-over whose checkpoint cannot be loaded is FAULTED (R211). -/
theorem State.checkpointFails_idle {s : State} {p : Nat} (hjob : (s.pair p).job = none) :
    s.checkpointFails p =
      ((s.modPair p fun x => { x with restarting := false }).failCell (cellOfPair p)).reportStop (leaderOf p) := by
  rw [State.checkpointFails, State.abandonJob_none hjob]

theorem State.checkpointFails_idle_effects {s : State} {p : Nat} (hjob : (s.pair p).job = none) :
    (s.checkpointFails p).pair p = { s.pair p with restarting := false } ∧
      (s.checkpointFails p).cst (cellOfPair p) = .faulted ∧
      ((s.checkpointFails p).rep (reporterOf (cellOfPair p) 3)).fault = true ∧ (s.checkpointFails p).spares = s.spares := by
  rw [State.checkpointFails_idle hjob]
  refine ⟨?_, State.cst_failCell _ _, State.rep_reportStop _ p, State.spares_failCell _ _⟩
  exact (State.pair_failCell _ _ p).trans (State.pair_modPair_self s p _)

/-- A window that fails while the checkpoint is lost (R211). -/
theorem State.failWindow_lost {s : State} {p : Nat} (hrun : (s.pair p).failRun < 2) (hck : (s.pair p).ckptLost = true) :
    s.failWindow p = ((s.modPair p fun x => { x with mismatch := true }).rollback p).checkpointFails p := by
  unfold State.failWindow
  extract_lets x s1
  rw [if_neg (show ¬ (s.pair p).failRun = 2 by omega), if_pos (show x.ckptLost = true from hck)]

/-- The third failure of a window is a hard failure (R210). -/
theorem State.failWindow_third {s : State} {p : Nat} (hrun : (s.pair p).failRun = 2) :
    s.failWindow p = (s.modPair p fun x => { x with mismatch := true }).hardFail p := by
  unfold State.failWindow
  extract_lets x s1
  rw [if_pos (show (s.pair p).failRun = 2 from hrun)]

/-! ### The events -/

theorem exec_busCompareDifference (p : PairId) (cycle : BitVec 16) (field : BitVec 4) (s : State) :
    exec (.busCompareDifference p cycle field) s = .next
      (if s.checks p ∧ !(s.pair p).busDead ∧ (0 < (s.pair p).ccLeft ∨ (s.pair p).mode = 2) then
        (s.modPair p fun x =>
          { x with loc := pack [(0, cycle.toNat), (16, field.toNat), (32, x.opened.number % 2 ^ 32)],
                   localised := satAdd x.localised 1 }).failOpen p true
      else s) := rfl
theorem exec_buscmpSelfTest_reported (p : PairId) (s : State) :
    exec (.buscmpSelfTest p true) s = .next (s.modPair p fun x => { x with testBit := x.testBit + 1 }) := rfl
theorem exec_delayRegisterError (p : PairId) (correctable : Bool) (s : State) :
    exec (.delayRegisterError p correctable) s = .next (s.delayError p correctable) := rfl
theorem exec_delayRegisterError_corrected (p : PairId) (s : State) : exec (.delayRegisterError p true) s =
    .next ((s.modPair p fun x => { x with delayCe := satAdd x.delayCe 1 }).reportCell (cellOfPair p) 0) := rfl
theorem exec_checkpointArrayError_corrected (p : PairId) (s : State) : exec (.checkpointArrayError p true) s =
    .next ((s.modPair p fun x => { x with ckptCe := satAdd x.ckptCe 1 }).reportCell (cellOfPair p) 0) := rfl

/-- The pair with PAIR_LOC written and the difference counted (R208, R222, R223). -/
def Pair.located (cycle : BitVec 16) (field : BitVec 4) (x : Pair) : Pair :=
  { x with loc := pack [(0, cycle.toNat), (16, field.toNat), (32, x.opened.number % 2 ^ 32)]
           localised := satAdd x.localised 1 }

theorem Pair.located_loc_toNat (cycle : BitVec 16) (field : BitVec 4) (x : Pair) :
    (x.located cycle field).loc.toNat = cycle.toNat + 65536 * field.toNat + 4294967296 * (x.opened.number % 2 ^ 32) := by
  have hn : x.opened.number % 2 ^ 32 < 4294967296 := by omega
  exact pack_loc_toNat cycle.isLt field.isLt hn

/-- A bus comparator that compares every cycle finds a difference (R207). -/
theorem exec_busCompareDifference_found {s : State} {p : PairId} (cycle : BitVec 16) (field : BitVec 4)
    (hs : s.checks p = true) (hb : (s.pair p).busDead = false) (hm : 0 < (s.pair p).ccLeft ∨ (s.pair p).mode = 2) :
    exec (.busCompareDifference p cycle field) s =
      .next ((s.modPair p (Pair.located cycle field)).failOpen p true) := by
  rw [exec_busCompareDifference, if_pos ⟨hs, by rw [hb]; rfl, hm⟩]
  rfl

/-- A self-test that reports no difference ends cycle-compare mode (R211, R212). -/
theorem exec_buscmpSelfTest_silent {s : State} {p : PairId} (hs : s.checks p = true) (hm : (s.pair p).mode ≠ 2) :
    exec (.buscmpSelfTest p false) s =
      .next (((s.modPair p fun x => { x with testBit := x.testBit + 1 }).modPair p fun x =>
        { x with buscmpFailed := true, busDead := true, ccLeft := 0 }).reportCell (cellOfPair p) 2) := by
  have hs' : (s.modPair p fun x => { x with testBit := x.testBit + 1 }).checks p = true := by
    rw [← hs]
    simp only [State.checks, State.isSplit, State.pair_modPair_self, State.cst_modPair]
  show execBuscmpSelfTest p false s = _
  unfold execBuscmpSelfTest
  simp only [hs', State.pair_modPair_self, hm, Bool.false_eq_true, Bool.not_true, or_self, if_false]

/-- An uncorrectable error of the checkpoint array outside a restart and a sparing (R211). -/
theorem exec_checkpointArrayError_lost {s : State} {p : PairId} (hr : (s.pair p).restarting = false)
    (hj : (s.pair p).job = none) : exec (.checkpointArrayError p false) s =
      .next ((s.modPair p fun x => { x with ckptUe := true, ckptLost := true }).reportCell (cellOfPair p) 1) := by
  show execCheckpointArrayError p false s = _
  unfold execCheckpointArrayError
  simp only [hr, hj, Bool.false_eq_true, Bool.or_self, if_false]

/-- The window in progress fails where it is the oldest, after the pair has noted the error (R199, R207, R211). -/
theorem State.failOpen_returned {s : State} {p : Nat} {f : Pair → Pair} (hf : ∀ c, (f (s.pair p)).checkpointed c = (s.pair p).checkpointed c)
    (hc : (f (s.pair p)).closed = []) (hrun : (f (s.pair p)).failRun < 2) (hck : (f (s.pair p)).ckptLost = false) :
    Returned s ((s.modPair p f).failOpen p true) p ({ f (s.pair p) with owed := true } : Pair).restarted := by
  rw [State.failOpen_oldest true (by rw [State.pair_modPair_self]; exact hc)]
  have h := State.failWindow_returned (s := (s.modPair p f).modPair p fun x => { x with owed := x.owed || true }) (p := p)
    (by rw [State.pair_modPair_self, State.pair_modPair_self]; exact hrun)
    (by rw [State.pair_modPair_self, State.pair_modPair_self]; exact hck)
  rw [State.pair_modPair_self, State.pair_modPair_self, Bool.or_true] at h
  exact (h.of_modPair fun _ => rfl).of_modPair hf

theorem OnlyPair.modPair {s t : State} {p : Nat} (h : OnlyPair s t p) (f : Pair → Pair) : OnlyPair s (t.modPair p f) p :=
  ⟨h.rest, fun q hq => by rw [State.pair_modPair_ne _ _ hq, h.pairs q hq]⟩

/-- A pair changes and a fault is reported: nothing else differs but the report. -/
theorem OnlyPair.reportCell {s u : State} {p : Nat} (h : OnlyPair s u p) (c k : Nat) :
    { u.reportCell c k with pairs := s.pairs, tansy := s.tansy } = s ∧
      ∀ q, q ≠ p → (u.reportCell c k).pair q = s.pair q :=
  ⟨congrArg (fun v : State => { v with tansy := s.tansy }) h.rest, h.pairs⟩

/-- Settles O31: the window in progress fails by `failOpen_later` or `failOpen_returned`, the third failure is
`hardFail_spared`, and a lost checkpoint `checkpointFails_idle`. -/
theorem checkingHardwareFaultsAreCounted : Obligations.CheckingHardwareFaultsAreCounted := by
  unfold Obligations.CheckingHardwareFaultsAreCounted
  refine ⟨?later, ?oldest, ?reported, ?silent, ?delayCe, ?delayUe, ?ckptCe, ?ckptUe, ?third, ?lost⟩
  case later =>
    intro s p cycle field w rest hs hb hm hc hn hf
    have hlater := State.failOpen_later (s := s.modPair p (Pair.located cycle field)) (p := p) true
      (by rw [State.pair_modPair_self]; exact hc) (by rw [State.pair_modPair_self]; exact hn)
      (by rw [State.pair_modPair_self]; exact hf)
    refine ⟨_, (exec_busCompareDifference_found cycle field hs hb hm).trans (congrArg _ hlater),
      (s.modPair_only p _).modPair _, ?_⟩
    rw [State.pair_modPair_self, State.pair_modPair_self]
    rfl
  case oldest =>
    intro s p cycle field hs hb hm hrun hck hc _
    have h := State.failOpen_returned (f := Pair.located cycle field) (fun _ => rfl) hc hrun hck
    obtain ⟨h0, h16, h20, h32⟩ := loc_fields ((s.pair p).located_loc_toNat cycle field)
    refine ⟨_, exec_busCompareDifference_found cycle field hs hb hm, h.rolledBack ⟨rfl, rfl, rfl, rfl, rfl⟩, ?_⟩
    rw [h.self]
    exact ⟨h0, h16, h20, h32, satAdd_one_toNat _, rfl, rfl⟩
  case reported =>
    intro s p
    exact ⟨_, exec_buscmpSelfTest_reported p s, s.modPair_only p _, State.pair_modPair_self s p _⟩
  case silent =>
    intro s p hs hm
    have honly := ((s.modPair_only p fun x => { x with testBit := x.testBit + 1 }).modPair fun x =>
      { x with buscmpFailed := true, busDead := true, ccLeft := 0 }).reportCell (cellOfPair p) 2
    refine ⟨_, exec_buscmpSelfTest_silent hs hm, ?_, ?_, ?_, State.rep_reportCell _ _ _, honly⟩
    all_goals rw [State.pair_reportCell, State.pair_modPair_self]
  case delayCe =>
    intro s p
    have honly := (s.modPair_only p fun x => { x with delayCe := satAdd x.delayCe 1 }).reportCell (cellOfPair p) 0
    refine ⟨_, exec_delayRegisterError_corrected p s, State.rep_reportCell _ _ _, honly.1, honly.2, ?_⟩
    rw [State.pair_reportCell, State.pair_modPair_self]
    exact ⟨satAdd_one_toNat _, rfl⟩
  case delayUe =>
    intro s p hs hrun hck hc _
    have h := State.failOpen_returned (f := fun x => { x with delayUe := true }) (fun _ => rfl) hc hrun hck
    refine ⟨_, (exec_delayRegisterError p false s).trans ?_, h.rolledBack ⟨rfl, rfl, rfl, rfl, rfl⟩, ?_⟩
    · rw [State.delayError, if_neg Bool.false_ne_true, if_pos hs]
    · rw [h.self]
      exact ⟨rfl, rfl, rfl⟩
  case ckptCe =>
    intro s p
    have honly := (s.modPair_only p fun x => { x with ckptCe := satAdd x.ckptCe 1 }).reportCell (cellOfPair p) 0
    refine ⟨_, exec_checkpointArrayError_corrected p s, State.rep_reportCell _ _ _, honly.1, honly.2, ?_⟩
    rw [State.pair_reportCell, State.pair_modPair_self]
    exact ⟨satAdd_one_toNat _, rfl⟩
  case ckptUe =>
    intro s p hr hj
    have honly := (s.modPair_only p fun x => { x with ckptUe := true, ckptLost := true }).reportCell (cellOfPair p) 1
    refine ⟨_, exec_checkpointArrayError_lost hr hj, ?_, State.rep_reportCell _ _ _, honly⟩
    rw [State.pair_reportCell, State.pair_modPair_self]
  case third =>
    intro s p q hp hs hc hm hrun hck hjob hq _
    have hfail : s.compareWindow p 2 =
        ((s.modPair p Pair.differs).modPair p fun x => { x with mismatch := true }).hardFail p := by
      rw [State.compareWindow_fails hs hc hm, State.failWindow_third (by rw [State.pair_modPair_self]; exact hrun)]
    have hpair : ((s.modPair p Pair.differs).modPair p fun x => { x with mismatch := true }).pair p =
        { (s.pair p).differs with mismatch := true } := by rw [State.pair_modPair_self, State.pair_modPair_self]
    obtain ⟨hself, hrest⟩ := State.hardFail_spared_effects (q := q) hp (by rw [hpair]; exact hck) (by rw [hpair]; exact hjob)
      (show State.spareOf ((s.modPair p Pair.differs).modPair p fun x => { x with mismatch := true }) p = some q from hq)
    obtain ⟨hst, hrep, hspare⟩ := hrest
    rw [hpair] at hself
    refine ⟨_, (exec_windowCompare p 2 s).trans (congrArg _ hfail), ?_⟩
    rw [hself]
    exact ⟨rfl, rfl, rfl, hst, hrep, rfl, hspare⟩
  case lost =>
    intro s p hs hc hm hrun hck hjob _
    have hfail : s.compareWindow p 2 =
        (((s.modPair p Pair.differs).modPair p fun x => { x with mismatch := true }).rollback p).checkpointFails p := by
      rw [State.compareWindow_fails hs hc hm, State.failWindow_lost (by rw [State.pair_modPair_self]; exact hrun)
        (by rw [State.pair_modPair_self]; exact hck)]
    have hr := ((s.modPair p Pair.differs).modPair p fun x => { x with mismatch := true }).rollback_returned p
    have hpair := hr.self
    rw [State.pair_modPair_self, State.pair_modPair_self] at hpair
    obtain ⟨hself, hst, hrep, hspares⟩ := State.checkpointFails_idle_effects (by rw [hpair]; exact hjob)
    rw [hpair] at hself
    refine ⟨_, (exec_windowCompare p 2 s).trans (congrArg _ hfail), hst, ?_, ?_, hrep, hspares.trans hr.spares⟩
    · rw [hself]
    · rw [hself]
      rfl

end Sys2Proof.Machine
end

section
/-! SUPPORT. Pops of event queues (R215 to R219, R434, R451): which item is the first, and what a pop leaves. -/

namespace Sys2Proof.Machine

/-! ### The first item -/

theorem mem_of_minBy {α : Type} {key : α → Nat} {l : List α} {x : α} (h : minBy key l = some x) : x ∈ l := by
  induction l generalizing x with
  | nil => cases h
  | cons y l ih =>
    rw [minBy] at h
    cases hm : minBy key l with
    | none =>
      rw [hm] at h
      exact Option.some.inj h ▸ List.mem_cons_self ..
    | some z =>
      rw [hm] at h
      dsimp only at h
      split at h
      · exact Option.some.inj h ▸ List.mem_cons_of_mem _ (ih hm)
      · exact Option.some.inj h ▸ List.mem_cons_self ..

/-- The least element by a key is found, where every other one has a greater key. -/
theorem minBy_eq_some {α : Type} {key : α → Nat} {l : List α} {x : α} (hx : x ∈ l) (h : ∀ y ∈ l, y = x ∨ key x < key y) :
    minBy key l = some x := by
  induction l with
  | nil => cases hx
  | cons y l ih =>
    have hl : ∀ z ∈ l, z = x ∨ key x < key z := fun z hz => h z (List.mem_cons_of_mem _ hz)
    rw [minBy]
    rcases List.mem_cons.1 hx with rfl | hx
    · cases hm : minBy key l with
      | none => rfl
      | some z =>
        have hz : ¬ key z < key x := by
          rcases hl z (mem_of_minBy hm) with rfl | hlt
          · exact Nat.lt_irrefl _
          · exact Nat.lt_asymm hlt
        exact if_neg hz
    · rw [ih hx hl]
      rcases h y (List.mem_cons_self ..) with rfl | hlt
      · exact ite_self _
      · exact if_pos hlt

theorem QItem.prio_le (i : QItem) : i.prio ≤ 7 := by
  have : i.prio < 2 ^ (62 + 1 - 60) := Nat.mod_lt _ (by decide)
  omega

/-- The next item of a queue is the oldest of its items of the highest PRIORITY (R434). -/
theorem Queue.next_eq {x : Queue} {i : QItem} (hi : i ∈ x.items)
    (hfirst : ∀ j ∈ x.items, j = i ∨ j.prio < i.prio ∨ j.prio = i.prio ∧ i.ord < j.ord)
    (hord : ∀ j ∈ x.items, j.ord < 2 ^ 64) : x.next = some i := by
  refine minBy_eq_some hi fun j hj => (hfirst j hj).imp id fun h => ?_
  have hi' := hord i hi
  have hp := i.prio_le
  have hq := j.prio_le
  rcases h with h | ⟨h, hlt⟩ <;> omega

/-! ### What a pop leaves -/

theorem exec_queuePop (q : Fin 1024) (c : CoreId) (s : State) : exec (.queuePop q c) s = execQueuePop q c s := rfl

theorem State.peek_eq {s : State} {q : Nat} {i : QItem} (hs : s.serves q = true) (hn : (s.queue q).next = some i) :
    s.peek q = i.word := by
  simp [State.peek, hs, hn]

theorem State.peek_unserved {s : State} {q : Nat} (hs : s.serves q = false) : s.peek q = 0 := by
  simp [State.peek, hs]

/-- A journal in place of the module's. -/
def State.withJournal (s : State) (l : Tab JEntry) : State := { s with io := { s.io with journal := l } }

theorem State.retire_journal (s : State) (j : Nat) : ∃ l, s.retire j = s.withJournal l := by
  unfold State.retire
  dsimp only
  split
  · exact ⟨_, rfl⟩
  · exact ⟨s.io.journal, rfl⟩

theorem State.checkConsumed_journal (s : State) (j : Nat) : ∃ l, s.checkConsumed j = s.withJournal l := by
  unfold State.checkConsumed
  dsimp only
  split
  · obtain ⟨l, h⟩ := (s.modEntry j fun e => { e with consumed := true }).retire_journal j
    exact ⟨l, h⟩
  · exact ⟨s.io.journal, rfl⟩

/-- The journal alone notes that the item of a completion has been popped (R392). -/
theorem State.entryPopped_journal (s : State) (e : Option Nat) : ∃ l, s.entryPopped e = s.withJournal l := by
  cases e with
  | none => exact ⟨s.io.journal, rfl⟩
  | some j =>
    unfold State.entryPopped
    dsimp only
    split
    · exact ⟨s.io.journal, rfl⟩
    · obtain ⟨l, h⟩ := (s.modEntry j fun e => { e with popped := true }).checkConsumed_journal j
      exact ⟨l, h⟩

theorem Queue.consumed_items (x : Queue) (now : Nat) : (x.consumed now).items = x.items ∧ (x.consumed now).pend = x.pend ∧
    (x.consumed now).stale = false := by
  unfold Queue.consumed
  dsimp only
  split
  · exact ⟨rfl, rfl, rfl⟩
  · split <;> exact ⟨rfl, rfl, rfl⟩

/-- The staleness timer begins anew while a ready item remains (R451). -/
theorem Queue.consumed_staleAt {x : Queue} (now : Nat) (hi : x.items ≠ []) (ht : x.cfg.staleT ≠ 0) :
    (x.consumed now).staleAt = some (now + x.cfg.staleT) := by
  have hlen : 0 < x.items.length := List.length_pos_iff.2 hi
  unfold Queue.consumed
  simp only [Queue.count, Queue.ready]
  rw [if_neg (by omega), if_pos hlen]
  exact if_neg ht

@[simp] theorem State.queue_modQueue_self (s : State) (q : Nat) (f : Queue → Queue) :
    (s.modQueue q f).queue q = f (s.queue q) := by
  rw [State.queue_modQueue, if_pos rfl]

@[simp] theorem State.queue_modPair (s : State) (p : Nat) (f : Pair → Pair) (q : Nat) :
    (s.modPair p f).queue q = s.queue q := rfl

/-- The queue without an item that a pop has consumed (R219, R451). -/
def Queue.without (now : Nat) (i : QItem) (x : Queue) : Queue :=
  Queue.consumed { x with items := x.items.filter fun j => j.ord != i.ord } now

/-- A pop that is consumed at once takes the next item (R219). -/
theorem State.popNow_eq {s : State} {q : Nat} {i : QItem} (hs : s.serves q = true) (hn : (s.queue q).next = some i) :
    s.popNow q = (s.modQueue q (Queue.without s.now i)).entryPopped i.entry := by
  simp only [State.popNow, hs, hn, if_true]
  rfl

/-- A pop by a checked pair moves the next item to a pending slot (R216). -/
theorem State.popPend_eq {s : State} {q : Nat} {i : QItem} (reader : Nat) (hs : s.serves q = true)
    (hn : (s.queue q).next = some i) : s.popPend q reader = s.modQueue q fun x =>
      { x with items := x.items.filter fun j => j.ord != i.ord, pend := x.pend ++ [(reader, i)] } := by
  simp only [State.popPend, hs, hn, if_true]

theorem exec_queuePop_split {s : State} {q : Fin 1024} {c : CoreId} (hl : s.leads c = true)
    (hs : s.isSplit (pairOfCore c) = true) :
    exec (.queuePop q c) s = .next { s.popNow q with bus := s.peek q } := by
  rw [exec_queuePop, execQueuePop]
  simp only [hl, hs, Bool.not_true, Bool.false_eq_true, if_false, if_true]

/-- Settles O46: the item that a pop takes is `Queue.next_eq`'s. -/
theorem popsTakeTheFirstItem : Obligations.PopsTakeTheFirstItem := by
  unfold Obligations.PopsTakeTheFirstItem
  refine ⟨?pops, ?shadow, ?unserved⟩
  case pops =>
    intro s q c i hs hl hi hfirst hord hw others
    have hn := Queue.next_eq hi hfirst hord
    have hpeek := State.peek_eq hs hn
    refine ⟨fun hsplit => ?split, fun hsplit hclosed hpop hpend => ?checked, fun hsplit hwait => ?waits⟩
    case split =>
      obtain ⟨l, hl'⟩ := (s.modQueue q (Queue.without s.now i)).entryPopped_journal i.entry
      have hpopped : s.popNow q = (s.modQueue q (Queue.without s.now i)).withJournal l := (State.popNow_eq hs hn).trans hl'
      have hqueue : (s.popNow q).queue q = (s.queue q).without s.now i := by
        rw [hpopped]
        exact s.queue_modQueue_self q _
      obtain ⟨hitems, hpend, hstale⟩ := Queue.consumed_items { s.queue q with items := others } s.now
      refine ⟨_, exec_queuePop_split hl hsplit, hpeek, ?_, ?_, ?_, fun ho ht => ?_, fun j hj => ?_, ?_, fun he => ?_⟩
      · exact (congrArg Queue.items hqueue).trans hitems
      · exact (congrArg Queue.pend hqueue).trans hpend
      · exact (congrArg Queue.stale hqueue).trans hstale
      · exact (congrArg Queue.staleAt hqueue).trans (Queue.consumed_staleAt s.now ho ht)
      · exact (congrArg (State.queue · j) hpopped).trans ((s.modQueue_only q (Queue.without s.now i)).queues j hj)
      · rw [hpopped]
        simp only [State.withJournal, State.modQueue]
      · rw [State.popNow_eq hs hn, he]
        rfl
    case checked =>
      refine ⟨(s.popPend q (cellOfPair (pairOfCore c))).modPair (pairOfCore c) fun x =>
        { x with opened := { x.opened with pop := some q.val } }, ?_, ?_, ?_, fun j hj => ?_, fun p hp => ?_, ?_⟩
      · have hfree : s.popWaits q (pairOfCore c) = false := by
          simp [State.popWaits, hclosed, hpop, Nat.not_le.2 hpend]
        rw [exec_queuePop, execQueuePop]
        simp only [hl, hsplit, hfree, hpeek, hw, Bool.not_true, Bool.false_eq_true, if_false]
      all_goals rewrite [State.popPend_eq _ hs hn]
      · rw [State.queue_modPair, State.queue_modQueue_self]
      · exact State.pair_modPair_self _ _ _
      · rw [State.queue_modPair, (s.modQueue_only q _).queues j hj]
      · exact State.pair_modPair_ne _ _ hp
      · rfl
    case waits =>
      have hwaits : s.popWaits q (pairOfCore c) = true := by
        simp only [State.popWaits, hpeek, Bool.or_eq_true, Bool.and_eq_true, Bool.not_eq_true', List.isEmpty_eq_false_iff,
          Option.isSome_iff_ne_none, bne_iff_ne, decide_eq_true_eq]
        rcases hwait with h | h | h
        · exact .inl (.inl h)
        · exact .inl (.inr h)
        · exact .inr ⟨hw, h⟩
      rw [exec_queuePop, execQueuePop]
      simp only [hl, hsplit, hwaits, Bool.not_true, Bool.false_eq_true, if_false, if_true]
  case shadow =>
    intro s q c hl
    rw [exec_queuePop, execQueuePop]
    simp only [hl, Bool.not_false, if_true]
  case unserved =>
    intro s q c hs hl hsplit
    rw [exec_queuePop_split hl hsplit, State.peek_unserved hs]
    simp only [State.popNow, hs, Bool.false_eq_true, if_false]

end Sys2Proof.Machine
end

section
/-! SUPPORT. The pair commands (R224 to R228, R236): what SPLIT, JOIN, SPARE and INJECT change when they are taken. -/

namespace Sys2Proof.Machine

theorem exec_split (pk : Pkt) (s : State) : exec (.split pk) s = .next (submit opSplit pk s) := rfl
theorem exec_join (pk : Pkt) (s : State) : exec (.join pk) s = .next (submit opJoin pk s) := rfl
theorem exec_spare (pk : Pkt) (s : State) : exec (.spare pk) s = .next (submit opSpare pk s) := rfl
theorem exec_inject (pk : Pkt) (s : State) : exec (.inject pk) s = .next (submit opInject pk s) := rfl

/-- A pair that comes to a boundary closes a window of its own at most (R190). -/
theorem State.toBoundary_only (s : State) (p : Nat) : OnlyPair s (s.toBoundary p) p := by
  unfold State.toBoundary
  split
  · exact ⟨rfl, fun _ _ => rfl⟩
  · rw [State.closeWindow_eq, pairOfCore_leaderOf]
    exact s.modPair_only p _

theorem State.toBoundary_eq (s : State) (p : Nat) : ∃ ps, s.toBoundary p = { s with pairs := ps } :=
  ⟨(s.toBoundary p).pairs, congrArg (fun u : State => { u with pairs := (s.toBoundary p).pairs }) (s.toBoundary_only p).rest⟩

@[simp] theorem State.pair_modParts (s : State) (f : Parts → Parts) (p : Nat) : (s.modParts f).pair p = s.pair p := rfl

/-- The cell of a pair that is not split shows its own state (R49). -/
theorem State.runs_leaf {s : State} {c : Nat} (hs : s.isSplit (cellIndex c) = false)
    (hr : s.runs c = true) : s.cst c = .running ∨ s.cst c = .asleep := by
  have hleaf : s.leafSt c = s.cst c := by
    rw [State.leafSt, if_neg]
    rintro ⟨-, h⟩
    rw [hs] at h
    cases h
  simpa only [State.runs, hleaf, Bool.or_eq_true, beq_iff_eq] using hr

/-! ### What each command leaves when it is taken -/

/-- A SPLIT that is taken waits in the pair, and its processor is claimed (R226). -/
def State.splitBegun (s : State) (p part num ways area : Nat) (who : Asker) : State :=
  ((s.toBoundary p).modPair p fun x =>
    { x with job := some (.split part num (if ways = 0 then 8 else ways) area who) }).modParts fun t =>
      { t with procs := t.procs ++ [{ core := 2 * p + 1, part := part, num := num, whole := false }] }

theorem opSplit_run {s v : State} {pk : Pkt} {c : Nat} {bs : Bytes}
    (hz : allZero (slice pk.params 11 5) = true) (ha : numAt pk.params 0 8 % 256 = 0) (hp : numAt pk.params 8 1 ≤ 63)
    (hn : numAt pk.params 9 1 ≤ 95) (hw : numAt pk.params 10 1 ≤ 15) (hspare : s.isSpare (cellIndex c) = false)
    (hsplit : s.isSplit (cellIndex c) = false) (hr : s.runs c = true) (hj : (s.pair (cellIndex c)).job = none)
    (hnum : ∀ q ∈ s.procsOf (numAt pk.params 8 1), q.num ≠ numAt pk.params 9 1)
    (hmax : (s.procsOf (numAt pk.params 8 1)).length < s.procsMax (numAt pk.params 8 1))
    (hread : s.readPart (numAt pk.params 8 1) (numAt pk.params 0 8) 1152 = some (bs, v)) (hok : areaOk bs = true) :
    opSplit.run ⟨pk, c, opSplit.code⟩ s =
      accepted (s.splitBegun (cellIndex c) (numAt pk.params 8 1) (numAt pk.params 9 1) (numAt pk.params 10 1)
        (numAt pk.params 0 8) (askerOf 0x0100 pk)) := by
  have hlegal : ¬ (numAt pk.params 0 8 % 256 ≠ 0 ∨ 63 < numAt pk.params 8 1 ∨ 95 < numAt pk.params 9 1 ∨
      15 < numAt pk.params 10 1) := by omega
  simp only [opSplit, Req.num, hz, hlegal, hspare, hsplit, hr, hj, Nat.not_le.2 hmax, hread, hok, Bool.not_true,
    Bool.false_eq_true, Option.isSome_none, if_false]
  refine if_neg fun h => ?_
  obtain ⟨q, hq, he⟩ := List.any_eq_true.1 h
  exact hnum q hq (of_decide_eq_true he)

theorem State.splitBegun_only (s : State) (p part num ways area : Nat) (who : Asker) :
    let u := s.splitBegun p part num ways area who
    u.pair p = { (s.toBoundary p).pair p with
        job := some (.split part num (if ways = 0 then 8 else ways) area who) } ∧
      u.parts.procs = s.parts.procs ++ [{ core := 2 * p + 1, part := part, num := num, whole := false }] ∧
      { u with pairs := s.pairs, parts := { u.parts with procs := s.parts.procs } } = s ∧
      ∀ q, q ≠ p → u.pair q = s.pair q := by
  obtain ⟨ps, h⟩ := s.toBoundary_eq p
  refine ⟨?_, ?_, ?_, fun q hq => ?_⟩
  · rw [State.splitBegun, State.pair_modParts, State.pair_modPair_self]
  · rw [State.splitBegun, h]
    rfl
  · rw [State.splitBegun, h]
    rfl
  · rw [State.splitBegun, State.pair_modParts, State.pair_modPair_ne _ _ hq, (s.toBoundary_only p).pairs q hq]

theorem opJoin_run {s : State} {pk : Pkt} {c : Nat} (hz : allZero (slice pk.params 8 8) = true)
    (ha : numAt pk.params 0 8 % 256 = 0) (hspare : s.isSpare (cellIndex c) = false)
    (hsplit : s.isSplit (cellIndex c) = true) (hr : s.runs c = true) (hj : (s.pair (cellIndex c)).job = none)
    (hrange : (s.partRange (s.partOfCore (2 * cellIndex c + 1)) (numAt pk.params 0 8) 1152 .write).isSome = true) :
    opJoin.run ⟨pk, c, opJoin.code⟩ s = accepted (s.modPair (cellIndex c) fun x =>
      { x with job := some (.join (s.partOfCore (2 * cellIndex c + 1)) (numAt pk.params 0 8) (askerOf 0x0101 pk)) }) := by
  simp only [opJoin, Req.num, hz, ha, hspare, hsplit, hr, hj, Option.isNone_eq_false_iff.2 hrange, Bool.not_true,
    Bool.false_eq_true, Option.isSome_none, ne_eq, not_true_eq_false, if_false]
  rfl

/-- A SPARE that is taken waits in the pair, and its die's spare serves no other (R236). -/
def State.spareBegun (s : State) (p q : Nat) (who : Asker) : State :=
  { ((s.toBoundary p).modPair p fun x => { x with job := some (.spare q (some who)) }) with
    spares := tabPut none s.spares (p / 13) none }

theorem State.spareBegun_only (s : State) (p q : Nat) (who : Asker) :
    let u := s.spareBegun p q who
    u.pair p = { (s.toBoundary p).pair p with job := some (.spare q (some who)) } ∧ u.spareOf p = none ∧
      { u with pairs := s.pairs, spares := s.spares } = s ∧ ∀ j, j ≠ p → u.pair j = s.pair j := by
  obtain ⟨ps, h⟩ := s.toBoundary_eq p
  have hself := (s.toBoundary p).pair_modPair_self p fun x => { x with job := some (.spare q (some who)) }
  refine ⟨hself, ?_, ?_, fun j hj => ?_⟩
  · show tabGet none (tabPut none s.spares (p / 13) none) (p / 13) = none
    rw [tabGet_tabPut, if_pos rfl]
  · rw [State.spareBegun, h]
    rfl
  · have hne := (s.toBoundary p).pair_modPair_ne (fun x => { x with job := some (.spare q (some who)) }) hj
    exact hne.trans ((s.toBoundary_only p).pairs j hj)

theorem pairOfCell_leaf {c : Nat} (h : cellKind c = 1) : pairOfCell c = cellIndex c := by
  unfold pairOfCell
  rw [h]
  rfl

theorem opSpare_run {s : State} {pk : Pkt} {c q : Nat} (hk : cellKind c = 1) (hp : cellIndex c < 52)
    (hsplit : s.isSplit (cellIndex c) = false) (hq : s.spareOf (cellIndex c) = some q) (hne : q ≠ cellIndex c)
    (hj : (s.pair (cellIndex c)).job = none)
    (hr : s.runs c = true ∨
      s.cst c = .faulted ∧ (s.pair (cellIndex c)).ckptLost = false ∧ (s.pair (cellIndex c)).sparedOut = false) :
    opSpare.run ⟨pk, c, opSpare.code⟩ s = accepted (s.spareBegun (cellIndex c) q (askerOf 0x0102 pk)) := by
  have hsound : ¬ (s.cst c = .faulted ∧ ((s.pair (cellIndex c)).ckptLost = true ∨ (s.pair (cellIndex c)).sparedOut = true)) := by
    rintro ⟨hf, hbad⟩
    rcases hr with hr | ⟨-, hc, ho⟩
    · rcases State.runs_leaf hsplit hr with h | h <;> rw [hf] at h <;> cases h
    · simp [hc, ho] at hbad
  have hserves : s.runs c = true ∨ s.cst c = .faulted := hr.imp_right And.left
  simp only [opSpare, pairOfCell_leaf hk, hsplit, Nat.not_le.2 hp, hq, hne, hj, hsound, hserves, Bool.false_eq_true,
    Option.isSome_none, if_false, if_true]
  rfl

theorem opInject_run {s : State} {pk : Pkt} {c : Nat} (hw : (wordAt pk.params 0).toNat ≤ 2)
    (hspare : s.isSpare (pairOfCell c) = false) (hsplit : s.isSplit (pairOfCell c) = false) (hr : s.runs c = true) :
    opInject.run ⟨pk, c, opInject.code⟩ s = done (if (wordAt pk.params 0).toNat = 0 then
        s.modPair (pairOfCell c) fun x => { x with injected := some (x.opened.number + 1) }
      else s.delayError (pairOfCell c) (decide ((wordAt pk.params 0).toNat = 1))) := by
  have hsmall : ¬ 256 ≤ (wordAt pk.params 0).toNat := by omega
  simp only [opInject, Req.word, hsmall, Nat.not_lt.2 hw, hspare, hsplit, hr, Bool.not_true, Bool.false_eq_true, if_false]
  by_cases h0 : (wordAt pk.params 0).toNat = 0
  · exact (if_pos h0).trans (congrArg done (if_pos h0).symm)
  · exact (if_neg h0).trans (congrArg done (if_neg h0).symm)

/-! ### DELAY_UE stays set, whatever becomes of the pair (R211, R228) -/

theorem State.delayUe_dropJob (s : State) (p : Nat) :
    ((s.modPair p fun x => { x with job := none }).pair p).delayUe = (s.pair p).delayUe := by
  simp only [State.pair_modPair_self]

theorem State.delayUe_spareJob (s : State) (p q : Nat) :
    ((s.modPair p fun x => { x with job := some (.spare q none) }).pair p).delayUe = (s.pair p).delayUe := by
  simp only [State.pair_modPair_self]

@[simp] theorem State.pair_complete (s : State) (who : Asker) (status detail : Nat) (results : Bytes) (p : Nat) :
    (s.complete who status detail results).pair p = s.pair p := rfl

@[simp] theorem State.pair_reportStop (s : State) (core p : Nat) : (s.reportStop core).pair p = s.pair p := rfl

theorem State.delayUe_failJob (s : State) (p : Nat) : ((s.failJob p).pair p).delayUe = (s.pair p).delayUe := by
  unfold State.failJob
  split
  · exact s.delayUe_dropJob p
  · exact s.delayUe_dropJob p
  · rfl

theorem State.delayUe_abandonJob (s : State) (p : Nat) : ((s.abandonJob p).pair p).delayUe = (s.pair p).delayUe := by
  unfold State.abandonJob
  split
  · dsimp only
    split
    · exact s.delayUe_dropJob p
    · exact s.delayUe_dropJob p
  · exact s.delayUe_failJob p

theorem State.delayUe_checkpointFails (s : State) (p : Nat) :
    ((s.checkpointFails p).pair p).delayUe = (s.pair p).delayUe := by
  simp only [State.checkpointFails, State.pair_reportStop, State.pair_failCell, State.pair_modPair_self,
    State.delayUe_abandonJob]

theorem State.delayUe_rollback (s : State) (p : Nat) : ((s.rollback p).pair p).delayUe = (s.pair p).delayUe := by
  rw [(s.rollback_returned p).self]
  rfl

theorem State.delayUe_hardFail (s : State) (p : Nat) : ((s.hardFail p).pair p).delayUe = (s.pair p).delayUe := by
  unfold State.hardFail
  dsimp only
  generalize hu : State.failCell _ _ = u
  have h : (u.pair p).delayUe = (s.pair p).delayUe := by
    simp only [← hu, State.pair_failCell, State.pair_modPair_self, State.delayUe_failJob, State.delayUe_rollback]
  split
  · split
    · rw [State.delayUe_checkpointFails, State.pair_reportCell, h]
    · split
      · exact h
      · exact (u.delayUe_spareJob p _).trans h
      · exact h
  · split
    · exact h
    · exact h

theorem State.delayUe_failWindow (s : State) (p : Nat) : ((s.failWindow p).pair p).delayUe = (s.pair p).delayUe := by
  unfold State.failWindow
  dsimp only
  split
  · simp only [State.delayUe_hardFail, State.pair_modPair_self]
  · split
    · simp only [State.delayUe_checkpointFails, State.delayUe_rollback, State.pair_modPair_self]
    · simp only [State.pair_modPair_self, State.delayUe_rollback]

theorem State.delayUe_failOpen (s : State) (p : Nat) (owe : Bool) :
    ((s.failOpen p owe).pair p).delayUe = (s.pair p).delayUe := by
  unfold State.failOpen State.failAt
  split
  · simp only [State.delayUe_failWindow, State.pair_modPair_self]
  · simp only [State.pair_modPair_self]

theorem State.delayError_corrected (s : State) (p : Nat) : s.delayError p true =
    (s.modPair p fun x => { x with delayCe := satAdd x.delayCe 1 }).reportCell (cellOfPair p) 0 := rfl

/-- An uncorrectable delay-register error is recorded (R211). -/
theorem State.delayError_records (s : State) (p : Nat) : ((s.delayError p false).pair p).delayUe = true := by
  unfold State.delayError
  split
  · contradiction
  · split
    · rw [State.delayUe_failOpen, State.pair_modPair_self]
    · rw [State.pair_modPair_self]

/-- Settles O32: each command passes its rules by its `run` lemma, and `submit_answered` gives the answer. -/
theorem pairCommandsBeginTheirHandOvers : Obligations.PairCommandsBeginTheirHandOvers := by
  unfold Obligations.PairCommandsBeginTheirHandOvers
  refine ⟨?split, ?join, ?spare, ?inject⟩
  case split =>
    intro s pk c bs v hadm p part num ways hz ha hp hn hw hspare hsplit hr hj hnum hmax hread hok
    have hrun := opSplit_run hz ha hp hn hw hspare hsplit hr hj hnum hmax hread hok
    exact ⟨_, _, exec_split pk s, submit_answered hadm hrun (by decide) (Nat.zero_le _), s.splitBegun_only _ _ _ _ _ _⟩
  case join =>
    intro s pk c hadm p part hz ha hspare hsplit hr hj hrange
    exact ⟨_, _, exec_join pk s, submit_answered hadm (opJoin_run hz ha hspare hsplit hr hj hrange) (by decide)
      (Nat.zero_le _), s.modPair_only p _, State.pair_modPair_self _ _ _⟩
  case spare =>
    intro s pk c q hadm hk p hp hsplit hq hne hj hr
    have hrun := opSpare_run (pk := pk) hk hp hsplit hq hne hj hr
    exact ⟨_, _, exec_spare pk s, submit_answered hadm hrun (by decide) (Nat.zero_le _), s.spareBegun_only _ _ _⟩
  case inject =>
    intro s pk c hadm p w hw hspare hsplit hr
    refine ⟨_, _, exec_inject pk s, submit_answered hadm (opInject_run hw hspare hsplit hr) (by decide) (Nat.zero_le _),
      fun h2 => ?_, fun h0 => ?_, fun h1 => ?_⟩
    · rw [if_neg (show ¬ w = 0 by omega), decide_eq_false (show ¬ w = 1 by omega)]
      exact s.delayError_records p
    · rw [if_pos h0]
      exact ⟨s.modPair_only p _, State.pair_modPair_self s p _⟩
    · rw [if_neg (show ¬ w = 0 by omega), decide_eq_true h1, State.delayError_corrected]
      have honly := (s.modPair_only p fun x => { x with delayCe := satAdd x.delayCe 1 }).reportCell (cellOfPair p) 0
      refine ⟨State.rep_reportCell _ _ _, honly.1, honly.2, ?_⟩
      rw [State.pair_reportCell, State.pair_modPair_self]
      exact ⟨satAdd_one_toNat _, rfl⟩

end Sys2Proof.Machine
end

section
/-! SUPPORT. What no access to memory touches: the cores, the pairs, the rings and the partitions, the state of each cell, and
what each port owes. One lemma for each operation on memory, from the bytes of DRAM up to the ranges of a partition. -/

namespace Sys2Proof.Machine

/-- The part of the module that lies outside memory and its caches. -/
structure Outside where
  cores  : Tab Core
  pairs  : Tab Pair
  spares : Tab (Option Nat)
  rings  : Tab Ring
  parts  : Parts
  cells  : Nat → CState × List Asker
  waits  : Nat → List (Nat × BitVec 32 × Asker)

def State.outside (s : State) : Outside :=
  { cores := s.cores, pairs := s.pairs, spares := s.spares, rings := s.rings, parts := s.parts
    cells := fun c => (s.cst c, (s.cell c).stops), waits := fun n => (s.port n).msiWaits }

/-! ### Updates -/

@[simp] theorem State.outside_modCaches (s : State) (f : Caches → Caches) : (s.modCaches f).outside = s.outside := rfl
@[simp] theorem State.outside_modTier (s : State) (t : Nat) (f : Tier → Tier) : (s.modTier t f).outside = s.outside := rfl
@[simp] theorem State.outside_report (s : State) (r : Nat) : (s.report r).outside = s.outside := rfl
@[simp] theorem State.outside_pressure (s : State) (t kind : Nat) : (s.pressure t kind).outside = s.outside := rfl

theorem State.outside_ext {s t : State} (hcores : t.cores = s.cores) (hpairs : t.pairs = s.pairs) (hspares : t.spares = s.spares)
    (hrings : t.rings = s.rings) (hparts : t.parts = s.parts)
    (hcells : ∀ c, t.cst c = s.cst c ∧ (t.cell c).stops = (s.cell c).stops)
    (hwaits : ∀ n, (t.port n).msiWaits = (s.port n).msiWaits) : t.outside = s.outside := by
  simp only [State.outside, hcores, hpairs, hspares, hrings, hparts, hcells, hwaits]

/-- Work that reaches a cell leaves its state (R28). -/
@[simp] theorem State.outside_touchCell (s : State) (c : Nat) : (s.touchCell c).outside = s.outside := by
  refine State.outside_ext rfl rfl rfl rfl rfl (fun d => ?_) fun _ => rfl
  rw [State.cst, State.cst, State.touchCell, State.cell_modCell]
  split
  · next h =>
    subst h
    split <;> exact ⟨rfl, rfl⟩
  · exact ⟨rfl, rfl⟩

theorem State.outside_modPort (s : State) (n : Nat) {f : Port → Port} (hf : (f (s.port n)).msiWaits = (s.port n).msiWaits) :
    (s.modPort n f).outside = s.outside := by
  refine State.outside_ext rfl rfl rfl rfl rfl (fun _ => ⟨rfl, rfl⟩) fun m => ?_
  rw [State.port_modPort]
  split
  · next h => rw [h, hf]
  · rfl

@[simp] theorem State.outside_touchChans (s : State) (cs : List Nat) : (s.touchChans cs).outside = s.outside :=
  foldl_view State.outside (fun u c => u.outside_touchCell (cellNo 4 c)) cs s

/-! ### Direct memory -/

@[simp] theorem State.outside_rawWrite (s : State) (pa : Nat) (bs : Bytes) : (s.rawWrite pa bs).outside = s.outside := rfl
@[simp] theorem State.outside_clearPoison (s : State) (a b : Nat) : (s.clearPoison a b).outside = s.outside := rfl
@[simp] theorem State.outside_addIntent (s : State) (g pa : Nat) (bs : Bytes) : (s.addIntent g pa bs).outside = s.outside := rfl

@[simp] theorem State.outside_poisonRange (s : State) (pa n : Nat) : (s.poisonRange pa n).outside = s.outside :=
  foldl_view State.outside (f := fun u i => u.setPoison (pa / 64 + i)) (fun _ _ => rfl) _ s

@[simp] theorem State.outside_dramWrite (s : State) (pa : Nat) (bs : Bytes) : (s.dramWrite pa bs).outside = s.outside := by
  unfold State.dramWrite
  split
  · rfl
  · simp only [apply_ite State.outside, State.outside_addIntent, State.outside_rawWrite, State.outside_touchChans, ite_self]

@[simp] theorem State.outside_blockWrite (s : State) (pa : Nat) (bs : Bytes) : (s.blockWrite pa bs).outside = s.outside := by
  rw [State.blockWrite, State.outside_clearPoison, State.outside_dramWrite]

/-! ### The tier -/

@[simp] theorem State.outside_takeFrame (s : State) (t base f : Nat) : (s.takeFrame t base f).outside = s.outside := by
  rw [State.takeFrame, State.outside_modTier, State.setFrameBit, State.outside_dramWrite]

@[simp] theorem State.outside_dropFrame (s : State) (t pa : Nat) : (s.dropFrame t pa).outside = s.outside := by
  unfold State.dropFrame
  rw [State.outside_modTier]
  split
  · rw [State.setFrameBit, State.outside_dramWrite]
  · rfl

@[simp] theorem State.outside_poolWrite (s : State) (t pa : Nat) (line : Bytes) :
    (s.poolWrite t pa line).outside = s.outside := by
  rw [State.poolWrite, State.outside_modTier, State.outside_blockWrite]

@[simp] theorem State.outside_setDesc (s : State) (t i frame mask : Nat) :
    (s.setDesc t i frame mask).outside = s.outside := State.outside_dramWrite ..

/-- Whatever frame a line takes or gives up, its store reaches memory alone (R320). -/
theorem State.outside_tierStore {s u : State} {t i : Nat} {line : Bytes} (h : s.tierStore t i line = some u) :
    u.outside = s.outside := by
  unfold State.tierStore at h
  dsimp only at h
  split at h
  · obtain rfl := Option.some.inj h
    simp only [apply_ite State.outside, State.outside_dropFrame, State.outside_setDesc, State.outside_blockWrite, ite_self]
  · obtain rfl := Option.some.inj h
    rw [State.outside_blockWrite]
  · obtain rfl := Option.some.inj h
    rw [State.outside_poolWrite]
  · split at h
    · obtain rfl := Option.some.inj h
      rw [State.outside_blockWrite, State.outside_setDesc, State.outside_poolWrite]
    · split at h
      · obtain rfl := Option.some.inj h
        rw [State.outside_blockWrite, State.outside_setDesc, State.outside_poolWrite, State.outside_takeFrame]
      · cases h

@[simp] theorem State.outside_poisonTier (s : State) (t i : Nat) : (s.poisonTier t i).outside = s.outside := by
  unfold State.poisonTier
  dsimp only
  rw [State.outside_poisonRange]
  split
  · rw [State.outside_poisonRange]
  · rfl

@[simp] theorem State.outside_pinLine (s : State) (t i : Nat) (line : Bytes) : (s.pinLine t i line).outside = s.outside := by
  simp only [State.pinLine, apply_ite State.outside, State.outside_report, State.outside_pressure, State.outside_modTier,
    State.outside_modCaches, ite_self]

@[simp] theorem State.outside_unpin (s : State) (t i : Nat) : (s.unpin t i).outside = s.outside := by
  simp only [State.unpin, apply_ite State.outside, State.outside_pressure, State.outside_modTier, State.outside_modCaches,
    ite_self]

/-! ### Lines below the caches -/

@[simp] theorem State.outside_keepAs (s : State) (l : Nat) (b : Bytes) : (s.keepAs l b).outside = s.outside := by
  simp only [State.keepAs, apply_ite State.outside, State.outside_modCaches, ite_self]

@[simp] theorem State.outside_setBad (s : State) (l : Nat) (bad : Bool) : (s.setBad l bad).outside = s.outside := rfl

@[simp] theorem State.outside_comesIn (s : State) (l : Nat) : (s.comesIn l).outside = s.outside := by
  simp only [State.comesIn, apply_ite State.outside, State.outside_modCaches, State.outside_setBad, ite_self]

@[simp] theorem State.outside_noteRead (s : State) (l : Nat) : (s.noteRead l).outside = s.outside := by
  unfold State.noteRead
  dsimp only
  split
  · simp only [apply_ite State.outside, State.outside_report, State.outside_modTier, State.outside_touchChans, ite_self]
  · rw [State.outside_touchChans]

@[simp] theorem State.outside_memWrite (s : State) (d pa : Nat) (bs : Bytes) : (s.memWrite d pa bs).outside = s.outside := by
  unfold State.memWrite
  extract_lets l whole
  split
  · split
    · rw [State.outside_report, State.outside_modTier]
    · simp only [apply_ite State.outside, State.outside_setBad, State.outside_blockWrite, State.outside_dramWrite, ite_self]
  · rename_i u v bad line _ t i _
    have h : u.outside = s.outside := by
      simp only [u, apply_ite State.outside, State.outside_noteRead, State.outside_touchChans, ite_self]
    split
    · next v hv =>
      simp only [apply_ite State.outside, State.outside_poisonTier, State.outside_setBad, State.outside_unpin,
        State.outside_tierStore hv, ite_self, h]
    · rw [State.outside_setBad, State.outside_pinLine, h]
  · rfl
  · rfl

@[simp] theorem State.outside_markMemory (s : State) (l : Nat) : (s.markMemory l).outside = s.outside := by
  unfold State.markMemory
  split
  · rw [apply_ite State.outside, State.outside_poisonRange, ite_self]
  · rw [apply_ite State.outside, State.outside_poisonTier, ite_self]
  · rfl

@[simp] theorem State.outside_putBack (s : State) (l : Nat) (b : Bytes) (bad : Bool) :
    (s.putBack l b bad).outside = s.outside := by
  simp only [State.putBack, apply_ite State.outside, State.outside_setBad, State.outside_markMemory,
    State.outside_memWrite, ite_self]

@[simp] theorem State.outside_writeBack (s : State) (l : Nat) : (s.writeBack l).outside = s.outside := by
  unfold State.writeBack
  split
  · rfl
  · simp only [State.outside_keepAs, State.outside_modCaches, State.outside_putBack]

@[simp] theorem State.outside_evictSlice (s : State) (l : Nat) : (s.evictSlice l).outside = s.outside := by
  unfold State.evictSlice
  split
  · simp only [State.outside_setBad, State.outside_modCaches, State.outside_putBack]
  · exact s.outside_writeBack l

@[simp] theorem State.outside_putDirty (s : State) (pa : Nat) (bs : Bytes) : (s.putDirty pa bs).outside = s.outside := rfl

/-! ### The caches -/

@[simp] theorem State.outside_modSlice (s : State) (d : Nat) (f : Slice → Slice) : (s.modSlice d f).outside = s.outside := rfl

@[simp] theorem State.outside_sliceFill (s : State) (filler l : Nat) (dirty pf : Bool) :
    (s.sliceFill filler l dirty pf).outside = s.outside := by
  unfold State.sliceFill State.sliceFillIn
  extract_lets pa d set lf
  split
  · split
    · rfl
    · extract_lets u v
      have h : u.outside = s.outside := by
        simp only [u]
        split
        · rw [apply_ite State.outside, State.outside_evictSlice, ite_self]
        · rfl
      simp only [v, apply_ite State.outside, State.outside_modCaches, State.outside_modSlice, State.outside_comesIn, h, ite_self]
  · rfl

@[simp] theorem State.outside_leaveSlice (s : State) (l : Nat) : (s.leaveSlice l).outside = s.outside := rfl
@[simp] theorem State.outside_dirtySlice (s : State) (l : Nat) : (s.dirtySlice l).outside = s.outside := rfl

@[simp] theorem State.outside_toSlice (s : State) (filler l : Nat) : (s.toSlice filler l).outside = s.outside := by
  simp only [State.toSlice, apply_ite State.outside, State.outside_modCaches, State.outside_dirtySlice,
    State.outside_leaveSlice, State.outside_writeBack, State.outside_sliceFill, ite_self]

@[simp] theorem State.outside_dropL2 (s : State) (p l : Nat) : (s.dropL2 p l).outside = s.outside := by
  unfold State.dropL2
  split
  · rfl
  · rw [apply_ite State.outside, State.outside_toSlice, State.outside_modCaches, ite_self]

@[simp] theorem State.outside_dropOthers (s : State) (keep l : Nat) : (s.dropOthers keep l).outside = s.outside :=
  foldl_view State.outside (f := fun u p => if p = keep then u else u.dropL2 p l)
    (fun u p => by rw [apply_ite State.outside, State.outside_dropL2, ite_self]) _ s

@[simp] theorem State.outside_shareOthers (s : State) (keep l : Nat) : (s.shareOthers keep l).outside = s.outside := by
  unfold State.shareOthers
  refine foldl_view State.outside (fun u p => ?_) _ s
  split
  · rfl
  · split
    · rfl
    · simp only [apply_ite State.outside, State.outside_toSlice, State.outside_modCaches, ite_self]

@[simp] theorem State.outside_throughSlice (s : State) (d pa : Nat) (bs : Bytes) :
    (s.throughSlice d pa bs).outside = s.outside := by
  simp only [State.throughSlice, apply_ite State.outside, State.outside_leaveSlice, State.outside_writeBack,
    State.outside_putDirty, State.outside_keepAs, State.outside_memWrite, ite_self]

@[simp] theorem State.outside_writeThrough (s : State) (d pa : Nat) (bs : Bytes) :
    (s.writeThrough d pa bs).outside = s.outside := by
  unfold State.writeThrough
  dsimp only
  split
  · simp only [apply_ite State.outside, State.outside_keepAs, State.outside_modCaches, State.outside_memWrite, ite_self]
  · simp only [apply_ite State.outside, State.outside_setBad, State.outside_keepAs, State.outside_memWrite,
      State.outside_putDirty, ite_self]

@[simp] theorem State.outside_dmaLine (s : State) (d pa : Nat) (bs : Bytes) : (s.dmaLine d pa bs).outside = s.outside := by
  simp only [State.dmaLine, apply_ite State.outside, State.outside_throughSlice, State.outside_writeThrough,
    State.outside_dropOthers, ite_self]

@[simp] theorem State.outside_dmaWrite (s : State) (d pa : Nat) (bs : Bytes) : (s.dmaWrite d pa bs).outside = s.outside := by
  unfold State.dmaWrite
  refine foldl_view State.outside (fun u x => ?_) _ s
  rw [State.outside_dmaLine]

@[simp] theorem State.outside_dmaRead (s : State) (pa n : Nat) : (s.dmaRead pa n).outside = s.outside :=
  foldl_view State.outside (f := fun u l => u.dmaTouch l) (fun u l => by
    simp only [State.dmaTouch, apply_ite State.outside, State.outside_noteRead, State.outside_shareOthers, ite_self]) _ s

/-- The ways of an L2 that are emptied (R231, R232). -/
@[simp] theorem State.outside_emptyWays (s : State) (p : Nat) (way : Nat → Bool) :
    (s.emptyWays p way).outside = s.outside :=
  foldl_view State.outside (f := fun u l => if u.overPins (u.dropL2 p l) then u else u.dropL2 p l) (fun u l => by
    rw [apply_ite State.outside, State.outside_dropL2, ite_self]) _ s

/-! ### Windows of PCI Express -/

theorem State.outside_transaction (s : State) (port : Nat) : (s.transaction port).outside = s.outside :=
  s.outside_touchCell _

@[simp] theorem State.outside_pcieRead (s : State) (pa n : Nat) : (s.pcieRead pa n).2.outside = s.outside := by
  unfold State.pcieRead
  rw [State.outside_modPort]
  · exact State.outside_transaction { s with free := s.free + 1 } (windowPort pa)
  · rfl

theorem State.msiWaits_of_outside {s t : State} (h : t.outside = s.outside) (n : Nat) :
    (t.port n).msiWaits = (s.port n).msiWaits := by
  have e := congrFun (congrArg Outside.waits h) n
  exact e

/-- A latched vector that no wait asks for posts nothing (R565). -/
theorem State.outside_latchMsi {s : State} {port : Nat} (hw : (s.port port).msiWaits = []) (data : Nat) :
    (s.latchMsi port data).outside = s.outside := by
  have hu : (s.modPort port fun p => { p with msi := insertNat p.msi (data % 2048) }).outside = s.outside :=
    s.outside_modPort port rfl
  rw [State.latchMsi, State.serveMsi, State.msiWaits_of_outside hu, hw, List.foldl_nil, hu]

theorem State.outside_pcieWrite {s : State} {pa : Nat} (hw : (s.port (windowPort pa)).msiWaits = []) (bs : Bytes) :
    (s.pcieWrite pa bs).outside = s.outside := by
  unfold State.pcieWrite
  split
  · exact State.outside_latchMsi hw _
  · rw [State.outside_modPort, State.outside_transaction]
    rfl

/-! ### Ranges of a partition -/

@[simp] theorem State.outside_markAt (s : State) (pa e : Nat) (acc : Acc) : (s.markAt pa e acc).outside = s.outside := by
  rw [State.markAt, apply_ite State.outside, State.outside_dmaWrite, ite_self]

@[simp] theorem State.outside_markPath (s : State) (path : List (Nat × Nat)) (acc : Acc) :
    (s.markPath path acc).outside = s.outside := by
  have h : (path.dropLast.foldl (fun s p => s.markAt p.1 p.2 .read) s).outside = s.outside :=
    foldl_view State.outside (fun u p => by rw [State.outside_markAt]) _ s
  unfold State.markPath
  dsimp only
  split
  · rw [State.outside_markAt, h]
  · exact h

@[simp] theorem State.outside_markPart (s : State) (n gpa : Nat) (acc : Acc) : (s.markPart n gpa acc).outside = s.outside := by
  unfold State.markPart
  split
  · rw [State.markHost, State.outside_markPath]
  · rfl

theorem State.outside_partRange {s t : State} {n gpa len : Nat} {acc : Acc} {ps : List (Nat × Nat)}
    (h : s.partRange n gpa len acc = some (ps, t)) : t.outside = s.outside := by
  unfold State.partRange at h
  revert ps t
  refine List.foldlRecOn (motive := fun r => ∀ {t : State} {ps : List (Nat × Nat)}, r = some (ps, t) → t.outside = s.outside)
    _ _ (fun e => ?_) fun r hr p _ => ?_
  · cases e
    rfl
  · intro t ps e
    split at e
    · cases e
    · split at e
      · cases e
        rw [State.outside_markPart, hr rfl]
      · cases e

theorem State.outside_readPieces (s : State) (ps : List (Nat × Nat)) : (s.readPieces ps).2.outside = s.outside := by
  induction ps generalizing s with
  | nil => rfl
  | cons p ps ih =>
    rw [State.readPieces]
    dsimp only
    rw [ih]
    split
    · exact s.outside_pcieRead _ _
    · exact s.outside_dmaRead _ _

/-- Where no port waits for a vector, a write posts no completion. -/
theorem State.outside_writePieces {s : State} (hw : ∀ n, (s.port n).msiWaits = []) (d : Nat) (ps : List (Nat × Nat))
    (bs : Bytes) : (s.writePieces d ps bs).outside = s.outside := by
  induction ps generalizing s bs with
  | nil => rfl
  | cons p ps ih =>
    have h : (if inWindow p.1 then s.pcieWrite p.1 (bs.take p.2) else s.dmaWrite d p.1 (bs.take p.2)).outside = s.outside := by
      split
      · exact State.outside_pcieWrite (hw _) _
      · exact s.outside_dmaWrite _ _ _
    rw [State.writePieces, ih (fun n => by rw [State.msiWaits_of_outside h, hw]), h]

theorem State.outside_readPart {s t : State} {n gpa len : Nat} {bs : Bytes} (h : s.readPart n gpa len = some (bs, t)) :
    t.outside = s.outside := by
  unfold State.readPart at h
  split at h
  · cases h
  · next ps u hu =>
    split at h
    · cases h
    · have e : (u.readPieces ps).2 = t := congrArg Prod.snd (Option.some.inj h)
      rw [← e, State.outside_readPieces, State.outside_partRange hu]

/-! ### State areas -/

/-- An access that was made is what it does (R28, R306). -/
theorem State.reachVia_some {α : Type} {s v : State} {tables ps : List (Nat × Nat)} {write : Bool}
    {act : State → α × State} {a : α} (h : s.reachVia tables ps write act = (some a, v)) : act s = (a, v) := by
  unfold State.reachVia State.reach at h
  split at h
  · cases h
  · split at h
    · cases h
    · dsimp only at h
      split at h
      · split at h
        · cases h
        · cases h
          rfl
      · cases h

theorem State.outside_readArea {s v : State} {n gpa : Nat} {bs : Bytes} (h : s.readArea n gpa = (some (some bs), v)) :
    v.outside = s.outside := by
  unfold State.readArea at h
  split at h
  · cases h
  · have e := State.reachVia_some h
    split at e
    · next b t ht =>
      cases e
      exact State.outside_readPart ht
    · cases e

theorem State.outside_writeArea {s v : State} {n gpa d : Nat} {bs : Bytes} (hw : ∀ n, (s.port n).msiWaits = [])
    (h : s.writeArea n gpa d bs = (some true, v)) : v.outside = s.outside := by
  unfold State.writeArea at h
  split at h
  · cases h
  · next ps t ht =>
    have ho := State.outside_partRange ht
    split at h
    · next hr =>
      cases h
      have e := congrArg Prod.snd (State.reachVia_some hr)
      dsimp only at e
      rw [← e, State.outside_writePieces (fun n => by rw [State.msiWaits_of_outside ho, hw]), ho]
    · cases h

end Sys2Proof.Machine
end

section
/-! SUPPORT. The end of a hand-over (R230 to R236): what each update of it leaves, and the states that SPLIT, JOIN and SPARE
end in. -/

namespace Sys2Proof.Machine

/-! ### Updates -/

theorem State.cst_modCell (s : State) (c : Nat) (f : Cell → Cell) (d : Nat) :
    (s.modCell c f).cst d = if d = c then (f (s.cell c)).st else s.cst d := by
  rw [State.cst, State.cell_modCell]
  split <;> rfl

theorem State.cst_setCst (s : State) (c : Nat) (st : CState) (d : Nat) :
    (s.setCst c st).cst d = if d = c then st else s.cst d :=
  s.cst_modCell c _ d

@[simp] theorem State.pair_modCell (s : State) (c : Nat) (f : Cell → Cell) (p : Nat) : (s.modCell c f).pair p = s.pair p := rfl
@[simp] theorem State.pair_setCst (s : State) (c : Nat) (st : CState) (p : Nat) : (s.setCst c st).pair p = s.pair p := rfl
@[simp] theorem State.pair_emptyL1 (s : State) (c p : Nat) : (s.emptyL1 c).pair p = s.pair p := rfl
@[simp] theorem State.pair_setWhole (s : State) (c : Nat) (b : Bool) (p : Nat) : (s.setWhole c b).pair p = s.pair p := rfl
@[simp] theorem State.pair_modCaches (s : State) (f : Caches → Caches) (p : Nat) : (s.modCaches f).pair p = s.pair p := rfl
@[simp] theorem State.core_modCaches (s : State) (f : Caches → Caches) (d : Nat) : (s.modCaches f).core d = s.core d := rfl
@[simp] theorem State.core_modCell (s : State) (c : Nat) (f : Cell → Cell) (d : Nat) : (s.modCell c f).core d = s.core d := rfl
@[simp] theorem State.core_setCst (s : State) (c : Nat) (st : CState) (d : Nat) : (s.setCst c st).core d = s.core d := rfl
@[simp] theorem State.core_modParts (s : State) (f : Parts → Parts) (d : Nat) : (s.modParts f).core d = s.core d := rfl
@[simp] theorem State.core_emptyL1 (s : State) (c d : Nat) : (s.emptyL1 c).core d = s.core d := rfl
@[simp] theorem State.core_setWhole (s : State) (c : Nat) (b : Bool) (d : Nat) : (s.setWhole c b).core d = s.core d := rfl
@[simp] theorem State.core_complete (s : State) (who : Asker) (status detail : Nat) (results : Bytes) (d : Nat) :
    (s.complete who status detail results).core d = s.core d := rfl
@[simp] theorem State.cell_modPair (s : State) (p : Nat) (f : Pair → Pair) (d : Nat) : (s.modPair p f).cell d = s.cell d := rfl
@[simp] theorem State.cell_modCore (s : State) (c : Nat) (f : Core → Core) (d : Nat) : (s.modCore c f).cell d = s.cell d := rfl
@[simp] theorem State.cell_modParts (s : State) (f : Parts → Parts) (d : Nat) : (s.modParts f).cell d = s.cell d := rfl
@[simp] theorem State.cell_modCaches (s : State) (f : Caches → Caches) (d : Nat) : (s.modCaches f).cell d = s.cell d := rfl
@[simp] theorem State.cell_emptyL1 (s : State) (c d : Nat) : (s.emptyL1 c).cell d = s.cell d := rfl
@[simp] theorem State.cell_setWhole (s : State) (c : Nat) (b : Bool) (d : Nat) : (s.setWhole c b).cell d = s.cell d := rfl
@[simp] theorem State.rings_modPair (s : State) (p : Nat) (f : Pair → Pair) : (s.modPair p f).rings = s.rings := rfl
@[simp] theorem State.rings_modCore (s : State) (c : Nat) (f : Core → Core) : (s.modCore c f).rings = s.rings := rfl
@[simp] theorem State.rings_modCell (s : State) (c : Nat) (f : Cell → Cell) : (s.modCell c f).rings = s.rings := rfl
@[simp] theorem State.rings_setCst (s : State) (c : Nat) (st : CState) : (s.setCst c st).rings = s.rings := rfl
@[simp] theorem State.rings_modParts (s : State) (f : Parts → Parts) : (s.modParts f).rings = s.rings := rfl
@[simp] theorem State.rings_modCaches (s : State) (f : Caches → Caches) : (s.modCaches f).rings = s.rings := rfl
@[simp] theorem State.rings_emptyL1 (s : State) (c : Nat) : (s.emptyL1 c).rings = s.rings := rfl
@[simp] theorem State.rings_setWhole (s : State) (c : Nat) (b : Bool) : (s.setWhole c b).rings = s.rings := rfl
@[simp] theorem State.cst_complete (s : State) (who : Asker) (status detail : Nat) (results : Bytes) (d : Nat) :
    (s.complete who status detail results).cst d = s.cst d := rfl

@[simp] theorem State.cell_complete (s : State) (who : Asker) (status detail : Nat) (results : Bytes) (d : Nat) :
    (s.complete who status detail results).cell d = s.cell d := rfl
@[simp] theorem State.spareOf_complete (s : State) (who : Asker) (status detail : Nat) (results : Bytes) (p : Nat) :
    (s.complete who status detail results).spareOf p = s.spareOf p := rfl
@[simp] theorem State.spareOf_modCell (s : State) (c : Nat) (f : Cell → Cell) (p : Nat) :
    (s.modCell c f).spareOf p = s.spareOf p := rfl
@[simp] theorem State.spareOf_reportStop (s : State) (c p : Nat) : (s.reportStop c).spareOf p = s.spareOf p := rfl
@[simp] theorem State.rings_reportStop (s : State) (c : Nat) : (s.reportStop c).rings = s.rings := rfl

theorem Posted.of_rings {s t u : State} {who : Asker} {status : Nat} {results : Bytes} (h : Posted s t who status results)
    (hu : u.rings = t.rings) : Posted s u who status results := by
  rw [Posted, State.ring, hu]
  exact h

/-- A completion without results is posted behind what its ring holds (R63). -/
theorem State.posted_complete {s u : State} (h : u.rings = s.rings) (who : Asker) (status : Nat) :
    Posted s (u.complete who status 0 []) who status [] := by
  rw [Posted, State.complete, State.reply, State.ring_modRing, if_pos rfl, State.ring, State.ring, h]
  rfl

/-! ### What lies outside memory -/

theorem State.cores_of_outside {s t : State} (h : t.outside = s.outside) (c : Nat) : t.core c = s.core c := by
  have e := congrArg Outside.cores h
  exact congrArg (fun x => tabGet Core.reset x c) e

theorem State.pairs_of_outside {s t : State} (h : t.outside = s.outside) (p : Nat) : t.pair p = s.pair p := by
  have e := congrArg Outside.pairs h
  exact congrArg (fun x => tabGet Pair.reset x p) e

theorem State.rings_of_outside {s t : State} (h : t.outside = s.outside) : t.rings = s.rings := by
  have e := congrArg Outside.rings h
  exact e

theorem State.parts_of_outside {s t : State} (h : t.outside = s.outside) : t.parts = s.parts := by
  have e := congrArg Outside.parts h
  exact e

theorem State.cst_of_outside {s t : State} (h : t.outside = s.outside) (c : Nat) : t.cst c = s.cst c := by
  have e := congrArg Prod.fst (congrFun (congrArg Outside.cells h) c)
  exact e

theorem State.stops_of_outside {s t : State} (h : t.outside = s.outside) (c : Nat) : (t.cell c).stops = (s.cell c).stops := by
  have e := congrArg Prod.snd (congrFun (congrArg Outside.cells h) c)
  exact e

/-! ### Cells of pairs -/

theorem cellOfPair_lt {p : Nat} (h : p < 52) : cellOfPair p = cellNo 1 p := if_pos h

theorem cellNo_pair_ne_core {p : Nat} (h : p < 52) (c : Nat) : cellNo 1 p ≠ cellNo 2 c := by
  unfold cellNo
  omega

theorem cellNo_ne {k a b : Nat} (h : a ≠ b) : cellNo k a ≠ cellNo k b := by
  unfold cellNo
  omega

/-! ### SPLIT_COMPLETE -/

/-- The pair after a SPLIT (R231), from the state in which the shadow's ways are empty. -/
def State.splitInto (u : State) (p ways : Nat) (bs : Bytes) : State :=
  let lead := leaderOf p
  let s := u.modPair p fun x => { x with mode := 1, job := none, shadowWays := BitVec.ofNat 4 ways, ccLeft := 0 }
  let s := (s.setWhole lead false).emptyL1 (lead + 1)
  let s := s.modCore (lead + 1) fun _ => { Core.reset with arch := areaArch bs }
  let x := s.cell (cellOfPair p)
  let s := s.modCell (cellNo 2 lead) fun c =>
    { c with st := if (s.core lead).clockOff then .asleep else .running, waking := x.waking, idleFrom := s.now }
  s.setCst (cellNo 2 (lead + 1)) .running

theorem exec_splitComplete_splits {s v : State} {p : PairId} {part num ways area : Nat} {who : Asker} {bs : Bytes}
    (hj : (s.pair p).job = some (.split part num ways area who)) (hrest : s.atRest p = true)
    (ha : s.readArea part area = (some (some bs), v))
    (hw : ((v.emptyWays p fun w => decide (16 - ways ≤ w)).holdsL2 p fun w => decide (16 - ways ≤ w)) = false) :
    exec (.splitComplete p) s =
      .next (((v.emptyWays p fun w => decide (16 - ways ≤ w)).splitInto p ways bs).complete who 0 0 []) := by
  show execSplitComplete p s = _
  simp only [execSplitComplete, hj, hrest, ha, hw, Bool.not_true, Bool.false_eq_true, if_false]
  rfl

theorem State.splitInto_pair (u : State) (p ways : Nat) (bs : Bytes) : (u.splitInto p ways bs).pair p =
    { u.pair p with mode := 1, job := none, shadowWays := BitVec.ofNat 4 ways, ccLeft := 0 } := by
  simp only [State.splitInto, State.pair_setCst, State.pair_modCell, State.pair_modCore, State.pair_emptyL1,
    State.pair_setWhole, State.pair_modPair_self]

theorem State.splitInto_shadow (u : State) (p ways : Nat) (bs : Bytes) :
    ((u.splitInto p ways bs).core (leaderOf p + 1)).arch = areaArch bs := by
  simp only [State.splitInto, State.core_setCst, State.core_modCell, State.core_modCore_self]

theorem State.splitInto_leader (u : State) (p ways : Nat) (bs : Bytes) :
    (u.splitInto p ways bs).core (leaderOf p) = u.core (leaderOf p) := by
  have hne : leaderOf p ≠ leaderOf p + 1 := by omega
  simp only [State.splitInto, State.core_setCst, State.core_modCell, State.core_modCore_ne _ _ hne, State.core_emptyL1,
    State.core_setWhole, State.core_modPair]

theorem State.splitInto_cells (u : State) (p ways : Nat) (bs : Bytes) :
    (u.splitInto p ways bs).cst (cellNo 2 (leaderOf p)) = (if (u.core (leaderOf p)).clockOff then .asleep else .running) ∧
      (u.splitInto p ways bs).cst (cellNo 2 (leaderOf p + 1)) = .running := by
  have hne : leaderOf p ≠ leaderOf p + 1 := by omega
  have hcell : cellNo 2 (leaderOf p) ≠ cellNo 2 (leaderOf p + 1) := cellNo_ne hne
  constructor
  · simp only [State.splitInto, State.cst_setCst, State.cst_modCell, if_neg hcell, if_true, State.core_modCore_ne _ _ hne,
      State.core_emptyL1, State.core_setWhole, State.core_modPair]
  · simp only [State.splitInto, State.cst_setCst, if_true]

theorem State.rings_splitInto (u : State) (p ways : Nat) (bs : Bytes) : (u.splitInto p ways bs).rings = u.rings := by
  simp only [State.splitInto, State.rings_setCst, State.rings_modCell, State.rings_modCore, State.rings_emptyL1,
    State.rings_setWhole, State.rings_modPair]

/-! ### JOIN_COMPLETE -/

/-- The pair after a JOIN (R232), from the state in which the shadow's ways are empty. -/
def State.joinInto (u : State) (p : Nat) : State :=
  let lead := leaderOf p
  let s := (u.emptyL1 (lead + 1)).emptyL1 lead
  let s := s.modCore lead fun c => c.finish
  let a := (s.core lead).arch
  let s := s.modPair p fun x =>
    { x with mode := if x.cloveDead then 2 else 0, job := none, shadowWays := 0, ckpt := a, ckptLost := false,
             ccLeft := if x.busDead then 0 else 17, closed := [], committed := [],
             opened := Window.empty (x.opened.number + 1) }
  let s := s.modCore (lead + 1) fun _ => Core.reset
  let s := (s.modParts fun t => { t with procs := t.procs.filter fun q => q.core != lead + 1 }).setWhole lead true
  let x := s.cell (cellNo 2 lead)
  let s := s.modCell (cellOfPair p) fun c => { c with st := x.st, waking := x.waking, idleFrom := x.idleFrom }
  (s.setCst (cellNo 2 lead) .stopped).setCst (cellNo 2 (lead + 1)) .stopped

theorem exec_joinComplete_joins {s v : State} {p : PairId} {part area : Nat} {who : Asker}
    (hj : (s.pair p).job = some (.join part area who))
    (ha : s.writeArea part area (dieOfPair p) (areaBytes s (leaderOf p + 1)) = (some true, v))
    (hw : ((v.emptyWays p fun w => decide (16 - (s.pair p).shadowWays.toNat ≤ w)).holdsL2 p fun w =>
      decide (16 - (s.pair p).shadowWays.toNat ≤ w)) = false) :
    exec (.joinComplete p) s =
      .next (((v.emptyWays p fun w => decide (16 - (s.pair p).shadowWays.toNat ≤ w)).joinInto p).complete who 0 0 []) := by
  show execJoinComplete p s = _
  simp only [execJoinComplete, hj, ha, hw, Bool.false_eq_true, if_false]
  rfl

theorem State.joinInto_pair (u : State) (p : Nat) : (u.joinInto p).pair p =
    { u.pair p with
      mode := if (u.pair p).cloveDead then 2 else 0, job := none, shadowWays := 0
      ckpt := (u.core (leaderOf p)).finish.arch, ckptLost := false, ccLeft := if (u.pair p).busDead then 0 else 17
      closed := [], committed := [], opened := Window.empty ((u.pair p).opened.number + 1) } := by
  simp only [State.joinInto, State.pair_setCst, State.pair_modCell, State.pair_modCore, State.pair_emptyL1,
    State.pair_setWhole, State.pair_modParts, State.pair_modPair_self, State.core_modCore_self, State.core_emptyL1]
  rfl

theorem State.joinInto_leader (u : State) (p : Nat) :
    ((u.joinInto p).core (leaderOf p)).arch = (u.core (leaderOf p)).finish.arch := by
  have hne : leaderOf p ≠ leaderOf p + 1 := by omega
  simp only [State.joinInto, State.core_setCst, State.core_modCell, State.core_setWhole, State.core_modParts,
    State.core_modCore_ne _ _ hne, State.core_modPair, State.core_modCore_self, State.core_emptyL1]

theorem State.joinInto_cell (u : State) {p : Nat} (hp : p < 52) :
    (u.joinInto p).cst (cellOfPair p) = u.cst (cellNo 2 (leaderOf p)) := by
  have hne := cellNo_pair_ne_core hp
  simp only [State.joinInto, cellOfPair_lt hp, State.cst_setCst, State.cst_modCell, if_neg (hne _), if_true, State.cell_setWhole,
    State.cell_modParts, State.cell_modCore, State.cell_modPair, State.cell_emptyL1]
  rfl

theorem State.joinInto_procs (u : State) (p : Nat) : ∀ q ∈ (u.joinInto p).parts.procs, q.core ≠ leaderOf p + 1 := by
  have h : (u.joinInto p).parts.procs = (u.parts.procs.filter fun q => q.core != leaderOf p + 1).map fun q =>
      if q.core = leaderOf p then { q with whole := true } else q := rfl
  intro q hq
  rw [h] at hq
  obtain ⟨r, hr, rfl⟩ := List.mem_map.1 hq
  have hcore : r.core ≠ leaderOf p + 1 := by simpa using (List.mem_filter.1 hr).2
  split
  · exact hcore
  · exact hcore

theorem State.rings_joinInto (u : State) (p : Nat) : (u.joinInto p).rings = u.rings := by
  simp only [State.joinInto, State.rings_setCst, State.rings_modCell, State.rings_modCore, State.rings_emptyL1,
    State.rings_setWhole, State.rings_modParts, State.rings_modPair]

/-! ### SPARE_HANDOVER -/

/-- The checkpoint of a pair as its spare loads it: events of the discarded windows are kept (R192, R233). -/
def Pair.handed (x : Pair) : Arch :=
  { x.ckpt with ps := x.ckpt.ps ||| (if x.uncommitted.any Window.ev then 0x200#64 else 0) }

/-- The spare with the work and the checkpoint of another pair (R234). -/
def Pair.takesOver (a : Arch) (x : Pair) : Pair :=
  { x with ckpt := a, ckptLost := false, sparedIn := true, ccLeft := if x.busDead then 0 else 17, failRun := 0,
           failing := none, owed := false, closed := [], committed := [], opened := Window.empty 0, restarting := false
           sparedOut := false }

/-- The pair whose work a spare has taken (R234). -/
def Pair.givesUp (x : Pair) : Pair :=
  { x with job := none, committed := [], closed := [], opened := Window.empty 0, sparedOut := true }

/-- The spare runs what the pair ran (R233, R234), from the state in which the pair's caches are empty; `g` passes
its way locks on (R265). -/
def State.spareInto (u : State) (p q : Nat) (a : Arch) (g : Caches → Caches) : State :=
  let s := u.modPair q (Pair.takesOver a)
  let s := s.modCore (leaderOf q) fun _ => { Core.reset with arch := a }
  let s := s.modPair p Pair.givesUp
  let s := s.modParts fun t =>
    { t with procs := t.procs.map fun x => if x.core = leaderOf p then { x with core := leaderOf q } else x }
  let s := s.modCaches g
  s.setCst (cellOfPair q) .running

/-- The pair's caches are empty. -/
def State.emptied (s : State) (p : Nat) : State := (s.emptyWays p fun _ => true).emptyL1 (leaderOf p)

theorem State.outside_emptied (s : State) (p : Nat) : (s.emptied p).outside = s.outside :=
  s.outside_emptyWays p fun _ => true

theorem State.pair_spareInto_target (u : State) {p q : Nat} (hq : q ≠ p) (a : Arch) (g : Caches → Caches) :
    (u.spareInto p q a g).pair q = (u.pair q).takesOver a := by
  simp only [State.spareInto, State.pair_setCst, State.pair_modCaches, State.pair_modParts, State.pair_modPair_ne _ _ hq,
    State.pair_modCore, State.pair_modPair_self]

theorem State.job_spareInto (u : State) (p q : Nat) (a : Arch) (g : Caches → Caches) :
    ((u.spareInto p q a g).pair p).job = none := by
  simp only [State.spareInto, State.pair_setCst, State.pair_modCaches, State.pair_modParts, State.pair_modPair_self,
    Pair.givesUp]

theorem State.core_spareInto (u : State) (p q : Nat) (a : Arch) (g : Caches → Caches) :
    ((u.spareInto p q a g).core (leaderOf q)).arch = a := by
  simp only [State.spareInto, State.core_setCst, State.core_modCaches, State.core_modParts, State.core_modPair,
    State.core_modCore_self]

theorem State.cst_spareInto (u : State) (p q : Nat) (a : Arch) (g : Caches → Caches) :
    (u.spareInto p q a g).cst (cellOfPair q) = .running := by
  simp only [State.spareInto, State.cst_setCst, if_true]

theorem State.rings_spareInto (u : State) (p q : Nat) (a : Arch) (g : Caches → Caches) (c : Nat) (f : Cell → Cell) :
    ((u.spareInto p q a g).modCell c f).rings = u.rings := by
  simp only [State.spareInto, State.rings_modCell, State.rings_setCst, State.rings_modCaches, State.rings_modParts,
    State.rings_modPair, State.rings_modCore]

theorem State.procs_spareInto (u : State) (p q : Nat) (a : Arch) (g : Caches → Caches) (c : Nat) (f : Cell → Cell) :
    ((u.spareInto p q a g).modCell c f).parts.procs =
      u.parts.procs.map fun x => if x.core = leaderOf p then { x with core := leaderOf q } else x := rfl

@[simp] theorem State.parts_complete (s : State) (who : Asker) (status detail : Nat) (results : Bytes) :
    (s.complete who status detail results).parts = s.parts := rfl

theorem State.cell_spareInto (u : State) {p q : Nat} (h : cellOfPair p ≠ cellOfPair q) (a : Arch) (g : Caches → Caches) :
    (u.spareInto p q a g).cell (cellOfPair p) = u.cell (cellOfPair p) := by
  simp only [State.spareInto, State.setCst, State.cell_modCell, if_neg h, State.cell_modCaches, State.cell_modParts,
    State.cell_modPair, State.cell_modCore]

/-- A hand-over by SPARE without stores to release leaves the pair STOPPED and answers no STOP (R195, R234). -/
theorem State.handOver_eq {s : State} {p q : Nat} (hne : cellOfPair p ≠ cellOfPair q) (hc : (s.pair p).committed = [])
    (hstops : s.cst (cellOfPair p) ≠ .faulted → (s.cell (cellOfPair p)).stops = []) :
    ∃ (f : Cell → Cell) (g : Caches → Caches), (∀ x, (f x).st = .stopped) ∧
      s.handOver p q true = ((s.emptied p).spareInto p q (s.pair p).handed g).modCell (cellOfPair p) f := by
  have ho := s.outside_emptied p
  have hcst := State.cst_of_outside ho (cellOfPair p)
  have hp := State.pairs_of_outside ho p
  obtain ⟨g, heq⟩ : ∃ g, s.handOver p q true =
      let a0 := ((s.emptied p).pair p).ckpt
      let a : Arch := { a0 with ps := a0.ps ||| (if (s.pair p).uncommitted.any Window.ev then 0x200#64 else 0) }
      let t := (s.emptied p).spareInto p q a g
      if !((s.emptied p).cst (cellOfPair p) == .faulted) then t.cellStops (cellOfPair p)
      else t.setCst (cellOfPair p) .stopped := by
    simp only [State.handOver, hc, List.foldl_nil, if_true]
    exact ⟨_, rfl⟩
  rw [heq, hcst, hp]
  by_cases hf : s.cst (cellOfPair p) = .faulted
  · rw [hf]
    exact ⟨fun x => { x with st := .stopped }, g, fun _ => rfl, rfl⟩
  · have hs : ((s.emptied p).cell (cellOfPair p)).stops = [] := by
      rw [State.stops_of_outside ho, hstops hf]
    rw [if_pos (by simp [hf]), State.cellStops, State.cell_spareInto _ hne, hs]
    exact ⟨fun x => { x with st := .stopped, waking := false, sleepAsked := false, stops := [] }, g, fun _ => rfl, rfl⟩

theorem exec_spareHandover_moves {s : State} {p : PairId} {q : Nat} {who : Asker}
    (hj : (s.pair p).job = some (.spare q (some who))) (hc : (s.pair p).committed = [])
    (hrest : s.cst (cellOfPair p) ≠ .faulted → s.atRest p = true) (hck : (s.pair p).ckptLost = false)
    (hw : ((s.emptyWays p fun _ => true).holdsL2 p fun _ => true) = false) :
    exec (.spareHandover p) s = .next ((s.handOver p q true).complete who 0 0 []) := by
  have hready : (s.cst (cellOfPair p) != .faulted && !s.atRest p) = false := by
    by_cases h : s.cst (cellOfPair p) = .faulted
    · rw [h]
      rfl
    · rw [hrest h, Bool.not_true, Bool.and_false]
  show execSpareHandover p s = _
  simp only [execSpareHandover, hj, hready, hc, hck, hw, List.isEmpty_nil, Bool.not_true, Bool.or_false, Bool.false_eq_true,
    if_false, Option.isSome_some]

theorem State.committed_of_atRest {s : State} {p : Nat} (h : s.atRest p = true) : (s.pair p).committed = [] := by
  simp only [State.atRest, Bool.and_eq_true, List.isEmpty_iff] at h
  exact h.1.1.1.2

/-! ### A checkpoint that is lost -/

theorem exec_spareHandover_fails {s : State} {p : PairId} {q : Nat} {who : Option Asker}
    (hj : (s.pair p).job = some (.spare q who)) (hrest : s.atRest p = true) (hck : (s.pair p).ckptLost = true) :
    exec (.spareHandover p) s = .next (s.checkpointFails p) := by
  show execSpareHandover p s = _
  simp only [execSpareHandover, hj, hrest, State.committed_of_atRest hrest, hck, List.isEmpty_nil, Bool.not_true, Bool.and_false,
    Bool.or_false, Bool.false_eq_true, if_false, if_true]

/-- The spare that SPARE had taken serves its die again (R211). -/
def State.freeSpare (s : State) (p q : Nat) : State :=
  { (s.modPair p fun x => { x with job := none }) with spares := tabPut none s.spares (p / 13) (some q) }

theorem State.job_freeSpare (s : State) (p q : Nat) : ((s.freeSpare p q).pair p).job = none := by
  have h : (s.freeSpare p q).pair p = (s.modPair p fun x => { x with job := none }).pair p := rfl
  rw [h, State.pair_modPair_self]

theorem State.cell_freeSpare (s : State) (p q c : Nat) : (s.freeSpare p q).cell c = s.cell c := rfl
theorem State.rings_freeSpare (s : State) (p q : Nat) : (s.freeSpare p q).rings = s.rings := rfl

theorem State.spareOf_freeSpare (s : State) (p q : Nat) : (s.freeSpare p q).spareOf p = some q := by
  rw [State.spareOf, State.freeSpare, tabGet_tabPut, if_pos rfl]

theorem State.abandonJob_spare {s : State} {p q : Nat} {who : Asker} (hj : (s.pair p).job = some (.spare q (some who))) :
    s.abandonJob p = (s.freeSpare p q).complete who 0x0503 0 [] := by
  simp only [State.abandonJob, hj]
  rfl

/-- A cell that owes no STOP posts nothing as it fails (R51). -/
theorem State.failCell_silent {s : State} {c : Nat} (h : (s.cell c).stops = []) : s.failCell c = s.modCell c Cell.failed := by
  rw [State.failCell, h]
  rfl

theorem State.checkpointFails_spare {s : State} {p q : Nat} {who : Asker} (hj : (s.pair p).job = some (.spare q (some who)))
    (hstops : (s.cell (cellOfPair p)).stops = []) :
    ((s.checkpointFails p).pair p).job = none ∧ (s.checkpointFails p).spareOf p = some q ∧
      Posted s (s.checkpointFails p) who 0x0503 [] := by
  have h : s.checkpointFails p = ((((s.freeSpare p q).complete who 0x0503 0 []).modPair p fun x =>
      { x with restarting := false }).modCell (cellOfPair p) Cell.failed).reportStop (leaderOf p) := by
    rw [State.checkpointFails, State.abandonJob_spare hj, State.failCell_silent]
    rw [State.cell_modPair, State.cell_complete, State.cell_freeSpare, hstops]
  have hpost := State.posted_complete (s.rings_freeSpare p q) who 0x0503
  rw [h]
  refine ⟨?_, ?_, hpost.of_rings ?_⟩
  · rw [State.pair_reportStop, State.pair_modCell, State.pair_modPair_self, State.pair_complete]
    exact s.job_freeSpare p q
  · rw [State.spareOf_reportStop, State.spareOf_modCell, State.spareOf_modPair, State.spareOf_complete,
      State.spareOf_freeSpare]
  · rw [State.rings_reportStop, State.rings_modCell, State.rings_modPair]

/-! ### The hand-overs -/

/-- Settles O33: each hand-over ends in the state that its lemmas above name, built on a state that differs from the first one
in memory and its caches alone; the completion is posted last. -/
theorem handOversFinishAtRest : Obligations.HandOversFinishAtRest := by
  unfold Obligations.HandOversFinishAtRest
  refine ⟨?split, ?join, ?spare, ?lost⟩
  case split =>
    intro s v p part num ways area who bs hp hj hrest ha hw
    have ho := (v.outside_emptyWays p fun w => decide (16 - ways ≤ w)).trans (State.outside_readArea ha)
    refine ⟨_, exec_splitComplete_splits hj hrest ha hw, ?_⟩
    generalize (v.emptyWays p fun w => decide (16 - ways ≤ w)) = u at ho
    have hrings : (u.splitInto p ways bs).rings = s.rings := (u.rings_splitInto p ways bs).trans (State.rings_of_outside ho)
    obtain ⟨hleader, hshadow⟩ := u.splitInto_cells p ways bs
    rw [State.pair_complete, State.splitInto_pair, State.core_complete, State.core_complete, State.splitInto_shadow,
      State.splitInto_leader, State.cst_complete, State.cst_complete, hleader, hshadow, State.cores_of_outside ho]
    exact ⟨rfl, rfl, rfl, rfl, rfl, rfl, rfl, State.posted_complete hrings who 0⟩
  case join =>
    intro s v p part area who hp hj sh ha hw hwaits
    have ho := (v.outside_emptyWays p fun w => decide (16 - sh ≤ w)).trans (State.outside_writeArea hwaits ha)
    refine ⟨_, exec_joinComplete_joins hj ha hw, ?_⟩
    generalize (v.emptyWays p fun w => decide (16 - (s.pair p).shadowWays.toNat ≤ w)) = u at ho
    have hrings : (u.joinInto p).rings = s.rings := (u.rings_joinInto p).trans (State.rings_of_outside ho)
    rw [State.pair_complete, State.joinInto_pair, State.core_complete, State.joinInto_leader, State.cst_complete,
      State.joinInto_cell u hp, State.cores_of_outside ho, State.pairs_of_outside ho, State.cst_of_outside ho]
    exact ⟨rfl, rfl, rfl, rfl, rfl, rfl, rfl, rfl, u.joinInto_procs p, State.posted_complete hrings who 0⟩
  case spare =>
    intro s p q who hp hq hne hj hrest hck hw
    have hcells : cellOfPair p ≠ cellOfPair q := by
      rw [cellOfPair_lt hp, cellOfPair_lt hq]
      exact cellNo_ne hne.symm
    have hc : (s.pair p).committed = [] := hrest.elim (·.2) (State.committed_of_atRest ·.1)
    have hstops : s.cst (cellOfPair p) ≠ .faulted → (s.cell (cellOfPair p)).stops = [] :=
      fun h => hrest.elim (absurd ·.1 h) (·.2)
    have hboundary : s.cst (cellOfPair p) ≠ .faulted → s.atRest p = true := fun h => hrest.elim (absurd ·.1 h) (·.1)
    have ho := s.outside_emptied p
    obtain ⟨f, g, hf, heq⟩ := State.handOver_eq hcells hc hstops
    refine ⟨_, exec_spareHandover_moves hj hc hboundary hck hw, ?_⟩
    rw [heq]
    generalize s.emptied p = u at ho
    have hrings := (u.rings_spareInto p q (s.pair p).handed g (cellOfPair p) f).trans (State.rings_of_outside ho)
    have htarget := u.pair_spareInto_target hne (s.pair p).handed g
    rw [State.pair_complete, State.pair_complete, State.core_complete, State.cst_complete, State.cst_complete,
      State.parts_complete, State.procs_spareInto, State.pair_modCell, State.pair_modCell, State.core_modCell,
      State.cst_modCell, State.cst_modCell, if_neg hcells.symm, if_pos rfl, hf, htarget, State.job_spareInto,
      State.core_spareInto, State.cst_spareInto, State.pairs_of_outside ho, State.parts_of_outside ho]
    exact ⟨rfl, rfl, rfl, rfl, rfl, rfl, rfl, rfl, rfl, State.posted_complete hrings who 0⟩
  case lost =>
    intro s p q who hp hj hrest hstops hck
    obtain ⟨hjob, hspare, hpost⟩ := State.checkpointFails_spare hj hstops
    exact ⟨_, exec_spareHandover_fails hj hrest hck, State.cst_failCell _ _, hjob, hspare, State.rep_reportStop _ p, hpost⟩

end Sys2Proof.Machine
end
